-- ==== Sys2Proof/Word.lean ====
section
/-!
DEFINITION. Word.lean: the word types of the block and their plainest arithmetic. A byte is the unit of every
port, packet and memory structure (R11); object values are at most 64 bits wide (R462).
-/

namespace Sys2Proof

abbrev Byte := BitVec 8
abbrev W16 := BitVec 16
abbrev W32 := BitVec 32
abbrev W64 := BitVec 64

/-- A 32-byte packet header (R69); bit 0 is bit 0 of byte 0. -/
abbrev Header := BitVec 256

/-- A die, channel, unit, queue, granule, LBA or address is a number. -/
abbrev DieNo := Nat
abbrev ChanNo := Nat

end Sys2Proof
end

