-- ==== Sys2Proof/Syntax.lean ====
section
/-!
DEFINITION. Syntax.lean: the commands the block takes, one constructor of `Instr` for each row of
spec/opcode_table.json, and the data a command carries. `dt` is the number of TREF cycles that have passed since the
previous command (log 3). Every other operand is what the surroundings of the block supply in that step (log 6).
-/

namespace Sys2Proof

/-- The path a command reaches the command queue by (R97): a CMD packet, or processor `proc`'s local submission window. -/
inductive Path where
  | host
  | lsw (proc : Nat)
  deriving DecidableEq, Repr

/-- The path of a dictionary access (R465): the configuration port with its CFG_PROC, an MREQ, or the field network. -/
inductive DictPath where
  | cfg (proc : Nat)
  | mreq
  | fn
  deriving DecidableEq, Repr

/-- The framing events of R90, code 11. -/
inductive Framing where
  | sopOutside | sopInside | vcChange | noEop
  deriving DecidableEq, Repr

/-- An inbound packet as its beats show it (R67 to R72): the header, the payload, the trailer carried (if any), the
beat count, BYTES of the EOP beat, the virtual channel and a framing fault among its beats. -/
structure Packet where
  hdr : Header
  payload : List Byte := []
  trailer : Option W32 := none
  beats : Nat := 1
  lastBytes : Nat := 0
  vc : Nat := 0
  framing : Option Framing := none
  deriving DecidableEq, Repr

/-- How a command comes (R67 to R72, R97): a CMD packet, with what its beats show beside the header, or processor `proc`'s local
submission window. -/
inductive CmdVia where
  | host (payload : List Byte := []) (trailer : Option W32 := none) (beats : Nat := 1) (lastBytes : Nat := 32) (vc : Nat := 0)
      (framing : Option Framing := none)
  | lsw (proc : Nat)
  deriving DecidableEq, Repr

/-- The path of a command's arrival. -/
def CmdVia.path : CmdVia → Path
  | .host .. => .host
  | .lsw p => .lsw p

/-- The kinds of CAN frame the field port receives (R479). -/
inductive CanKind where
  | fd | classic | extended | remote
  deriving DecidableEq, Repr

/-- Where a Closa frame comes from: an MREQ packet (R478), or a CAN frame with its identifier (R481). -/
inductive ClosaSrc where
  | mreq (pkt : Packet)
  | fn (id : Nat) (kind : CanKind) (data : List Byte)
  deriving DecidableEq, Repr

/-- What a read-level run measures for one bucket (R322, R323): the syndrome-weight sums of the three probe offsets,
and the sum and ones count of the verification reads. -/
structure BucketMeas where
  group : Nat
  type : Nat
  sMinus : Nat
  sZero : Nat
  sPlus : Nat
  verifySum : Nat
  verifyOnes : Nat
  deriving DecidableEq, Repr

/-- One eye-result word of R229, with the slot whose die was scanned. -/
structure EyeWord where
  slot : Nat
  lane : Nat
  left : Int
  right : Int
  errors : Nat
  samples : Nat
  deriving DecidableEq, Repr

/-- What a microword meets outside its sequencer in the core cycle it runs (R382): whether the PCLK cycles of its WAIT have passed in SDR, RB_N of its
CE, LOCKED, whether the PHY ends the training step in progress (R229), whether a poll is due where no operation says it, whether the
write stream or the sink is ready, the bytes a READ run returns, and the eye-result words the PHY returns. -/
structure UcodeEnv where
  waitMet : Bool := true
  rbHigh : Bool := true
  locked : Bool := true
  trainDone : Bool := true
  pollDue : Bool := true
  dataReady : Bool := true
  readBytes : List Byte := []
  eyes : List EyeWord := []
  deriving DecidableEq, Repr

/-- What enumeration reads from one die slot (R231, R232): whether a ready status came within 10 ms, the two reads of ID 0x00, the bytes
of ID 0x20, the copies of its parameter page read, each as the bytes its CRC covers with that CRC, what the first good copy declares,
the copies of its unique ID with their complements, its first temperature, and, once it has been trained, the eye-result words of the
training steps with the trained trims. -/
structure DieReport where
  slot : Nat
  responds : Bool := true
  idBytes : W64 := 0
  idAgain : W64 := idBytes
  signature : List Byte := [0x4F, 0x4E, 0x46, 0x49]
  copies : List (List Byte × W16) := [([], 0x4F4E)]
  maker : Byte := idBytes.setWidth 8
  planes : Nat := 4
  blocks : Nat := 2000
  pages : Nat := 1047
  pageBytes : Nat := 18592
  capacity : Nat := pageBytes * pages * blocks * planes
  luns : Nat := 2
  busBits : Nat := 8
  cellBits : Nat := 3
  freeBlockNumbers : Bool := true
  uid : BitVec 128 := 0
  uids : List (BitVec 128 × BitVec 128) := [(uid, ~~~uid)]
  temp : Byte := 0
  trained : Option (List EyeWord) := some []
  dqTrim : W64 := 0
  strobeTrim : W32 := 0
  deriving DecidableEq, Repr

/-- What the boot reader finds in the parameter-save pool (R341 to R344): one record page with its system die (0 S0,
1 S1), its place, and its 16,384 payload bytes when all of its codewords decode. -/
structure PoolPage where
  sysDie : Nat
  plane : Nat
  block : Nat
  page : Nat
  bytes : List Byte
  deriving DecidableEq, Repr

/-- The commands of the block: one constructor for each row of the table, in the table's order. -/
inductive Instr where
  | porst (dt : Nat) (asserted : Bool) (trefKhz : Nat) (fnclkSel : Bool) (testMode : Bool)
  | blkrst (dt : Nat) (asserted : Bool)
  | initDone (dt : Nat)
  | protReady (dt : Nat) (sys0 sys1 : DieReport) (spent : List Nat) (pages : List PoolPage)
  | mbistStart (dt : Nat)
  | mode (dt : Nat) (via : CmdVia) (hdr : Header)
  | park (dt : Nat) (via : CmdVia) (hdr : Header)
  | modeRequest (dt : Nat) (path : DictPath) (value : W64)
  | sanitizeEnter (dt : Nat)
  | parkEntryDone (dt : Nat)
  | parkWake (dt : Nat)
  | frameBoundary (dt : Nat) (frameNo : Nat)
  | lineBoundary (dt : Nat) (lineNo : Nat)
  | rasValidFall (dt : Nat)
  | rasterLossTimeout (dt : Nat)
  | virtualFrameBoundary (dt : Nat)
  | virtualLineBoundary (dt : Nat) (line : Nat)
  | newTake (dt : Nat) (path : DictPath) (value : W64)
  | orbitTick (dt : Nat)
  | orbitStandbyWrite (dt : Nat) (path : DictPath) (image : List Byte)
  | linkReady (dt : Nat)
  | readyDrop (dt : Nat)
  | crdt (dt : Nat) (pkt : Packet) (gap : Nat)
  | linkUp (dt : Nat) (pkt : Packet) (gap : Nat)
  | linkDown (dt : Nat) (pkt : Packet) (gap : Nat)
  | linkEcho (dt : Nat) (pkt : Packet) (gap : Nat)
  | creditReturn (dt : Nat) (vc0 vc1 : Nat)
  | data (dt : Nat) (pkt : Packet)
  | qrst (dt : Nat) (pkt : Packet)
  | qrstDone (dt : Nat)
  | xrdyGrant (dt : Nat) (stamp : Nat)
  | windowExpired (dt : Nat) (windowId : Nat)
  | hostLinkStall (dt : Nat)
  | packetSend (dt : Nat)
  | read (dt : Nat) (via : CmdVia) (hdr : Header)
  | write (dt : Nat) (via : CmdVia) (hdr : Header)
  | flush (dt : Nat) (via : CmdVia) (hdr : Header)
  | discard (dt : Nat) (via : CmdVia) (hdr : Header)
  | secureDiscard (dt : Nat) (via : CmdVia) (hdr : Header)
  | fence (dt : Nat) (via : CmdVia) (hdr : Header)
  | streamOpen (dt : Nat) (via : CmdVia) (hdr : Header)
  | streamClose (dt : Nat) (via : CmdVia) (hdr : Header)
  | copy (dt : Nat) (via : CmdVia) (hdr : Header)
  | erase (dt : Nat) (via : CmdVia) (hdr : Header)
  | rawRead (dt : Nat) (via : CmdVia) (hdr : Header)
  | rawProgram (dt : Nat) (via : CmdVia) (hdr : Header)
  | scrub (dt : Nat) (via : CmdVia) (hdr : Header)
  | calibrate (dt : Nat) (via : CmdVia) (hdr : Header)
  | fold (dt : Nat) (via : CmdVia) (hdr : Header)
  | blankCheck (dt : Nat) (via : CmdVia) (hdr : Header)
  | purge (dt : Nat) (via : CmdVia) (hdr : Header)
  | replayScan (dt : Nat) (via : CmdVia) (hdr : Header)
  | activateMicrocode (dt : Nat) (via : CmdVia) (hdr : Header)
  | parityRebuild (dt : Nat) (via : CmdVia) (hdr : Header)
  | lswGo (dt : Nat) (path : DictPath) (value : W64)
  | commandStart (dt : Nat) (stamp : Nat)
  | writeAccept (dt : Nat) (stamp : Nat)
  | bufWaitTimeout (dt : Nat) (stamp : Nat)
  | bufGrant (dt : Nat) (pool : Nat)
  | programDone (dt : Nat) (die : DieNo) (good : Bool)
  | eraseDone (dt : Nat) (die : DieNo) (good : Bool)
  | codewordDecoded (dt : Nat) (job : Nat)
  | roWaitExpired (dt : Nat) (stamp : Nat) (cluster : Nat)
  | parSpill (dt : Nat) (sb : Nat)
  | allocEnable (dt : Nat) (path : DictPath) (value : W64)
  | allocWalkDone (dt : Nat)
  | allocRequest (dt : Nat)
  | bgBlankCheck (dt : Nat) (die plane block zeros : Nat)
  | autoErase (dt : Nat) (sb : Nat)
  | blockRetire (dt : Nat) (path : DictPath) (ppa : W64)
  | blockClassSet (dt : Nat) (path : DictPath) (ppa : W64)
  | mapUnderlay (dt : Nat) (path : DictPath) (entry : W64)
  | mapSafeSeqRead (dt : Nat) (path : DictPath)
  | dieFailed (dt : Nat) (die : DieNo) (cause opcode : Nat)
  | admissionResume (dt : Nat)
  | enum (dt : Nat) (path : DictPath) (ch : ChanNo)
  | enumDone (dt : Nat) (ch : ChanNo) (reports : List DieReport)
  | failChannel (dt : Nat) (path : DictPath) (ch : ChanNo)
  | chDieFail (dt : Nat) (path : DictPath) (ch : ChanNo) (mask : W64)
  | statusPoll (dt : Nat) (die : DieNo) (status : Byte)
  | rbRise (dt : Nat) (ch : ChanNo) (ce : Nat)
  | dieOpTimeout (dt : Nat) (die : DieNo)
  | lunResetDone (dt : Nat) (die : DieNo) (ready : Bool) (idBytes : W64) (uid : BitVec 128)
  | phyFault (dt : Nat) (ch : ChanNo) (cause phy : Nat)
  | channelRecoveryDone (dt : Nat) (ch : ChanNo)
  | recoverTimeout (dt : Nat) (ch : ChanNo)
  | idCheck (dt : Nat) (die : DieNo) (idBytes : W64) (uid : BitVec 128)
  | suspendBudgetExpired (dt : Nat) (die : DieNo)
  | cometRead (dt : Nat) (stream : Nat)
  | mbCtrl (dt : Nat) (path : DictPath) (ch : ChanNo) (value : W64)
  | mbFieldWrite (dt : Nat) (path : DictPath) (ch : ChanNo) (sub : Nat) (value : W64)
  | mbHandover (dt : Nat) (ch : ChanNo)
  | tempPoll (dt : Nat) (die : DieNo) (temp : Byte)
  | calAgeTrigger (dt : Nat) (die : DieNo)
  | calibrationRun (dt : Nat) (die : DieNo) (trim : Bool) (temps : List (DieNo × Byte)) (meas : List BucketMeas) (eyes : List EyeWord)
  | calHoldExpired (dt : Nat) (die : DieNo)
  | calSnapshotRead (dt : Nat) (path : DictPath)
  | calRestore (dt : Nat) (path : DictPath) (image : List Byte)
  | codeDescWrite (dt : Nat) (path : DictPath) (code : Nat) (image : List Byte)
  | protLevelRaise (dt : Nat) (path : DictPath) (value : W64)
  | seal (dt : Nat) (path : DictPath) (value : W64)
  | bootRegionWrite (dt : Nat) (path : DictPath) (value : W64)
  | rawAreaWrite (dt : Nat) (path : DictPath) (value : W64)
  | bwCtrlWrite (dt : Nat) (path : DictPath) (value : W64)
  | bwFetch (dt : Nat) (addr : Nat) (page0 page1 : Option (List Byte)) (ahead : List (List Byte))
  | psaveDataWrite (dt : Nat) (path : DictPath) (bytes : List Byte) (programmed : Bool)
  | rmpKey1 (dt : Nat) (path : DictPath) (value : W64)
  | rmpKey2 (dt : Nat) (path : DictPath) (value : W64)
  | rmpArmLapse (dt : Nat) (path : DictPath)
  | eraseUser (dt : Nat) (path : DictPath) (value : W64)
  | eraseAll (dt : Nat) (path : DictPath) (value : W64)
  | lower (dt : Nat) (path : DictPath) (value : W64)
  | sanitizeDone (dt : Nat)
  | pfail (dt : Nat)
  | drainDone (dt : Nat)
  | ucodeLoad (dt : Nat) (path : DictPath) (image : List Byte)
  | dieOpDispatch (dt : Nat) (seq : Nat)
  | microword (dt : Nat) (seq ctx : Nat) (env : UcodeEnv)
  | ucodeWatchdog (dt : Nat) (seq ctx : Nat)
  | ucodeSwap (dt : Nat)
  | poolEnable (dt : Nat) (path : DictPath) (value : W64)
  | bufAlloc (dt : Nat) (proc pool : Nat)
  | bufFree (dt : Nat) (proc : Nat) (handle : W64)
  | bufFreeAddr (dt : Nat) (proc : Nat) (addr : W64)
  | bufRef (dt : Nat) (proc : Nat) (handle : W64)
  | noticeOffer (dt : Nat)
  | heldNoticeEnter (dt : Nat) (queue : Nat)
  | nqFlushTimeout (dt : Nat) (queue : Nat)
  | nqPop (dt : Nat) (proc queue : Nat)
  | nqTry (dt : Nat) (proc queue : Nat)
  | nqBlockExpired (dt : Nat) (proc : Nat)
  | flushNq (dt : Nat) (path : DictPath) (queue : Nat)
  | clearNq (dt : Nat) (path : DictPath) (queue : Nat)
  | ceStart (dt : Nat) (path : DictPath) (ch : Nat) (value : W64)
  | ceAbort (dt : Nat) (path : DictPath) (ch : Nat)
  | ceDone (dt : Nat) (ch : Nat)
  | mpCmdCredit (dt : Nat) (port : Nat)
  | mpWrCredit (dt : Nat) (port : Nat)
  | mpRdBeat (dt : Nat) (port tag : Nat) (beat : List Byte) (last bad : Bool)
  | mpAck (dt : Nat) (port tag : Nat) (bad : Bool)
  | intClaim (dt : Nat) (proc : Nat)
  | intEoi (dt : Nat) (proc : Nat) (value : W64)
  | intSoft (dt : Nat) (proc : Nat) (value : W64)
  | sleepInd (dt : Nat) (proc : Nat) (level : Bool)
  | coalTimer (dt : Nat) (group : Nat)
  | closaRead (dt : Nat) (src : ClosaSrc)
  | closaWrite (dt : Nat) (src : ClosaSrc)
  | uploadBegin (dt : Nat) (src : ClosaSrc)
  | uploadSeg (dt : Nat) (src : ClosaSrc)
  | downloadBegin (dt : Nat) (src : ClosaSrc)
  | downloadSeg (dt : Nat) (src : ClosaSrc)
  | abandon (dt : Nat) (src : ClosaSrc)
  | cfgDownloadOpen (dt : Nat) (proc index sub : Nat) (length : W32)
  | cfgDownloadAppend (dt : Nat) (proc index sub : Nat) (word : W32)
  | cfgAbandon (dt : Nat) (proc index sub : Nat)
  | cfgUploadOpen (dt : Nat) (proc index sub : Nat)
  | cfgUploadRead (dt : Nat) (proc index sub : Nat)
  | cfgWriteLatch (dt : Nat) (proc index sub : Nat) (word : W32)
  | dictSegTimeout (dt : Nat) (xfer : Nat)
  | objectWrite (dt : Nat) (proc index sub off : Nat) (word : W32)
  | fnStatusFrame (dt : Nat)
  | fnBusoff (dt : Nat)
  | fnBusoffRecover (dt : Nat)
  | statFreeze (dt : Nat) (path : DictPath) (value : W64)
  | tlogRecord (dt : Nat)
  | tlogMark (dt : Nat) (path : DictPath) (value : W64)
  | tlogClear (dt : Nat) (path : DictPath) (value : W64)
  | tlogImageRead (dt : Nat) (path : DictPath)
  | rasValidRise (dt : Nat)
  | eyeScanOverrun (dt : Nat) (ch : ChanNo)
  | bwFetchWaitExpired (dt : Nat)
  | mbistDone (dt : Nat) (failed : Bool)
  deriving DecidableEq, Repr

end Sys2Proof
end

