-- ==== Sys2Proof/Config.lean ====
section
/-!
DEFINITION. Config.lean: what one implementation of the block fixes (its build, R3 to R5) and the free values: values
that the spec leaves open. A free value has no body, so nothing can be proved of it beyond what the model's use of it
limits (log 8).
-/

namespace Sys2Proof

/-- The four builds of R4. -/
inductive Build where
  | rlk16 | rlk32 | rlk48 | rlk64
  deriving DecidableEq, Repr

/-- Channels of a build (R4, R15). -/
def Build.channels : Build → Nat
  | .rlk16 => 16 | .rlk32 => 32 | .rlk48 => 48 | .rlk64 => 64

/-- One cluster per eight channels: memory ports and control-store copies (R4). -/
def Build.clusters (b : Build) : Nat := b.channels / 8

/-- Soft decoders of a cluster, and of a build (R4). -/
def clusterSoft : Nat := 2
def Build.softDecoders (b : Build) : Nat := clusterSoft * b.clusters

/-- The map cache of a build in bytes, 256 KiB a cluster (R4). It is write-through: what it holds is always what DRAM holds (R165), so
no state of its own stands for it. -/
def Build.mapCache (b : Build) : Nat := 262144 * b.clusters

/-- Die numbers run below 16 × C (R6). -/
def Build.dies (b : Build) : Nat := 16 * b.channels

/-- A free byte, for the n-th open value met (log 8): undefined buffer contents, undefined bytes after a failed write. -/
opaque Config.freeByte : Nat → Byte

/-- A free number, for the n-th open choice met (log 8): which free buffer a grant returns (R409). -/
opaque Config.freePick : Nat → Nat

/-- What the block's LDPC decoder makes of a codeword's log-likelihood ratios within an iteration limit: the bits of the mother word
(R284, R285). "The decoder's schedule and arithmetic are not part of the interface": a free value. -/
opaque Config.decoder : (limit : Nat) → (desc : List Byte) → (llrs : List Int) → List Bool

/-- The base-matrix entries of the built-in codes of slots 0 to 3, whose values the spec gives only by structure (R282). -/
opaque Config.builtinEntries : Nat → List W32

/-- CODE_TAG of the built-in descriptors: any value (R278). -/
opaque Config.builtinTag : Nat → W64

end Sys2Proof
end

