-- ==== Sys2Proof/Machine/State.lean ====
section
/-!
DEFINITION. Machine/State.lean: the state of the block as plain data, and the state right after reset.

Dictionary objects that software reads or writes as words live in `dict`, one 64-bit value per object address
(index × 256 + subindex), in one canonical form: keys strictly rising, no entry equal to the object's reset default.
Everything else the spec gives the block (queues, windows, open rows, tables, contexts, pins) has a typed field of its
own. `mem` is the DRAM behind the memory ports as the block sees it (log 7).
-/

namespace Sys2Proof.Machine

open Sys2Proof

/-- A sparse table: (key, value) pairs. -/
abbrev NMap (α : Type) := List (Nat × α)

/-- Why a step can stop with a fault. -/
inductive Fault where
  /-- A command other than a reset or the memory self-test taken while the TEST_MODE strap is 1: R510 calls the
  functional behaviour undefined and gives it no effect. Safe: no claim can rest on it. -/
  | testModeUndefined
  deriving DecidableEq, Repr

/-- Why a step can be refused. -/
inductive Refusal where
  /-- No meaning has been given to the command of this mnemonic. Raised by no meaning; safe. -/
  | notModelled (mnemonic : String)
  deriving DecidableEq, Repr

/-- The eight operating modes of R21. -/
inductive Mode where
  | park | openMode | record | recordBurst | review | offload | service | sanitize
  deriving DecidableEq, Repr

/-- Reset and initialization (R523 to R526): held in reset; released and clearing SRAM; initialization ended, the pool
scan running; PROT_READY risen. -/
inductive Phase where
  | held | clearing | scanning | running
  deriving DecidableEq, Repr

/-- A raster position (R40). -/
structure RPos where
  epoch : W16 := 0
  frame : W32 := 0
  line : W16 := 0
  deriving DecidableEq, Repr

/-- A mode request waiting to take effect (R29): its mode, whether the block placed it (R24), and the stamp of its
MODE or PARK command, if a command made it. -/
structure ModeReq where
  mode : Mode
  byBlock : Bool := false
  cmd : Option Nat := none
  deriving DecidableEq, Repr

/-- The mode and power area (R26, R27, R33). During PARK entry `parkRestarted` holds from the filing of a command that restarts
it until no media operation for any command remains (R153), and `parkFlushed` once coalescing groups have been flushed. -/
structure ModeSt where
  current : Mode := .openMode
  before : Mode := .openMode
  request : Nat := 1
  pending : Option ModeReq := none
  lastRefusal : Nat := 0
  draining : Bool := false
  parkEntry : Bool := false
  parkRestarted : Bool := false
  parkFlushed : Bool := false
  poweredDown : Bool := false
  changePos : RPos := {}
  changeTime : Nat := 0
  changeCount : Nat := 0
  slcLow : Bool := false
  deriving DecidableEq, Repr

/-- The raster time base (R37 to R49, R61, R66). `frameHigh` is the highest line opened by a line boundary after line 0
in the current frame (0: none); `prevHadLines` whether the previous frame had such a boundary; `lineCount` counts every
line boundary of either raster, a frame boundary included; `framed` whether a frame has ended since reset. -/
structure RasterSt where
  pos : RPos := {}
  validIn : Bool := false
  present : Bool := false
  lost : Bool := false
  newTake : Bool := false
  lastCause : Nat := 0
  intervals : List Nat := []
  lastFrameAt : Option Nat := none
  lastLineAt : Option Nat := none
  boundaryAt : Nat := 0
  absentAt : Nat := 0
  frameHigh : Nat := 0
  prevHadLines : Bool := false
  lines : Nat := 0
  lineCount : Nat := 0
  periodShort : Bool := false
  vPeriod : Nat := 41666667
  vLines : Nat := 1000
  framed : Bool := false
  deriving DecidableEq, Repr

/-- An orbit table (R51): `masks` holds SLOT_MASK[k] for k = 0 to 255. -/
structure OrbitTable where
  generation : Nat
  frames : Nat
  cls : Nat
  slots : Nat
  groups : Nat
  tprogNs : Nat
  periodNs : Nat
  masks : List Nat
  deriving DecidableEq, Repr

/-- The orbit scheduler (R50 to R53): the two tables, the commands that complete at the next boundary, the frame of the
period, the next tick of the frame, its source, and slots that are due and have not yet opened a row: their group, and the
number of the tick that made them due, as `tickNo` counts the ticks begun. `demotes` are the streams that the plan of a
STREAM_CLOSE leaves out, demoted at the boundary where it takes effect (R58). `tbersNs` and `holdFrames` are ORBIT_TBERS_NS
and BUDGET_HOLD_FRAMES as the latest plan took them, none before the first (R65). -/
structure OrbitSt where
  active : Option OrbitTable := none
  standby : Option OrbitTable := none
  opens : List Nat := []
  closes : List Nat := []
  frameIdx : Nat := 0
  tick : Nat := 0
  fromTime : Bool := false
  generation : Nat := 0
  due : List (Nat × Nat) := []
  tickNo : Nat := 0
  demotes : List Nat := []
  tbersNs : Option Nat := none
  holdFrames : Option Nat := none
  fresh : Bool := false
  deriving DecidableEq, Repr

/-- One of the eight streams (R112 to R114, R55 to R60). `order` is the stamp of its STREAM_OPEN. -/
structure Stream where
  isOpen : Bool := false
  completed : Bool := false
  demoted : Bool := false
  closing : Bool := false
  queue : Nat := 0
  unit : Nat := 0
  bytes : Nat := 0
  period : Nat := 0
  admitted : Nat := 0
  charged : Nat := 0
  rows : Nat := 0
  order : Nat := 0
  deriving DecidableEq, Repr

/-- An outbound packet (R70, R81 to R87). DATA carries the stamp of its READ. -/
inductive OutPkt where
  | xrdy (queue cid window offset wlen : Nat)
  | data (stamp queue cid offset : Nat) (last : Bool) (bytes : List Byte)
  | resp (queue cid status : Nat) (dup : Bool) (info stamp : Nat)
  | mrsp (mtag : Nat) (frame : List Byte)
  | crdt (vc0 vc1 : Nat)
  | link (kind code : Nat) (crcEn : Bool) (detail : Nat)
  | qrst (qtag qmask : Nat)
  deriving DecidableEq, Repr

/-- One beat of HLO (R67): SOP, EOP, BYTES where it has a meaning (0 for 256), VC, and the packet's bytes in its lanes. -/
structure Beat where
  sop : Bool
  eop : Bool
  bytes : Option Nat
  vc : Nat
  data : List Byte
  deriving DecidableEq, Repr

/-- An open XRDY window (R88, R93). `sentAt` is the time its XRDY's SOP beat left; `got` the 4 KiB ranges received,
counted from the window's start. -/
structure Window where
  id : Nat
  stamp : Nat
  offset : Nat
  len : Nat
  sentAt : Option Nat := none
  timeout : Nat := 0
  got : List Nat := []
  deriving DecidableEq, Repr

/-- A QRST taken and not yet answered (R94): its tag, mask, and the stamps it covers that are still outstanding. -/
structure QrstRec where
  qtag : Nat
  qmask : Nat
  covered : List Nat
  deriving DecidableEq, Repr

/-- The host link (R67 to R96). `rx0`, `rx1` are the beats of receive space in use, `owe0`, `owe1` those among them whose
credit is still to be returned; `held` the CMD headers that wait in the receive buffer (R79), `mreqs` the MREQs, with their
services (R84); `short0`, `short1` when each outbound counter fell short (R77), `stall0`, `stall1` whether for too long; `hlo` the
beats of the last packet put on HLO and `freeAt` when the last credit-free one started (R75); `retVc0`, `retVc1` CRDT_RET in the
cycle of the last command, at `retAt` (R74); `heard` whether a CRDT's SOP beat has come since DOWN was entered, `crdtIn` a CRDT
taken there (R73); `crcSent` the CRC_EN of the LINK UP sent. The WINDOW_ID counter `nextWindow` starts at 0 after reset and runs
on over a link-down (DESIGN CHOICE, log 231). -/
structure LinkSt where
  st : Nat := 0
  crcActive : Bool := false
  lastError : Nat := 0
  stall0 : Bool := false
  stall1 : Bool := false
  peer0 : Nat := 0
  peer1 : Nat := 0
  tx0 : Nat := 0
  tx1 : Nat := 0
  rx0 : Nat := 0
  rx1 : Nat := 0
  vc0Run : Nat := 0
  short0 : Option Nat := none
  short1 : Option Nat := none
  nextWindow : Nat := 0
  windows : List Window := []
  out0 : List OutPkt := []
  out1 : List OutPkt := []
  held : List Header := []
  mreqs : List (Nat × Packet) := []
  qrsts : List QrstRec := []
  hlo : List Beat := []
  freeAt : Option Nat := none
  heard : Bool := false
  crdtIn : Option (Nat × Nat) := none
  crcSent : Bool := false
  retVc0 : Nat := 0
  retVc1 : Nat := 0
  owe0 : Nat := 0
  owe1 : Nat := 0
  retAt : Nat := 0
  lastErrorAt : Option Nat := none
  deriving DecidableEq, Repr

/-- How far a command has come (R127, R138): filed and waiting; started; a WRITE accepted; its completion decided and
not yet delivered (R133). -/
inductive CmdPhase where
  | waiting | started | accepted
  | ended (status info : Nat)
  deriving DecidableEq, Repr

/-- What a READ resolved one granule to (R132). -/
inductive Source where
  | buffer (handle : Nat)
  | media (ppa : Nat)
  | zeros
  | bad
  deriving DecidableEq, Repr

/-- A sector of a READ that is ready to leave (R303), and where it is held: a reorder slot of a cluster, staging, a
buffer handle, or nowhere (zeros, fill). -/
inductive Holder where
  | slot (cluster : Nat)
  | staged
  | buffer (handle : Nat)
  | none
  deriving DecidableEq, Repr

structure ReadySector where
  sector : Nat
  bytes : List Byte
  holder : Holder
  deriving DecidableEq, Repr

/-- A granule that a maintenance command reads in order to move it (R201): the entry value it started from, the codewords
still to come, those read (index, metadata, user data), whether one was weak (R204) or rebuilt, whether one is lost, the
sectors to zero (R206), and whether it waits for its staging buffer. -/
structure Gathered where
  unit : Nat
  granule : Nat
  entry : Nat
  need : List Nat
  got : List (Nat × Nat × List Byte) := []
  weak : Bool := false
  rebuilt : Bool := false
  lost : Bool := false
  zero : List Nat := []
  staging : Bool := false
  deriving DecidableEq, Repr

/-- A die address of an erase block: die, plane, block. -/
structure BlockAddr where
  die : Nat
  plane : Nat
  block : Nat
  deriving DecidableEq, Repr

/-- An outstanding command (R97, R126, R128): its header, path, stamp, arrival position and time, its phase, its range
lock, and the progress its opcode needs; `raceLate` whether a race of the READ has failed (R300). -/
structure Cmd where
  hdr : Header
  path : Path
  stamp : Nat
  pos : RPos := {}
  time : Nat := 0
  phase : CmdPhase := .waiting
  locked : Bool := false
  heldB : Bool := false
  heldWindows : Nat := 0
  granted : Nat := 0
  drawn : Nat := 0
  ranges : List Nat := []
  bufs : List (Nat × Nat) := []
  sources : List (Nat × Source) := []
  ready : List ReadySector := []
  sent : Nat := 0
  fromBuf : Nat := 0
  unc : Option Nat := none
  badGranules : List Nat := []
  notice : Bool := false
  aborted : Bool := false
  work : List (Nat × Nat × Nat) := []
  gathered : List Gathered := []
  moved : Nat := 0
  left : Nat := 0
  lostLba : Option Nat := none
  counted : Nat := 0
  mapDone : Bool := false
  targets : List (BlockAddr × Nat × Nat) := []
  issued : List Nat := []
  rp : Nat := 7
  found : List (Nat × Nat) := []
  rawData : List Byte := []
  raceLate : Bool := false
  deriving DecidableEq, Repr

/-- Where a sector of a merge that is still pending comes from (R168). -/
structure MergeNeed where
  sector : Nat
  source : Source
  deriving DecidableEq, Repr

/-- An accepted version that is not yet programmed (R138 to R141, R165 to R168), or a granule being moved (`moveFrom`
holds the entry value the move started from, R166). `prog` counts its codewords with good status, `placed` those given
a place; `loc` is the PPA of its first codeword once placed; `underStamp` the stamp of the version that `under` is of (R170). -/
structure Version where
  id : Nat
  unit : Nat
  granule : Nat
  handle : Nat
  stamp : Nat
  wseqs : List Nat
  lbas : List Nat
  merge : List MergeNeed := []
  poison : List Nat := []
  atomic : Bool := false
  remain0 : Nat := 0
  raster : Bool := false
  fua : Bool := false
  path : Path := .host
  queue : Nat := 0
  cid : Nat := 0
  moveFrom : Option W64 := none
  moveCmd : Option Nat := none
  tclass : Nat := 255
  fold : Bool := false
  maint : Bool := false
  placed : Nat := 0
  prog : Nat := 0
  started : Bool := false
  loc : Option Nat := none
  under : W64 := 0
  underStamp : Nat := 0
  raised : List Nat := []
  metas : List Nat := []
  rows : List Nat := []
  deriving DecidableEq, Repr

/-- A programmed granule and the WRITE it came from, for a later UNCORRECTABLE deferred error (R144): its entry, its
superblock and member, and the rows its codewords lie in. -/
structure Origin where
  unit : Nat
  granule : Nat
  stamp : Nat
  queue : Nat
  cid : Nat
  isLocal : Bool
  fua : Bool
  sectors : Nat
  entry : Nat
  sb : Nat
  member : Nat
  rows : List Nat
  deriving DecidableEq, Repr

/-- One codeword place of a lane: a codeword of a version, or a pad (R143). -/
inductive CwRef where
  | ver (id idx : Nat)
  | pad
  deriving DecidableEq, Repr

/-- A lane of an open superblock (R172, R173): the codewords assigned to it and not yet programmed. -/
structure Lane where
  member : Nat
  plane : Nat
  queue : List CwRef := []
  deriving DecidableEq, Repr

/-- The open row of a superblock (R178, R179, R181 to R183). `tickNo` is the tick whose slot opened it, none outside the orbit;
`high` the highest write sequence of each member's unit. `interim` lists the members that an interim record being written covers,
`interimLeft` the parity members whose half of it is not yet on media; its halves' payloads, sequence and first page stand in
`intP`, `intQ`, `intSeq` and `intPpa` (0: none yet); `intDone` lists the members that a written record covers. -/
structure Row where
  wl : Nat
  present : List Nat
  queued : List Nat := []
  contributed : List Nat := []
  failed : List Nat := []
  parityQueued : List Nat := []
  parityDone : List Nat := []
  accP : List (Nat × List Byte) := []
  accQ : List (Nat × List Byte) := []
  accAt : Nat := 0
  spilled : List Nat := []
  tickNo : Option Nat := none
  interim : List Nat := []
  interimLeft : List Nat := []
  intP : List (Nat × List Byte) := []
  intQ : List (Nat × List Byte) := []
  intSeq : Nat := 0
  intPpa : Nat := 0
  intDone : List Nat := []
  high : List (Nat × Nat) := []
  closeAfter : Bool := false
  deriving DecidableEq, Repr

/-- What the block holds on chip of an OPEN superblock (R176); its table entry lies in DRAM (R177). -/
structure OpenSb where
  sb : Nat
  unit : Nat
  maint : Bool
  group : Nat
  profile : Nat
  cls : Nat
  members : List Nat
  zero : List Nat
  row : Option Row := none
  lanes : List Lane := []
  nextWl : Nat := 0
  wls : Nat := 0
  planes : Nat := 0
  deriving DecidableEq, Repr

/-- A request waiting for the allocator (R192). `prio` is the order of R192: 0 rescue top-up, 1 RASTER, 2 other host,
3 maintenance, 4 interim. -/
structure AllocReq where
  prio : Nat
  unit : Nat
  maint : Bool
  tclass : Nat := 255
  fold : Bool := false
  group : Option Nat := none
  die : Nat := 0
  deriving DecidableEq, Repr

/-- What an operation in a die queue does (R236). -/
inductive OpKind where
  | read (jobs : List Nat)
  | program (sb wl member : Nat)
  | parity (sb wl member : Nat) (q : Bool)
  | interim (sb wl member : Nat)
  | erase (blocks : List BlockAddr) (cmd : Option Nat)
  | rawProgram (cmd : Nat)
  | zeroFill (cmd : Nat) (block : BlockAddr) (page : Nat)
  | rescue (row member page : Nat) (cws : List (Nat × Nat × Nat))
  deriving DecidableEq, Repr

/-- An operation of a die, in its queue of 48 entries where `queued`, else in the dispatch stage (R236 to R247, R259): `since` is when it
joined, `elig` since when its next transaction may start, `began` when it started, `startedAt` when it started or, once `confirmed`,
when its array time began, `routine` the number of routines run for a program or an erase. A program's data-in has begun (`dataIn`);
it runs as CACHE_PROGRAM (`cache`). `status` is the last good status read. `suspendedNs` counts suspended and parked time, `budgetNs`
suspended time that the budget counts; `boot` marks a suspend for a boot-window fetch, `sent` that the first transaction of a suspend
or resume routine is over. Of a read, `applied` is the read-level generation whose levels the die was given for the next sense,
`sensing` the page sensed last, `cached` the page whose codewords leave, `loading` the page that is so from PAGE_LOADED on (R386); `cont` marks a continuous read, `ended` that it has had its
0x3F; `outs` are the codewords of the data-outs that have started, `focus` the codeword its routine is about; `spec` marks a speculative
soft sense (R293). -/
structure DieOp where
  id : Nat
  die : Nat
  kind : OpKind
  stamp : Nat := 0
  cls : Nat := 3
  due : Bool := false
  queued : Bool := true
  elig : Option Nat := none
  started : Bool := false
  began : Nat := 0
  startedAt : Nat := 0
  confirmed : Bool := false
  dataIn : Bool := false
  cache : Bool := false
  status : Byte := 0
  since : Nat := 0
  routine : Nat := 0
  suspended : Bool := false
  suspends : Nat := 0
  suspendedAt : Nat := 0
  suspendedNs : Nat := 0
  budgetNs : Nat := 0
  boot : Bool := false
  sent : Bool := false
  resumedAt : Nat := 0
  pollDue : Bool := false
  polledAt : Option Nat := none
  shownReady : Bool := false
  badReads : Nat := 0
  retried : Bool := false
  resetting : Bool := false
  applied : Option Nat := none
  sensing : Option Nat := none
  cached : Option Nat := none
  loading : Option Nat := none
  cont : Bool := false
  ended : Bool := false
  outs : List Nat := []
  focus : Option Nat := none
  spec : Bool := false
  deriving DecidableEq, Repr

/-- Who needs a codeword (R290). -/
inductive Purpose where
  | read (stamp sector : Nat)
  | member (rebuild m : Nat)
  | scan (stamp : Nat)
  | gather (stamp granule idx : Nat)
  | raw (stamp page : Nat)
  | blank (stamp which : Nat)
  | comet (stream unit granule idx : Nat)
  | merge (version sector : Nat)
  | replay (stamp : Nat)
  deriving DecidableEq, Repr

/-- A speculative soft sense (R293 to R296): none, queued, its sense begun, its data held, or handed to the ladder. -/
inductive SpecSense where
  | none | queued | inFlight | held | used
  deriving DecidableEq, Repr

/-- A codeword read in progress (R288 to R294). `step` is the ladder step that runs now; 100 stands for a codeword that goes
to rebuild, 101 for one that a rebuild works on. `hardLeft` holds the retry entries still to run, the current one first;
`bestSw` is the lowest initial syndrome weight a hard retry gave so far, with that retry's entry; `mismatchOnly` holds while every
attempt failed the metadata check alone (R307). `top` is the highest step tried and `rp` RP_CTRL as it governs the read (R308, R311);
`data` are the bytes of the attempt's data-outs, all of which have come once `arrived`; `soft` whether it holds a soft decoder (R291);
`specData` the bytes of a speculative sense. -/
structure Job where
  id : Nat
  purpose : Purpose
  ppa : Nat
  unit : Nat
  lba : Nat
  cls : Nat
  stamp : Nat
  step : Nat := 0
  hardLeft : List Nat := []
  softUsed : Bool := false
  bestSw : Option (Nat × Nat) := none
  lastSw : Nat := 0
  gen : Nat := 0
  spec : SpecSense := .none
  mismatchOnly : Bool := false
  raced : Option Nat := none
  h : Nat := 0
  s : Nat := 0
  top : Nat := 0
  rp : Nat := 7
  data : List Byte := []
  arrived : Bool := false
  soft : Bool := false
  specData : List Byte := []
  deriving DecidableEq, Repr

/-- A rebuild from the row (R297 to R300): the job it serves, its source order, the members whose
places it needs, those that came with their payloads, those that failed, the pool-0 buffers drawn for them (R406), and the blocks of
those that came, which stay pinned until it ends (R298). -/
structure Rebuild where
  id : Nat
  job : Nat
  order : Nat
  row : Nat
  sb : Nat
  target : Nat
  erased : List Nat
  wanted : List Nat
  got : List (Nat × List Byte)
  failed : List Nat := []
  raced : Bool := false
  bufs : List Nat := []
  pinned : List BlockAddr := []
  deriving DecidableEq, Repr

/-- A comet stream (R248), whether it runs ahead, the granule whose entry stopped it (R249), and one granule it holds or has in
flight, with the decode steps of its codewords (R249 to R251). -/
structure CometStream where
  id : Nat
  unit : Nat
  next : Nat
  hits : Nat
  lastUse : Nat
  queue : Nat
  ahead : Nat
  running : Bool := false
  stopped : Option Nat := none
  deriving DecidableEq, Repr

structure CometHeld where
  stream : Nat
  unit : Nat
  granule : Nat
  entry : W64
  need : Nat
  got : List (Nat × List Byte)
  steps : List (Nat × Nat) := []
  slots : Nat
  handle : Option Nat
  ppa : Nat
  deriving DecidableEq, Repr

/-- Calibration statistics of one bucket (R320). -/
structure Bucket where
  group : Nat
  type : Nat
  n : Nat
  ones : Nat
  sw : Nat
  block : Nat
  fixed01 : Nat := 0
  fixed10 : Nat := 0
  deriving DecidableEq, Repr

/-- What calibration keeps of a die (R313, R315 to R330): its table header, its latest temperature and when it was read, the bucket statistics, a
recorded trigger, the last cause. `hold` is the time results began to wait to be armed, `result` the new entries (index,
value), `kind` 1 for a run and 3 for a restore, which brings its own temperature and time; `cmd` the CALIBRATE they
answer; `switchPending` stands from arming to hand-over, with the armed results' kind, temperature, time, changed entries and
command in `pend`. -/
structure CalDie where
  gen : Nat := 0
  tempLast : Int := 0
  tempTrim : Int := 0
  tempNow : Int := -128
  polledAt : Nat := 0
  timeLast : Nat := 0
  runs : Nat := 0
  rejects : Nat := 0
  stats : List Bucket := []
  trigRl : Bool := false
  lastCause : Nat := 0
  switchPending : Bool := false
  hold : Option Nat := none
  result : List (Nat × Int) := []
  kind : Nat := 1
  newTemp : Int := 0
  newTime : Nat := 0
  changed : Nat := 0
  cmd : Option Nat := none
  pend : Nat × Int × Nat × Nat × Option Nat := (1, 0, 0, 0, none)
  hints : List (Nat × Nat) := []
  deriving DecidableEq, Repr

/-- A latest record of the parameter-save pool (R341), with the pool blocks that hold it. -/
structure PoolRec where
  kind : Nat
  slot : Nat
  seq : Nat
  payload : List Byte
  homes : List BlockAddr := []
  deriving DecidableEq, Repr

/-- A pool block with a valid header: its ERASES and its pages in use (R341, R343). -/
structure PoolBlk where
  at_ : BlockAddr
  erases : Nat
  used : Nat
  deriving DecidableEq, Repr

/-- The unlock state of one path of the raw path (R354); path 0-7 a processor, 8 the host link. -/
structure Arm where
  path : Nat
  staged : Option Nat := none
  armed : Option Nat := none
  deriving DecidableEq, Repr

/-- A rescue set of one die (R363, R364). -/
structure RescueSet where
  die : Nat
  block : Nat
  planeMask : Nat
  row : Nat
  member : Nat
  spent : Bool
  deriving DecidableEq, Repr

/-- A boot-window fetch that is outstanding (R358 to R360): its address, the system die it is for (0 S0, 1 S1) and since when,
what its page decodes to on each, and what the pages after it decode to. -/
structure BwFetch where
  addr : Nat
  which : Nat
  since : Nat
  page0 : Option (List Byte)
  page1 : Option (List Byte)
  ahead : List (List Byte) := []
  deriving DecidableEq, Repr

/-- Protection, the parameter-save pool, the raw path, the boot window, the sanitize sequence and the drain
(R338 to R374). `bwBeats` are the eight beats of the last fetch, `bwHeld` the decoded pages that the boot window holds: page-sequence
index, the system die it came from, its bytes (R358). `sanBlocks` are the blocks still to erase, `sanTried` those among them whose first
erase failed, `sanGood` those erased, `sanFilled` those filled with zeros instead, `sanBad` those not cleared (R371). `drainPages` gives
each rescue row's pages laid out (R365). -/
structure ProtSt where
  ready : Bool := false
  level : Nat := 2
  sealed : Bool := false
  noSystemDie : Bool := false
  recordLost : Bool := false
  sanInterrupted : Bool := false
  poolBlank : Bool := false
  levelChanges : Nat := 0
  bootFirst : Nat := 0
  bootCount : Nat := 0
  rawFirst : Nat := 0
  rawCount : Nat := 0
  usable0 : Bool := false
  usable1 : Bool := false
  slc0 : Nat := 0
  slc1 : Nat := 0
  records : List PoolRec := []
  pool : List PoolBlk := []
  poolSeq : Nat := 0
  psaveResult : Nat := 0
  arms : List Arm := []
  rmpLastErr : Nat := 0
  rawNext : List (BlockAddr × Nat) := []
  bwOpen : Bool := true
  bwFallback : Bool := false
  bwPending : Option BwFetch := none
  bwBeats : List W64 := []
  bwHeld : List (Nat × Nat × List Byte) := []
  sanOp : Nat := 0
  sanTarget : Nat := 0
  sanRunning : Bool := false
  sanResult : Nat := 0
  sanBlocks : List BlockAddr := []
  sanTried : List BlockAddr := []
  sanGood : List BlockAddr := []
  sanFilled : List BlockAddr := []
  sanBad : List BlockAddr := []
  sanBegun : Bool := false
  pfail : Bool := false
  draining : Bool := false
  drainT0 : Nat := 0
  drainCws : Nat := 0
  drainHigh : Nat := 0
  drainQueue : List Nat := []
  drainPages : NMap Nat := []
  lastEnd : Nat := 0
  overBudget : Bool := false
  pfailDone : Bool := false
  rescueAcc : List (Nat × List Byte) := []
  rescue : List RescueSet := []
  rescueDir : List RescueSet := []
  deriving DecidableEq, Repr

/-- A channel (R222 to R268). The objects of the channel live in `dict`; here stands what is not an object: its state, whether an
enumeration has ended since reset, its last fault, PHY status, the bus interface and rate, the pins it drives (PHY_RST_N falls
until `rstUntil`), the beats and trim words it put out last, whether TRIM_LOAD or TRAIN_REQ went with them, a training step in
progress with its eye-result words, whether beats wait for LOCKED after a change of IFACE_SEL, the last TRAIN_ACK, RB_N, DQ_IN and
DQ_IN_VALID, the slot that owns the bus, the dispatches of PROMPT, BULK and UPKEEP in this round of weights (R22), when recovery began, the moon bank's race state and last hand-over, and a PHY-trim run's recorded trigger,
waiting results (slot, DQ trims, strobe trims), pending switch and CALIBRATE. -/
structure Chan where
  st : Nat := 0
  lastFault : Nat := 0
  phy : Nat := 0
  iface : Nat := 0
  rate : Nat := 0
  wpN : Bool := false
  phyRstN : Bool := false
  rstUntil : Nat := 0
  enumerated : Bool := false
  ce : List Nat := []
  beats : List (Nat × Byte) := []
  trimWords : List W64 := []
  trimLoad : Bool := false
  trainReq : Bool := false
  trainMode : Nat := 0
  training : Bool := false
  trainAck : Bool := false
  eyes : List EyeWord := []
  lockWait : Bool := false
  rbN : List Nat := []
  dqIn : List Byte := []
  dqInValid : Bool := false
  served : List Nat := [0, 0, 0]
  busOwner : Option Nat := none
  recoverAt : Nat := 0
  shadowLate : Bool := false
  handPos : RPos := {}
  tickSince : Bool := false
  trigTrim : Bool := false
  trimHold : Option Nat := none
  trimResult : List (Nat × W64 × W32) := []
  trimPending : Bool := false
  trimChanged : Nat := 0
  trimCmd : Option Nat := none
  deriving DecidableEq, Repr

/-- What enumeration fixed for a die (R231 to R233): its unique ID where it passed checks 1 to 6, its geometry (0 planes: it
failed one of checks 1 to 9), its running faults, whether it must be polled
before a run (R315), whether its latest RASTER program started after its slot (R54), when its IDs were last checked (R262), and
whether its group's latest slot, whose tick began at `slotAt`, still waits for its program's status (R243). `profile` is the word address of its
profile region in its cluster's active bank. -/
structure DieInfo where
  uid : BitVec 128 := 0
  identified : Bool := false
  planes : Nat := 0
  blocks : Nat := 0
  pages : Nat := 0
  pageBytes : Nat := 0
  cellBits : Nat := 0
  freeBlockNumbers : Bool := true
  profile : Option Nat := none
  dirIndex : Nat := 255
  resetTimes : List Nat := []
  powered : Bool := true
  timedOutAt : Option Nat := none
  resetting : Bool := false
  mustPoll : Bool := false
  shadow : List Byte := []
  suspBudget : Nat := 0
  slotOpen : Bool := false
  slotAt : Nat := 0
  slotLate : Bool := false
  idCheckAt : Nat := 0
  deriving DecidableEq, Repr

/-- A resume token (R390). -/
structure Token where
  pc : Nat
  stack : List Nat
  gp : List W32
  lc0 : Nat
  lc1 : Nat
  sts : Byte
  plane : Nat
  page : Nat
  col : Nat
  kind : Nat
  rpt : Nat
  deriving DecidableEq, Repr

/-- A microcode context (R375, R385, R388). `run`: 0 idle, 1 running, 2 ready, 3 waiting, 4 holding a token, 5 parked. `wordAt` is when its
word started (R382), `runAt` when it last came from a yield point or its dispatch (R392), `arrayAt` the ARRAY_START of a routine that has
clocks of its own: one without an operation, or one of a suspend or resume. -/
structure Ctx where
  seq : Nat
  ctx : Nat
  run : Nat := 0
  kind : Nat := 0
  pc : Nat := 0
  stack : List Nat := []
  gp : List W32 := [0, 0, 0, 0, 0, 0, 0, 0]
  lc0 : Nat := 0
  lc1 : Nat := 0
  sts : Byte := 0
  plane : Nat := 0
  page : Nat := 0
  col : Nat := 0
  args : List Nat := [0, 0, 0]
  stage : List Nat := []
  txOpen : Bool := false
  token : Option Token := none
  op : Option Nat := none
  cws : Nat := 0
  rpt : Nat := 0
  parkedAt : Nat := 0
  wordAt : Option Nat := none
  runAt : Nat := 0
  arrayAt : Option Nat := none
  capture : List Byte := []
  deriving DecidableEq, Repr

/-- A cluster's control store (R379): the images in its two banks, byte for byte. -/
structure Cluster where
  active : Option (List Byte) := none
  standby : Option (List Byte) := none
  quiescing : Bool := false
  deriving DecidableEq, Repr

/-- An activation between its start and its swap (R152, R401): its command, the clusters that remain, those dropped and
the time it started. -/
structure Activation where
  stamp : Nat
  mask : List Nat
  dropped : List Nat
  startedAt : Nat
  deriving DecidableEq, Repr

/-- Who asked a pool for a buffer (R412): a command for a granule, a raw page or a staged sector, a move, a parity spill, a
member of a rebuild. -/
inductive BufUser where
  | write (stamp granule : Nat)
  | raw (stamp page : Nat)
  | stage (stamp sector : Nat)
  | move (stamp granule : Nat)
  | spill (sb : Nat)
  | member (rebuild m : Nat)
  deriving DecidableEq, Repr

structure BufReq where
  requester : Nat
  user : BufUser
  since : Nat
  limit : Option Nat
  deriving DecidableEq, Repr

/-- A buffer pool (R406 to R412): its READY bit, the last winner of each priority, the wait list in order, and whether
U(p) lies below the low mark. Which buffers are out stands in the pool's descriptor table (R408). -/
structure Pool where
  ready : Bool := false
  last : List Nat := [31, 31, 31, 31]
  waits : List BufReq := []
  low : Bool := false
  deriving DecidableEq, Repr

/-- A notice (R419 to R421): its kind, queue, the event's time and position, its body, its class bit, whether it is
held, its source number, the command whose completion waits for it, and the processor whose local submission it refuses without
filing (R125). -/
structure Notice where
  kind : Nat
  queue : Nat
  time : Nat
  pos : RPos
  body : List Byte
  cls : Nat
  held : Bool
  source : Nat
  cmd : Option Nat := none
  sender : Option Nat := none
  deriving DecidableEq, Repr

/-- A notice queue (R418 to R429): its three stages of 16-byte words, the ring's write and read places, its bursts not
yet acknowledged and the words of a burst being read, its pending pennant (count, first NSEQ, class mask), its waiting
held notices with their numbers, and the time its last word entered; `moved` counts the words that have left the head stage and
the ring, and `flush` is the count at which a FLUSH that waits is complete (R427). -/
structure NoticeQ where
  head : List (BitVec 128) := []
  ring : List (BitVec 128) := []
  tail : List (BitVec 128) := []
  pennant : Option (Nat × Nat × Nat) := none
  held : List (Nat × Notice) := []
  seq : Nat := 0
  ringErr : Bool := false
  ringOff : Bool := false
  ringWr : Nat := 0
  ringRd : Nat := 0
  ringWait : Nat := 0
  ringRead : Option Nat := none
  lastWord : Nat := 0
  moved : Nat := 0
  flush : Option Nat := none
  deriving DecidableEq, Repr

/-- An element of a copy-engine transfer (R431), or a register transfer: source address or fill pattern, destination, length,
swap mode and flags; the HANDLE addresses of its entries and where those stand; whether its DST entry has been read
(`paired`), whether its first access has been made (`begun`), and the handles it references (R437). -/
structure CeElem where
  fill : Bool
  src : Nat
  dst : Nat := 0
  len : Nat
  swap : Nat
  int : Bool := false
  last : Bool := false
  srcHandle : Option Nat := none
  dstHandle : Option Nat := none
  srcAt : Nat := 0
  dstAt : Nat := 0
  paired : Bool := false
  begun : Bool := false
  held : List Nat := []
  deriving DecidableEq, Repr

/-- A copy-engine channel (R430 to R443). `list` is the next list entry, `read` the source bytes read of the element in work,
`written` its bytes written; `ask` since when its next burst waits for a slot (R434); `ending` is the cause and address that the
transfer ends with, 0 for DONE. -/
structure CeChan where
  busy : Bool := false
  done : Bool := false
  err : Bool := false
  elem : Bool := false
  cause : Nat := 0
  doneBytes : Nat := 0
  errAddr : Nat := 0
  elements : Nat := 0
  ctrl : Nat := 0
  list : Option Nat := none
  cur : Option CeElem := none
  read : List Byte := []
  written : Nat := 0
  abort : Bool := false
  ask : Option Nat := none
  ending : Option (Nat × Nat) := none
  deriving DecidableEq, Repr

/-- One side, reading or writing, of the copy engine's burst slots (R434): when its next slot comes, in thirds of a ns, the slots
that each channel has had in this round, and the channel served last. -/
structure CeSide where
  next : Nat := 0
  spent : NMap Nat := []
  last : Nat := 15
  deriving DecidableEq, Repr

/-- The copy engine's burst slots (R434). -/
structure CeSlots where
  rd : CeSide := {}
  wr : CeSide := {}
  deriving DecidableEq, Repr

/-- What a memory-port request is for. -/
inductive MpUse where
  | ceRead (ch : Nat)
  | ceWrite (ch : Nat)
  | localRead (stamp : Nat)
  | localWrite (stamp : Nat)
  | ring (queue : Nat)
  deriving DecidableEq, Repr

/-- A memory-port request (R511 to R517): its write beats put so far, its write mask (none: every byte enabled), and MPn_CMD_ATTR:
bit 0 SERIAL, bit 1 STREAM, bits 3:2 URGENCY. -/
structure MpReq where
  tag : Nat
  write : Bool
  addr : Nat
  beats : Nat
  got : List Byte := []
  bad : Bool := false
  data : List Byte := []
  sent : Nat := 0
  mask : List Bool := []
  attr : Nat := 0
  use : MpUse
  deriving DecidableEq, Repr

/-- A memory port: its two credit counts, its outstanding requests, the requests that wait for credit. -/
structure MpPort where
  cmdCr : Nat := 0
  wrCr : Nat := 0
  out : List MpReq := []
  wait : List MpReq := []
  nextTag : Nat := 0
  deriving DecidableEq, Repr

/-- A coalescing group's running state (R456). `timer` holds the start time and the line count at the start. -/
structure Coal where
  isOpen : Bool := false
  flushed : Bool := false
  timer : Option (Nat × Nat) := none
  deriving DecidableEq, Repr

/-- The interrupt controller (R444 to R461). Sources are keyed: shared source i by i, private source 480 + j of
processor p by 512 + 32 p + j. -/
structure IntSt where
  cfg : NMap W32 := []
  latches : List Nat := []
  handlers : List (List (Nat × Nat)) := [[], [], [], [], [], [], [], []]
  coal : NMap Coal := []
  sleep : List Bool := [false, false, false, false, false, false, false, false]
  deriving DecidableEq, Repr

/-- A processor's bank (R122, R424, R469, R470). `prev` is its previous dictionary access: slot key, write, offset. -/
structure Proc where
  lastErr : W64 := 0
  rdLatch : W64 := 0
  wrLatch : W32 := 0
  prev : Option (Nat × Bool × Nat) := none
  nqLatch : BitVec 128 := 0
  intSel : Nat := 0
  stray : Nat := 0
  empty : Nat := 0
  lswHdr : Header := 0
  lswPay : NMap W64 := []
  lswSeq : Nat := 0
  lswResult : Nat := 0
  popWait : Option (Nat × Nat) := none
  deriving DecidableEq, Repr

/-- A DOMAIN transfer (R471, R474 to R477). `ctx`: 0-7 a processor, 8 + TAG a host-link transfer, 264 the field
network. `timedOut` marks one abandoned after its idle time, whose next frame is answered with TIMEOUT. -/
structure Xfer where
  ctx : Nat
  key : Nat
  upload : Bool
  total : Nat
  bytes : List Byte
  pos : Nat := 0
  seq : Nat := 0
  lastResp : List Byte := []
  lastAt : Nat := 0
  recSeqs : List Nat := []
  timedOut : Bool := false
  deriving DecidableEq, Repr

/-- The configuration port's answer to the last access (R469). -/
structure CfgPins where
  ready : Bool := false
  err : Bool := false
  rdata : W64 := 0
  code : Nat := 0
  deriving DecidableEq, Repr

/-- The field port (R479 to R485): its state of FN_STATUS, its allowance and when that was last brought up to date, the times
of the last firmware beat, STATUS frame and bus-off, and the last frame it sent (identifier, data). -/
structure FnSt where
  st : Nat := 0
  tokens : Nat := 0
  tokensAt : Nat := 0
  beatAt : Option Nat := none
  statusCount : Nat := 0
  statusAt : Nat := 0
  busoffAt : Nat := 0
  tx : Option (Nat × List Byte) := none
  deriving DecidableEq, Repr

/-- An event waiting in the trouble log's queue (R493). -/
structure TlEvent where
  kind : Nat
  cls : Nat
  source : Nat
  detail : Nat
  time : Nat
  pos : RPos
  srcKind : Nat := 0
  deriving DecidableEq, Repr

/-- A trouble-log record (R491). -/
structure TlRecord where
  lseq : Nat
  time : Nat
  pos : RPos
  kind : Nat
  source : Nat
  list : Nat
  delayed : Bool
  lostBefore : Bool
  firstArea : Bool
  snapFail : Nat
  count : Nat
  detail : Nat
  ids : List Nat
  values : List W64
  deriving DecidableEq, Repr

/-- The trouble log (R491 to R506). `raised` gathers the events of one command, which enter `queue` in the order of R493
when the command ends; it is empty between commands. `lastAt` is the time of the last record. -/
structure TlogSt where
  queue : List TlEvent := []
  raised : List TlEvent := []
  first : List TlRecord := []
  last : List TlRecord := []
  wrapped : Bool := false
  nextSeq : Nat := 1
  size : Nat := 64
  lost : Nat := 0
  lostBefore : Bool := false
  overwritten : Nat := 0
  lastAt : Option Nat := none
  deriving DecidableEq, Repr

/-- A pending deferred error (R144, R145): its unit, its status, and whether the failed WRITE came by a local path. -/
structure Deferred where
  unit : Nat
  status : Nat
  isLocal : Bool
  deriving DecidableEq, Repr

/-- The whole state of the block. `offered` gathers the notices of one command, which join `offers` in the order of R422
when the command ends, and `deferNew` its deferred errors, which are pending from the next cycle on; both are empty
between commands. `porLow` and `blkLow` say that PORST_N and BLKRST_N are 0 (R523). `lostAtReset` is the number of events that the last
reset lost from the event queue (R500). `zeroFrom` names the members, as (superblock, member), that were lost while no row was
open, and so are zero members already in their first lost row (R178, R196; DEDUCED, log 241). `hostCws` counts the host codewords accepted since reset (R488, STAT_WA_PM). -/
structure State where
  pending : List Instr
  build : Build
  phase : Phase
  resetPor : Bool
  porLow : Bool
  blkLow : Bool
  lostAtReset : Nat
  trefKhz : Nat
  fnclkSel : Bool
  testMode : Bool
  mbistBusy : Bool
  mbistDone : Bool
  mbistFail : Bool
  tref : Nat
  freeN : Nat
  dict : NMap W64
  mem : List Host.Cell
  modes : ModeSt
  raster : RasterSt
  orbit : OrbitSt
  streams : List Stream
  link : LinkSt
  cmds : List Cmd
  stampNext : Nat
  seqWritten : Bool
  deferred : List Deferred
  deferNew : List Deferred
  versions : List Version
  nextVer : Nat
  hostCws : Nat
  origins : List Origin
  sbs : List OpenSb
  allocReqs : List AllocReq
  walking : Bool
  running : Bool
  interimBlocks : List (Nat × BlockAddr × Nat)
  zeroFrom : List (Nat × Nat)
  stallFrom : Option Nat
  lostDies : List (Nat × Nat × Nat)
  tokens : List (Nat × List Nat)
  blockLocks : List (BlockAddr × Nat)
  pins : List (BlockAddr × Nat)
  ops : List DieOp
  nextOp : Nat
  jobs : List Job
  nextJob : Nat
  rebuilds : List Rebuild
  comet : List CometStream
  cometHeld : List CometHeld
  slotsUsed : NMap Nat
  slcOkOnce : List Nat
  codes : NMap (List Byte)
  codeErr : NMap Nat
  cal : NMap CalDie
  calLast : W64
  calSnapFrom : Option Nat
  prot : ProtSt
  chans : NMap Chan
  dies : NMap DieInfo
  clusters : NMap Cluster
  ctxs : List Ctx
  activation : Option Activation
  pools : NMap Pool
  offered : List Notice
  offers : List Notice
  nqs : NMap NoticeQ
  ce : NMap CeChan
  ceSlots : CeSlots
  ports : NMap MpPort
  ints : IntSt
  procs : NMap Proc
  xfers : List Xfer
  cfg : CfgPins
  fn : FnSt
  frozen : NMap W64
  tlog : TlogSt
  deriving DecidableEq, Repr

/-- The block right after the release of PORST_N (R36, R506, R523 to R526), SRAM being cleared: OPEN, no request
pending, the link DOWN, every object at its default. The build and the straps are the model's choice (log 1, log 2). -/
def State.reset : State where
  pending := []
  build := .rlk64
  phase := .clearing
  resetPor := true
  porLow := false
  blkLow := false
  lostAtReset := 0
  trefKhz := 100000
  fnclkSel := true
  testMode := false
  mbistBusy := false
  mbistDone := false
  mbistFail := false
  tref := 0
  freeN := 0
  dict := []
  mem := []
  modes := {}
  raster := {}
  orbit := {}
  streams := List.replicate 8 {}
  link := {}
  cmds := []
  stampNext := 1
  seqWritten := false
  deferred := []
  deferNew := []
  versions := []
  nextVer := 0
  hostCws := 0
  origins := []
  sbs := []
  allocReqs := []
  walking := false
  running := false
  interimBlocks := []
  zeroFrom := []
  stallFrom := none
  lostDies := []
  tokens := []
  blockLocks := []
  pins := []
  ops := []
  nextOp := 0
  jobs := []
  nextJob := 0
  rebuilds := []
  comet := []
  cometHeld := []
  slotsUsed := []
  slcOkOnce := []
  codes := []
  codeErr := []
  cal := []
  calLast := 0
  calSnapFrom := none
  prot := {}
  chans := []
  dies := []
  clusters := []
  ctxs := []
  activation := none
  pools := []
  offered := []
  offers := []
  nqs := []
  ce := []
  ceSlots := {}
  ports := []
  ints := {}
  procs := []
  xfers := []
  cfg := {}
  fn := {}
  frozen := []
  tlog := {}

end Sys2Proof.Machine
end

