-- ==== Sys2Proof/Machine/Bits.lean ====
section
/-!
DEFINITION. Machine/Bits.lean: bit fields, little-endian byte strings (R10, R11), sparse tables and byte-addressed
memory. Every field of a word is read as a natural number.
-/

namespace Sys2Proof.Machine

open Sys2Proof

/-- Bits lo + w − 1 : lo of a number (R10). -/
def bits (x lo w : Nat) : Nat := x / 2 ^ lo % 2 ^ w

/-- Bit `i` of a number. -/
def tbit (x i : Nat) : Bool := x / 2 ^ i % 2 == 1

/-- A number with bits lo + w − 1 : lo replaced. -/
def setBits (x lo w v : Nat) : Nat := x - bits x lo w * 2 ^ lo + v % 2 ^ w * 2 ^ lo

/-- A flag at its bit. -/
def flag (b : Bool) (i : Nat) : Nat := if b then 2 ^ i else 0

/-- A number as a 64-bit word. -/
abbrev w64 (n : Nat) : W64 := BitVec.ofNat 64 n

/-- A field of a 64-bit word. -/
def fld (x : W64) (lo w : Nat) : Nat := bits x.toNat lo w

/-- A number limited to a range. -/
def clampInt (lo hi x : Int) : Int := if x < lo then lo else if hi < x then hi else x

/-- The number a container of `n` bits holds, as a signed number (R463). -/
def signedOf (n x : Nat) : Int := if tbit x (n - 1) then (x : Int) - 2 ^ n else x

/-- A signed number in `n` bits. -/
def unsignedOf (n : Nat) (i : Int) : Nat := (i % (2 ^ n : Int)).toNat

/-- The `n` bytes of a number, least significant first (R11). -/
def leBytes : Nat → Nat → List Byte
  | 0, _ => []
  | n + 1, x => BitVec.ofNat 8 x :: leBytes n (x / 256)

/-- The number a byte string holds, least significant byte first (R11). -/
def leNat : List Byte → Nat
  | [] => 0
  | b :: bs => b.toNat + 256 * leNat bs

/-- Byte `i` of a string, 0 past its end. -/
def byteAt (bs : List Byte) (i : Nat) : Byte := bs.getD i 0

/-- `n` bytes from offset `o` of a string as a number, 0 past its end. -/
def leAt (bs : List Byte) (o n : Nat) : Nat := leNat ((List.range n).map fun i => byteAt bs (o + i))

/-- A string held to `n` bytes, zeros after its end. -/
def padTo (n : Nat) (bs : List Byte) : List Byte := bs.take n ++ List.replicate (n - bs.length) 0

/-- A string with `new` laid over it from offset `o`. -/
def overlay (bs : List Byte) (o : Nat) (new : List Byte) : List Byte :=
  padTo o bs ++ new ++ bs.drop (o + new.length)

def ceilDiv (a b : Nat) : Nat := (a + b - 1) / b

/-- A count held at its largest value. -/
def satAdd (max a b : Nat) : Nat := if a + b < max then a + b else max

/-- Some item of a list, where the block holds exactly this many. -/
def listGet {α : Type} (l : List α) (i : Nat) : Option α := l[i]?

/-- A list with item `i` changed. -/
def listUpd {α : Type} (l : List α) (i : Nat) (f : α → α) : List α :=
  match l[i]? with
  | some x => l.set i (f x)
  | none => l

/-- Stable insertion sort by a Bool order: `le a b` when a may stand before b. -/
def insertBy {α : Type} (le : α → α → Bool) (x : α) : List α → List α
  | [] => [x]
  | y :: ys => if le y x then y :: insertBy le x ys else x :: y :: ys

def sortBy {α : Type} (le : α → α → Bool) (l : List α) : List α :=
  l.foldl (fun acc x => insertBy le x acc) []

/-- The first item of the least key. -/
def minBy {α : Type} (key : α → Nat) : List α → Option α
  | [] => none
  | x :: xs =>
    match minBy key xs with
    | none => some x
    | some y => if key y < key x then some y else some x

def sumOf (l : List Nat) : Nat := l.foldl (· + ·) 0

/-- Numbers without repeats, first places kept. -/
def distinct (l : List Nat) : List Nat :=
  l.foldl (fun acc x => if acc.contains x then acc else acc ++ [x]) []

/-! ### Sparse tables -/

/-- The entry of a key. -/
def mapGet {α : Type} (m : NMap α) (k : Nat) : Option α :=
  match m with
  | [] => none
  | (k', v) :: rest => if k' == k then some v else mapGet rest k

/-- The entry of a key, or a default. -/
def mapGetD {α : Type} (m : NMap α) (k : Nat) (d : α) : α := (mapGet m k).getD d

/-- A table with one entry set; keys stay strictly rising. -/
def mapPut {α : Type} (m : NMap α) (k : Nat) (v : α) : NMap α :=
  match m with
  | [] => [(k, v)]
  | (k', v') :: rest =>
    if k' == k then (k, v) :: rest
    else if k < k' then (k, v) :: (k', v') :: rest
    else (k', v') :: mapPut rest k v

/-- A table without the entry of a key. -/
def mapDel {α : Type} (m : NMap α) (k : Nat) : NMap α := m.filter fun p => p.1 != k

/-- A table with the entry of a key changed, or made from a default. -/
def mapUpd {α : Type} (m : NMap α) (k : Nat) (d : α) (f : α → α) : NMap α := mapPut m k (f (mapGetD m k d))

/-- Strictly rising keys. -/
def keysRise {α : Type} : NMap α → Bool
  | (k, _) :: (k', v') :: rest => k < k' && keysRise ((k', v') :: rest)
  | _ => true

/-! ### Memory: byte cells in canonical form -/

/-- The canonical form: addresses strictly rising, no cell holding 0, which is what an unlisted byte reads as (log 7). -/
def Memory.wf (m : List Host.Cell) : Bool := keysRise m && m.all fun c => c.2 != 0

/-- One byte of memory; an unlisted byte reads 0 (log 7). -/
def Memory.byte (m : List Host.Cell) (a : Nat) : Byte := mapGetD m a 0

/-- The `n` bytes from address `a`. -/
def Memory.read (m : List Host.Cell) (a n : Nat) : List Byte := (List.range n).map fun i => Memory.byte m (a + i)

/-- The cells that a byte string lists from address `a`: its nonzero bytes. -/
def Memory.cells : Nat → List Byte → List Host.Cell
  | _, [] => []
  | a, b :: bs => if b == 0 then Memory.cells (a + 1) bs else (a, b) :: Memory.cells (a + 1) bs

/-- Memory with a byte string written from address `a`. -/
def Memory.write (m : List Host.Cell) (a : Nat) (bs : List Byte) : List Host.Cell :=
  m.filter (fun c => c.1 < a) ++ Memory.cells a bs ++ m.filter (fun c => a + bs.length ≤ c.1)

/-- The little-endian number of `n` bytes from address `a` (R11). -/
def Memory.num (m : List Host.Cell) (a n : Nat) : Nat := leNat (Memory.read m a n)

/-- Memory with an `n`-byte number written from address `a`. -/
def Memory.setNum (m : List Host.Cell) (a n v : Nat) : List Host.Cell := Memory.write m a (leBytes n v)

end Sys2Proof.Machine
end

