-- ==== Sys2Proof/Machine/Codec.lean ====
section
/-!
DEFINITION. Machine/Codec.lean: the block's pure computations over bytes: CRC-32C, the randomizer (R274 to R276), codeword
metadata (R270), the row arithmetic of P and Q (R180), and LDPC descriptors and encoding (R278 to R283).
-/

namespace Sys2Proof.Machine

open Sys2Proof

/-! ### CRC-32C (polynomial 0x1EDC_6F41, reflected, initial value and final XOR all ones) -/

/-- One bit step of the reflected register with 0x82F6_3B78. -/
def crcBit (c : Nat) : Nat := if c % 2 = 1 then (c / 2).xor 0x82F63B78 else c / 2

/-- One byte into the register. -/
def crcByte (c : Nat) (b : Byte) : Nat :=
  crcBit (crcBit (crcBit (crcBit (crcBit (crcBit (crcBit (crcBit (c.xor b.toNat))))))))

/-- The CRC-32C of a byte string. -/
def crc32c (bs : List Byte) : Nat := (bs.foldl crcByte 0xFFFFFFFF).xor 0xFFFFFFFF

/-! ### The randomizer -/

/-- The seed of a codeword from its PPA, bits 15:0 cleared; 0 is replaced by 1 (R274). -/
def seedOf (ppa : Nat) : Nat :=
  let c := crc32c (leBytes 8 (ppa / 65536 * 65536))
  if c = 0 then 1 else c

/-- One step of the Galois LFSR (R275). -/
def lfsrStep (s : Nat) : Nat := if s % 2 = 1 then (s / 2).xor 0x80200003 else s / 2

/-- Eight steps: the keystream byte, first output in bit 0, and the state after (R275). -/
def lfsrByte (s : Nat) : Nat × Nat :=
  (List.range 8).foldl (fun a i => (a.1 + a.2 % 2 * 2 ^ i, lfsrStep a.2)) (0, s)

/-- A payload XORed with the keystream from state `s` (R276); its own inverse. -/
def whiten : Nat → List Byte → List Byte
  | _, [] => []
  | s, b :: bs =>
    let k := lfsrByte s
    (b ^^^ BitVec.ofNat 8 k.1) :: whiten k.2 bs

/-- A payload randomized, or derandomized, with its place's seed (R276). -/
def randomize (ppa : Nat) (payload : List Byte) : List Byte := whiten (seedOf ppa) payload

/-! ### Codeword metadata (R270, R271) -/

/-- The metadata field of a data codeword. -/
def metaOf (unit lba wseq : Nat) (atomic poison : Bool) (remain : Nat) : Nat :=
  remain % 4096 * 2 ^ 104 + wseq % 2 ^ 56 * 2 ^ 48 + flag poison 46 + flag atomic 44 + unit % 16 * 2 ^ 40 + lba % 2 ^ 40

/-- The metadata of a pad codeword: PAD alone. -/
def metaPad : Nat := 2 ^ 45

def metaLba (m : Nat) : Nat := bits m 0 40
def metaUnit (m : Nat) : Nat := bits m 40 4
def metaAtomic (m : Nat) : Bool := tbit m 44
def metaPadBit (m : Nat) : Bool := tbit m 45
def metaPoison (m : Nat) : Bool := tbit m 46
def metaWseq (m : Nat) : Nat := bits m 48 56
def metaRemain (m : Nat) : Nat := bits m 104 12

/-- A payload: 4,096 user bytes and the metadata (R269). -/
def payloadOf (user : List Byte) (m : Nat) : List Byte := padTo 4096 user ++ leBytes 16 m

/-- The metadata of a payload. -/
def payloadMeta (p : List Byte) : Nat := leAt p 4096 16

/-- The user data of a payload. -/
def payloadUser (p : List Byte) : List Byte := padTo 4096 p

/-! ### Row arithmetic in GF(2^8), polynomial 0x11D, generator 2 (R180) -/

/-- The product with g = 0x02. -/
def gfDouble (a : Nat) : Nat := if a < 128 then 2 * a else ((2 * a).xor 0x11D) % 256

/-- The product of two bytes; `k` counts the bits of b left. -/
def gfMulAux : Nat → Nat → Nat → Nat
  | 0, _, _ => 0
  | k + 1, a, b => (if b % 2 = 1 then a else 0).xor (gfMulAux k (gfDouble a) (b / 2))

def gfMul (a b : Nat) : Nat := gfMulAux 8 a b

def gfPow (a : Nat) : Nat → Nat
  | 0 => 1
  | n + 1 => gfMul a (gfPow a n)

/-- The inverse: a^254. -/
def gfInv (a : Nat) : Nat := gfPow a 254

/-- g^n. -/
def gfGen (n : Nat) : Nat := gfPow 2 n

/-- A payload times a field element. -/
def gfScale (c : Nat) (p : List Byte) : List Byte := p.map fun b => BitVec.ofNat 8 (gfMul c b.toNat)

/-- Two payloads added; a missing end counts as zeros. -/
def xorBytes : List Byte → List Byte → List Byte
  | [], ys => ys
  | xs, [] => xs
  | x :: xs, y :: ys => (x ^^^ y) :: xorBytes xs ys

/-- P over the members' payloads (R180). -/
def parityP (ds : List (Nat × List Byte)) : List Byte := ds.foldl (fun acc d => xorBytes acc d.2) []

/-- Q over the members' payloads: the sum of g^m · D_m (R180). -/
def parityQ (ds : List (Nat × List Byte)) : List Byte :=
  ds.foldl (fun acc d => xorBytes acc (gfScale (gfGen d.1) d.2)) []

/-- D_x from P ⊕ P' (R180). -/
def recoverOneP (p p' : List Byte) : List Byte := xorBytes p p'

/-- D_x = g^(−x) · (Q ⊕ Q') (R180). -/
def recoverOneQ (x : Nat) (q q' : List Byte) : List Byte := gfScale (gfInv (gfGen x)) (xorBytes q q')

/-- The factors A and B of R180 for two lost data members x < y. -/
def recoverA (x y : Nat) : Nat := gfMul (gfGen (y - x)) (gfInv ((gfGen (y - x)).xor 1))
def recoverB (x y : Nat) : Nat := gfMul (gfInv (gfGen x)) (gfInv ((gfGen (y - x)).xor 1))

/-- D_x of two lost data members x < y (R180). -/
def recoverTwoX (x y : Nat) (pp qq : List Byte) : List Byte :=
  xorBytes (gfScale (recoverA x y) pp) (gfScale (recoverB x y) qq)

/-- D_y of two lost data members (R180). -/
def recoverTwoY (x y : Nat) (pp qq : List Byte) : List Byte := xorBytes pp (recoverTwoX x y pp qq)

/-! ### LDPC descriptors (R278 to R281) -/

def descZ (d : List Byte) : Nat := leAt d 8 2
def descMB (d : List Byte) : Nat := leAt d 10 2
def descNB (d : List Byte) : Nat := leAt d 12 2
def descEntries (d : List Byte) : Nat := leAt d 14 2
def descShorten (d : List Byte) : Nat := leAt d 16 4
def descPuncture (d : List Byte) : Nat := leAt d 20 4
def descStored (d : List Byte) : Nat := leAt d 24 2
def descPerPage (d : List Byte) : Nat := leAt d 26 1
def descHardIter (d : List Byte) : Nat := leAt d 28 1
def descSoftIter (d : List Byte) : Nat := leAt d 29 1
def descTag (d : List Byte) : Nat := leAt d 32 8

/-- The entries as words (R279). -/
def descWords (d : List Byte) : List Nat := (List.range (descEntries d)).map fun i => leAt d (64 + 4 * i) 4

def entryRow (e : Nat) : Nat := bits e 0 9
def entryCol (e : Nat) : Nat := bits e 9 10
def entryShift (e : Nat) : Nat := bits e 19 8

/-- Entries strictly ascending by ROW, then COL (R279). -/
def entriesRise : List Nat → Bool
  | a :: b :: rest =>
    (entryRow a < entryRow b || (entryRow a == entryRow b && entryCol a < entryCol b)) && entriesRise (b :: rest)
  | _ => true

/-- The check of R281 that an image fails first; 0 when it passes all. `allocOn` is the allocator's ENABLE. -/
def descCheck (d : List Byte) (allocOn : Bool) : Nat :=
  let z := descZ d
  let mb := descMB d
  let nb := descNB d
  let es := descWords d
  let kb := nb - mb
  if leAt d 0 4 != 0x43444C52 || leAt d 4 2 != 1 then 1
  else if leAt d 60 4 != crc32c (d.take 60 ++ (d.drop 64).take (4 * descEntries d)) then 2
  else if d.length != 64 + 4 * descEntries d then 3
  else if !([32, 64, 128, 256].contains z) || mb < 1 || 288 < mb || nb < mb + 1 || 800 < nb
      || descEntries d < 1 || 4096 < descEntries d
      || z ≤ descShorten d || z ≤ descPuncture d || !([3, 4].contains (descPerPage d))
      || descHardIter d < 1 || 63 < descHardIter d || descSoftIter d < 1 || 63 < descSoftIter d
      || leAt d 6 2 != 0 || leAt d 27 1 != 0 || leAt d 30 2 != 0 || leAt d 40 20 != 0 then 4
  else if kb * z != 32896 + descShorten d
      || nb * z != 8 * descStored d + descShorten d + descPuncture d then 5
  else if !entriesRise es || es.any (fun e => mb ≤ entryRow e || nb ≤ entryCol e || z ≤ entryShift e || 2 ^ 27 ≤ e) then 6
  else if (List.range mb).any (fun r => let n := (es.filter fun e => entryRow e == r).length; n < 2 || 64 < n)
      || (List.range nb).any (fun c => let n := (es.filter fun e => entryCol e == c).length; n < 1 || 16 < n) then 7
  else if (List.range mb).any (fun j =>
      !(es.any fun e => entryRow e == j && entryCol e == kb + j && entryShift e == 0)
      || es.any fun e => entryCol e == kb + j && entryRow e < j) then 8
  else if allocOn then 9
  else 0

/-- Bit `t` of a byte string (R273). -/
def bitOf (bs : List Byte) (t : Nat) : Bool := tbit (byteAt bs (t / 8)).toNat (t % 8)

/-- Bits packed into bytes, bit t in bit (t mod 8) of byte t / 8 (R273). -/
def packBits (bs : List Bool) : List Byte :=
  (List.range (ceilDiv bs.length 8)).map fun i =>
    BitVec.ofNat 8 (sumOf ((List.range 8).map fun j => flag (bs.getD (8 * i + j) false) j))

/-- Row i of circulant row r of H times the mother word x: the parity of the bits the row picks (R280). -/
def checkRow (es : List Nat) (z r i : Nat) (x : Nat → Bool) : Bool :=
  es.foldl (fun acc e => if entryRow e == r then acc != x (entryCol e * z + (i + entryShift e) % z) else acc) false

/-- The parity bits in mother order, by substitution row after row: check 8 of R281 makes row j determine parity bit j
(R283). -/
def parityBits (d : List Byte) (payload : List Byte) : List Bool :=
  let z := descZ d
  let kb := descNB d - descMB d
  let es := descWords d
  (List.range (descMB d * z)).foldl (fun acc j =>
    let word : Nat → Bool := fun n =>
      if n < 32896 then bitOf payload n else if n < kb * z then false else acc.getD (n - kb * z) false
    acc ++ [checkRow es z (j / z) (j % z) word]) []

/-- A randomized payload encoded: its bits, then the stored parity bits (R280, R283). -/
def encodeCodeword (d : List Byte) (payload : List Byte) : List Byte :=
  padTo 4112 payload ++ packBits ((parityBits d payload).take (descMB d * descZ d - descPuncture d))

/-- The checks of H that a mother word leaves unsatisfied (R285, R287). -/
def syndromeWeight (d : List Byte) (word : Nat → Bool) : Nat :=
  let z := descZ d
  let es := descWords d
  ((List.range (descMB d * z)).filter fun j => checkRow es z (j / z) (j % z) word).length

/-! ### Decoding (R284 to R287) -/

/-- What stands at a mother position (R280): a stored bit, a known zero, or a bit that is not stored. -/
inductive MotherBit where
  | stored (t : Nat)
  | shortened
  | punctured
  deriving DecidableEq, Repr

def motherBit (d : List Byte) (n : Nat) : MotherBit :=
  let info := (descNB d - descMB d) * descZ d
  if n < 32896 then .stored n
  else if n < info then .shortened
  else if n - info < descMB d * descZ d - descPuncture d then .stored (32896 + (n - info))
  else .punctured

/-- The magnitude of LLR_MAG_c for a hard decode (0) or the first or second soft step, by confidence (R286). -/
def llrMag (mags soft q : Nat) : Nat :=
  match soft with
  | 0 => bits mags 0 8
  | 1 => bits mags (8 * (1 + q)) 8
  | _ => bits mags (8 * (3 + q)) 8

/-- The confidence of stored bit `t`: bit t of each confidence data-out, the first one the least significant (R286; their order: DESIGN
CHOICE, log 251). `data` is the hard bits and then the confidence bits, `len` bytes each. -/
def confidence (len soft : Nat) (data : List Byte) (t : Nat) : Nat :=
  sumOf ((List.range soft).map fun i => flag (bitOf (data.drop ((i + 1) * len)) t) i)

/-- λ = (1 − 2h) × M, saturated to −31 to +31 (R284). -/
def llrOf (m : Nat) (h : Bool) : Int := clampInt (-31) 31 ((1 - 2 * (if h then 1 else 0)) * (m : Int))

/-- The log-likelihood ratios that a decode starts from, in mother order: +31 for a known zero, 0 for a bit that is not stored
(R284). -/
def llrs (d : List Byte) (mags soft : Nat) (data : List Byte) : List Int :=
  (List.range (descNB d * descZ d)).map fun n => match motherBit d n with
    | .stored t => llrOf (llrMag mags soft (confidence (descStored d) soft data t)) (bitOf data t)
    | .shortened => 31
    | .punctured => 0

/-- The hard input of a decode: a bit that is not stored counts as 0 (DESIGN CHOICE, log 251). -/
def hardBit (d data : List Byte) (n : Nat) : Bool :=
  match motherBit d n with
  | .stored t => bitOf data t
  | _ => false

/-- What one decode attempt gives: whether every parity check of H is satisfied, the decoded randomized payload, the initial syndrome
weight, the ones count of the sensed payload bits, and the payload bits corrected from 0 to 1 and from 1 to 0 (R285, R287). -/
structure DecodeResult where
  satisfied : Bool
  payload : List Byte := []
  syndrome : Nat := 0
  ones : Nat := 0
  corrected01 : Nat := 0
  corrected10 : Nat := 0
  deriving DecidableEq, Repr

/-- A decode of sensed data with a descriptor: at most HARD_ITER iterations for a hard decode, SOFT_ITER for a soft one; the known zeros are
zero (R284, R285, R287). -/
def decodeData (d : List Byte) (mags soft : Nat) (data : List Byte) : DecodeResult :=
  let out := Config.decoder (if soft = 0 then descHardIter d else descSoftIter d) d (llrs d mags soft data)
  let word (n : Nat) : Bool := motherBit d n != .shortened && out.getD n false
  let payload := List.range 32896
  { satisfied := syndromeWeight d word == 0, payload := packBits (payload.map word)
    syndrome := syndromeWeight d (hardBit d data), ones := (payload.filter (bitOf data)).length
    corrected01 := (payload.filter fun t => !(bitOf data t) && word t).length
    corrected10 := (payload.filter fun t => bitOf data t && !(word t)).length }

end Sys2Proof.Machine
end

