-- ==== Sys2Proof/Machine/Objects.lean ====
section
/-!
DEFINITION. Machine/Objects.lean: the object dictionary as a table (R462, R464, R486): one row for each object or row of
like objects, with its first address (index × 256 + subindex), type, access attributes, reset default, permitted range
and the bits that are not reserved. The rows follow the object tables of the chapters; each names its rule.
-/

namespace Sys2Proof.Machine

open Sys2Proof

/-- The object types of R462. -/
inductive OTy where
  | bool | u8 | u16 | u32 | u64 | i8 | i16 | i32 | time64 | raster | bits32 | bits64 | domain
  deriving DecidableEq, Repr

/-- Bytes of a type (R462); a DOMAIN has no fixed size. -/
def OTy.bytes : OTy → Nat
  | .bool | .u8 | .i8 => 1
  | .u16 | .i16 => 2
  | .u32 | .i32 | .bits32 => 4
  | .u64 | .time64 | .raster | .bits64 => 8
  | .domain => 0

/-- The signed types (R463). -/
def OTy.signed : OTy → Bool
  | .i8 | .i16 | .i32 => true
  | _ => false

/-- The base attributes of R464. -/
inductive OAcc where
  | ro | rw | wo | rwb | rws
  deriving DecidableEq, Repr

/-- A row of the dictionary: `count` like objects at successive subindices, repeated at `reps` successive indices. -/
structure Obj where
  key : Nat
  ty : OTy
  acc : OAcc
  count : Nat := 1
  reps : Nat := 1
  loc : Bool := false
  fnw : Bool := false
  w1c : Bool := false
  banked : Bool := false
  dflt : W64 := 0
  step : W64 := 0
  lo : Nat := 0
  hi : Nat := 0xFFFFFFFFFFFFFFFF
  mult : Nat := 1
  mask : W64 := 0xFFFFFFFFFFFFFFFF
  deriving DecidableEq, Repr

/-- The address of object `i` of the row at repetition `r`. -/
def Obj.at (o : Obj) (i : Nat := 0) (r : Nat := 0) : Nat := o.key + 256 * r + i

/-- R26: 0x1100:01. -/
def Obj.MODE_CURRENT : Obj := { key := 0x110001, ty := .u8, acc := .ro, dflt := 1 }
/-- R26: 0x1100:02. -/
def Obj.MODE_REQUEST : Obj := { key := 0x110002, ty := .u8, acc := .rw, dflt := 1, lo := 0, hi := 7 }
/-- R26: 0x1100:03. -/
def Obj.MODE_STATUS : Obj := { key := 0x110003, ty := .bits32, acc := .ro, dflt := 0x00000001 }
/-- R26: 0x1100:04. -/
def Obj.MODE_BEFORE_PARK : Obj := { key := 0x110004, ty := .u8, acc := .ro, dflt := 1 }
/-- R26: 0x1100:05. -/
def Obj.MODE_CHANGE_POS : Obj := { key := 0x110005, ty := .raster, acc := .ro }
/-- R26: 0x1100:06. -/
def Obj.MODE_CHANGE_TIME : Obj := { key := 0x110006, ty := .time64, acc := .ro }
/-- R26: 0x1100:07. -/
def Obj.MODE_CHANGE_COUNT : Obj := { key := 0x110007, ty := .u32, acc := .ro }
/-- R26: 0x1100:08. -/
def Obj.BURST_EXIT_FREE : Obj := { key := 0x110008, ty := .u32, acc := .rw, dflt := 64 }
/-- R26: 0x1100:09. -/
def Obj.BURST_ENTRY_FREE : Obj := { key := 0x110009, ty := .u32, acc := .rw, dflt := 256 }
/-- R65: 0x1300:01. -/
def Obj.RAS_POSITION : Obj := { key := 0x130001, ty := .raster, acc := .ro }
/-- R65: 0x1300:02. -/
def Obj.RAS_STATUS : Obj := { key := 0x130002, ty := .bits32, acc := .ro, dflt := 0x00000002 }
/-- R65: 0x1300:03. -/
def Obj.RAS_EPOCH_COUNT : Obj := { key := 0x130003, ty := .u64, acc := .ro }
/-- R65: 0x1300:04. -/
def Obj.NEW_TAKE : Obj := { key := 0x130004, ty := .u8, acc := .wo, fnw := true, lo := 1, hi := 1 }
/-- R65: 0x1300:05. -/
def Obj.RAS_FRAME_NS : Obj := { key := 0x130005, ty := .u32, acc := .ro }
/-- R65: 0x1300:06. -/
def Obj.RAS_LINES : Obj := { key := 0x130006, ty := .u16, acc := .ro }
/-- R65: 0x1300:07. -/
def Obj.RAS_NUMBER_SRC : Obj := { key := 0x130007, ty := .bits32, acc := .rw, mask := 0x3 }
/-- R65: 0x1300:08. -/
def Obj.RAS_LOSS_FRAMES : Obj := { key := 0x130008, ty := .u8, acc := .rw, dflt := 2, lo := 1, hi := 16 }
/-- R65: 0x1300:09. -/
def Obj.VRAS_FRAME_NS : Obj := { key := 0x130009, ty := .u32, acc := .rw, dflt := 41666667, lo := 100000, hi := 4000000000 }
/-- R65: 0x1300:0A. -/
def Obj.VRAS_LINES : Obj := { key := 0x13000a, ty := .u16, acc := .rw, dflt := 1000, lo := 1, hi := 65535 }
/-- R65: 0x1300:0B. -/
def Obj.VRAS_HOLD : Obj := { key := 0x13000b, ty := .bool, acc := .rw, dflt := 1, lo := 0, hi := 1 }
/-- R65: 0x1300:0C. -/
def Obj.TICK_SOURCE : Obj := { key := 0x13000c, ty := .u8, acc := .rw, lo := 0, hi := 2 }
/-- R65: 0x1300:0D. -/
def Obj.RAS_STROBE_ERR : Obj := { key := 0x13000d, ty := .u32, acc := .ro }
/-- R65: 0x1300:0E. -/
def Obj.RAS_FRAME_SKIP : Obj := { key := 0x13000e, ty := .u32, acc := .ro }
/-- R65: 0x1300:10. -/
def Obj.ORBIT_ACTIVE : Obj := { key := 0x130010, ty := .domain, acc := .ro }
/-- R65: 0x1300:11. -/
def Obj.ORBIT_STANDBY : Obj := { key := 0x130011, ty := .domain, acc := .rw }
/-- R65: 0x1300:12. -/
def Obj.ORBIT_MANUAL : Obj := { key := 0x130012, ty := .bool, acc := .rw, lo := 0, hi := 1 }
/-- R65: 0x1300:13. -/
def Obj.ORBIT_UTIL_MAX : Obj := { key := 0x130013, ty := .u8, acc := .rw, dflt := 208, lo := 64, hi := 240 }
/-- R65: 0x1300:14. -/
def Obj.ORBIT_WAIT_MAX_NS : Obj := { key := 0x130014, ty := .u32, acc := .rw, dflt := 250000 }
/-- R65: 0x1300:15. -/
def Obj.RASTER_RATE_CAP : Obj := { key := 0x130015, ty := .u32, acc := .rw, dflt := 128000 }
/-- R65: 0x1300:16. -/
def Obj.BUDGET_HOLD_FRAMES : Obj := { key := 0x130016, ty := .u8, acc := .rw, dflt := 2, lo := 1, hi := 8 }
/-- R65: 0x1300:17. -/
def Obj.ORBIT_GENERATION : Obj := { key := 0x130017, ty := .u32, acc := .ro }
/-- R65: 0x1300:18. -/
def Obj.ORBIT_LATE : Obj := { key := 0x130018, ty := .u32, acc := .ro }
/-- R65: 0x1300:19. -/
def Obj.ORBIT_TBERS_NS : Obj := { key := 0x130019, ty := .u32, acc := .rw }
/-- R65: 0x1300:20–24. -/
def Obj.ORBIT_TPROG_C : Obj := { key := 0x130020, ty := .u32, acc := .rw, count := 5 }
/-- R65: 0x1300:30–37. -/
def Obj.STREAM_ROWS : Obj := { key := 0x130030, ty := .u16, acc := .ro, count := 8 }
/-- R65: 0x1300:38–3F. -/
def Obj.STREAM_CHARGED : Obj := { key := 0x130038, ty := .u32, acc := .ro, count := 8 }
/-- R95: 0x1500:01. -/
def Obj.HL_STATUS : Obj := { key := 0x150001, ty := .bits32, acc := .ro }
/-- R95: 0x1500:02. -/
def Obj.LINK_CRC_EN : Obj := { key := 0x150002, ty := .bool, acc := .rw, dflt := 1, lo := 0, hi := 1 }
/-- R95: 0x1500:03. -/
def Obj.XRDY_TIMEOUT_NS : Obj := { key := 0x150003, ty := .u32, acc := .rw, dflt := 10000000, lo := 10000, hi := 1000000000 }
/-- R95: 0x1500:04. -/
def Obj.XRDY_WINDOW_MAX : Obj := { key := 0x150004, ty := .u32, acc := .rw, dflt := 1048576, lo := 16384, hi := 1048576, mult := 4096 }
/-- R95: 0x1500:05. -/
def Obj.XRDY_AHEAD : Obj := { key := 0x150005, ty := .u8, acc := .rw, dflt := 4, lo := 1, hi := 16 }
/-- R95: 0x1500:06. -/
def Obj.HL_RX_VC0 : Obj := { key := 0x150006, ty := .u32, acc := .ro, dflt := 256 }
/-- R95: 0x1500:07. -/
def Obj.HL_RX_VC1 : Obj := { key := 0x150007, ty := .u32, acc := .ro, dflt := 4096 }
/-- R95: 0x1500:08. -/
def Obj.HL_TX_VC0 : Obj := { key := 0x150008, ty := .u32, acc := .ro }
/-- R95: 0x1500:09. -/
def Obj.HL_TX_VC1 : Obj := { key := 0x150009, ty := .u32, acc := .ro }
/-- R95: 0x1500:0A. -/
def Obj.HL_WINDOWS_OPEN : Obj := { key := 0x15000a, ty := .u16, acc := .ro }
/-- R95: 0x1500:0B. -/
def Obj.HL_STALL_NS : Obj := { key := 0x15000b, ty := .u32, acc := .rw, dflt := 100000000, lo := 1000000, hi := 4000000000 }
/-- R95: 0x1500:0C. -/
def Obj.HL_LAST_BAD : Obj := { key := 0x15000c, ty := .u64, acc := .ro }
/-- R95: 0x1500:0D. -/
def Obj.HL_LINK_UPS : Obj := { key := 0x15000d, ty := .u32, acc := .ro }
/-- R95: 0x1500:11–20. -/
def Obj.HL_ERR : Obj := { key := 0x150011, ty := .u32, acc := .ro, count := 16 }
/-- R99: 0x1500:40–7F. -/
def Obj.QUEUE_CFG : Obj := { key := 0x150040, ty := .bits32, acc := .rw, count := 64, loc := true, dflt := 0x00080011, mask := 0xff001f }
/-- R99: 0x1500:80–BF. -/
def Obj.QUEUE_DEPTH : Obj := { key := 0x150080, ty := .u16, acc := .ro, count := 64 }
/-- R118: 0x14u0:01. -/
def Obj.UNIT_CTRL : Obj := { key := 0x140001, ty := .bits32, acc := .rw, reps := 16, dflt := 0x00050400, mask := 0xffff01 }
/-- R118: 0x14u0:02. -/
def Obj.UNIT_CAPACITY : Obj := { key := 0x140002, ty := .u64, acc := .rw, reps := 16, lo := 1, hi := 1099511627776 }
/-- R118: 0x14u0:03. -/
def Obj.UNIT_MAP_BASE : Obj := { key := 0x140003, ty := .u64, acc := .rw, reps := 16, mult := 4096 }
/-- R118: 0x14u0:04. -/
def Obj.UNIT_STATE : Obj := { key := 0x140004, ty := .u8, acc := .ro, reps := 16 }
/-- R118: 0x14u0:05. -/
def Obj.UNIT_CLASS_MASK : Obj := { key := 0x140005, ty := .bits32, acc := .rw, reps := 16, dflt := 0x00000007, mask := 0x1f }
/-- R118: 0x14u0:06. -/
def Obj.UNIT_WCACHE_LIMIT : Obj := { key := 0x140006, ty := .u32, acc := .rw, reps := 16, dflt := 268435456, lo := 16777216, hi := 4294963200 }
/-- R118: 0x14u0:07. -/
def Obj.UNIT_VALID_SECTORS : Obj := { key := 0x140007, ty := .u64, acc := .rw, reps := 16 }
/-- R118: 0x14u0:08. -/
def Obj.UNIT_OUTSTANDING : Obj := { key := 0x140008, ty := .u16, acc := .ro, reps := 16 }
/-- R122: 0x1500:D0–D3. -/
def Obj.LSW_HDR : Obj := { key := 0x1500d0, ty := .u64, acc := .rw, count := 4, loc := true, banked := true }
/-- R122: 0x1500:D4–EB. -/
def Obj.LSW_PAY : Obj := { key := 0x1500d4, ty := .u64, acc := .rw, count := 24, loc := true, banked := true }
/-- R122: 0x1500:EC. -/
def Obj.LSW_GO : Obj := { key := 0x1500ec, ty := .u8, acc := .wo, loc := true, banked := true, lo := 1, hi := 1 }
/-- R122: 0x1500:ED. -/
def Obj.LSW_STATUS : Obj := { key := 0x1500ed, ty := .bits32, acc := .ro, loc := true, banked := true }
/-- R122: 0x1500:EE. -/
def Obj.LSW_OUTSTANDING : Obj := { key := 0x1500ee, ty := .u16, acc := .ro, loc := true, banked := true }
/-- R160: 0x1500:F0. -/
def Obj.ORD_STAMP_NEXT : Obj := { key := 0x1500f0, ty := .u64, acc := .ro, dflt := 1 }
/-- R160: 0x1500:F1. -/
def Obj.ORD_WRITE_SEQ : Obj := { key := 0x1500f1, ty := .u64, acc := .rw, mask := 0xffffffffffffff }
/-- R160: 0x1500:F2. -/
def Obj.REPLAY_FROM_SEQ : Obj := { key := 0x1500f2, ty := .u64, acc := .rw, mask := 0xffffffffffffff }
/-- R160: 0x1500:F3. -/
def Obj.ORD_LOCKS_USED : Obj := { key := 0x1500f3, ty := .u16, acc := .ro }
/-- R160: 0x1500:F4. -/
def Obj.ORD_LOCK_WAITS : Obj := { key := 0x1500f4, ty := .u32, acc := .ro }
/-- R160: 0x1500:F5. -/
def Obj.PARK_RESTARTS : Obj := { key := 0x1500f5, ty := .u32, acc := .ro }
/-- R160: 0x14u0:30. -/
def Obj.UNIT_DEFER_UNC : Obj := { key := 0x140030, ty := .u32, acc := .ro, reps := 16 }
/-- R160: 0x14u0:31. -/
def Obj.UNIT_DEFER_EXH : Obj := { key := 0x140031, ty := .u32, acc := .ro, reps := 16 }
/-- R160: 0x14u0:32. -/
def Obj.UNIT_DEFER_FULL : Obj := { key := 0x140032, ty := .u32, acc := .ro, reps := 16 }
/-- R219: 0x1600:01. -/
def Obj.LEDGER_BASE : Obj := { key := 0x160001, ty := .u64, acc := .rw, mult := 4096 }
/-- R219: 0x1600:02. -/
def Obj.LEDGER_PLANES : Obj := { key := 0x160002, ty := .u8, acc := .ro }
/-- R219: 0x1600:03. -/
def Obj.LEDGER_BLOCKS : Obj := { key := 0x160003, ty := .u16, acc := .ro }
/-- R219: 0x1600:04. -/
def Obj.SB_BASE : Obj := { key := 0x160004, ty := .u64, acc := .rw, mult := 4096 }
/-- R219: 0x1600:05. -/
def Obj.SB_COUNT : Obj := { key := 0x160005, ty := .u32, acc := .rw }
/-- R219: 0x1600:06. -/
def Obj.ALLOC_CTRL : Obj := { key := 0x160006, ty := .bits32, acc := .rw, dflt := 0x00000006, mask := 0x7 }
/-- R219: 0x1600:07. -/
def Obj.ALLOC_STATUS : Obj := { key := 0x160007, ty := .bits32, acc := .ro }
/-- R219: 0x1600:08. -/
def Obj.MAP_SAFE_SEQ : Obj := { key := 0x160008, ty := .u64, acc := .ro }
/-- R219: 0x1600:09. -/
def Obj.MAP_PERSISTED_SEQ : Obj := { key := 0x160009, ty := .u64, acc := .rw }
/-- R219: 0x1600:0A. -/
def Obj.SPARE_LOW_PM : Obj := { key := 0x16000a, ty := .u16, acc := .rw, dflt := 40, lo := 1, hi := 1000 }
/-- R219: 0x1600:0B. -/
def Obj.SPARE_CRIT_PM : Obj := { key := 0x16000b, ty := .u16, acc := .rw, dflt := 10, lo := 1, hi := 1000 }
/-- R219: 0x1600:0C. -/
def Obj.FULL_RESERVE_MIB : Obj := { key := 0x16000c, ty := .u32, acc := .rw, dflt := 1024 }
/-- R219: 0x1600:0D. -/
def Obj.SB_ZERO_MAX : Obj := { key := 0x16000d, ty := .u8, acc := .rw, dflt := 2, lo := 0, hi := 4 }
/-- R219: 0x1600:0E. -/
def Obj.MAP_UNDERLAY : Obj := { key := 0x16000e, ty := .u64, acc := .rw }
/-- R219: 0x1600:0F. -/
def Obj.ALLOC_READY_MIN : Obj := { key := 0x16000f, ty := .u8, acc := .rw, dflt := 4, lo := 1, hi := 32 }
/-- R219: 0x1600:10–14. -/
def Obj.PE_LIMIT_C : Obj := { key := 0x160010, ty := .u32, acc := .rw, count := 5 }
/-- R219: 0x1600:18. -/
def Obj.WEAK_STEP : Obj := { key := 0x160018, ty := .u8, acc := .rw, dflt := 4 }
/-- R219: 0x1600:19. -/
def Obj.REFRESH_STEP : Obj := { key := 0x160019, ty := .u8, acc := .rw, dflt := 6 }
/-- R219: 0x1600:1A–1C. -/
def Obj.SPARE_PM_F : Obj := { key := 0x16001a, ty := .u16, acc := .ro, count := 3, dflt := 65535 }
/-- R219: 0x1600:1D. -/
def Obj.SLC_POOL_FREE : Obj := { key := 0x16001d, ty := .u32, acc := .ro }
/-- R219: 0x1600:20. -/
def Obj.BLOCK_RETIRE : Obj := { key := 0x160020, ty := .u64, acc := .wo }
/-- R219: 0x1600:21. -/
def Obj.BLOCK_CLASS_SET : Obj := { key := 0x160021, ty := .u64, acc := .wo }
/-- R219: 0x1600:22. -/
def Obj.GROWN_BAD_COUNT : Obj := { key := 0x160022, ty := .u32, acc := .ro }
/-- R219: 0x1600:23. -/
def Obj.DECLINED_COUNT : Obj := { key := 0x160023, ty := .u32, acc := .ro }
/-- R219: 0x1600:24. -/
def Obj.RETIRED_COUNT : Obj := { key := 0x160024, ty := .u32, acc := .ro }
/-- R219: 0x1600:28. -/
def Obj.FAULT_STALL_LAST_NS : Obj := { key := 0x160028, ty := .u32, acc := .ro }
/-- R219: 0x1600:29. -/
def Obj.FAULT_STALL_MAX_NS : Obj := { key := 0x160029, ty := .u32, acc := .ro }
/-- R220: 0x1700:01. -/
def Obj.PAR_STORE_BYTES : Obj := { key := 0x170001, ty := .u32, acc := .ro }
/-- R220: 0x1700:02. -/
def Obj.PAR_IN_USE : Obj := { key := 0x170002, ty := .u32, acc := .ro }
/-- R220: 0x1700:03. -/
def Obj.PAR_SPILLS : Obj := { key := 0x170003, ty := .u32, acc := .ro }
/-- R220: 0x1700:04. -/
def Obj.PAR_SPILL_NS : Obj := { key := 0x170004, ty := .u32, acc := .rw, dflt := 2000000, lo := 10000, hi := 1000000000 }
/-- R220: 0x1700:05. -/
def Obj.PAR_INTERIM : Obj := { key := 0x170005, ty := .u32, acc := .ro }
/-- R220: 0x1700:06. -/
def Obj.PAR_REBUILT_CW : Obj := { key := 0x170006, ty := .u64, acc := .ro }
/-- R221: 0x14u0:10. -/
def Obj.UNIT_FREE_MIB : Obj := { key := 0x140010, ty := .u32, acc := .ro, reps := 16 }
/-- R221: 0x14u0:11. -/
def Obj.UNIT_OPEN_SB : Obj := { key := 0x140011, ty := .u16, acc := .ro, reps := 16 }
/-- R221: 0x14u0:12. -/
def Obj.UNIT_UNPROTECTED_SB : Obj := { key := 0x140012, ty := .u16, acc := .ro, reps := 16 }
/-- R253: 0x2200:E0. -/
def Obj.COMET_CTRL : Obj := { key := 0x2200e0, ty := .bits32, acc := .rw, dflt := 0x00000021, mask := 0xf1 }
/-- R253: 0x2200:E1. -/
def Obj.COMET_DEPTH_KIB : Obj := { key := 0x2200e1, ty := .u32, acc := .rw, dflt := 65536, lo := 64, hi := 65536 }
/-- R253: 0x2200:E2. -/
def Obj.COMET_STREAMS : Obj := { key := 0x2200e2, ty := .u8, acc := .ro }
/-- R253: 0x2200:E3. -/
def Obj.COMET_HELD_BYTES : Obj := { key := 0x2200e3, ty := .u64, acc := .ro }
/-- R253: 0x2200:E4. -/
def Obj.COMET_CLAIMED : Obj := { key := 0x2200e4, ty := .u64, acc := .ro }
/-- R253: 0x2200:E5. -/
def Obj.COMET_DISCARDED : Obj := { key := 0x2200e5, ty := .u64, acc := .ro }
/-- R254: 0x21nn:01. -/
def Obj.MB_CTRL : Obj := { key := 0x210001, ty := .bits32, acc := .rw, reps := 64, mask := 0xf }
/-- R254: 0x21nn:02. -/
def Obj.MB_STATUS : Obj := { key := 0x210002, ty := .bits32, acc := .ro, reps := 64 }
/-- R254: 0x21nn:03. -/
def Obj.MB_GENERATION : Obj := { key := 0x210003, ty := .u32, acc := .ro, reps := 64 }
/-- R254: 0x21nn:04. -/
def Obj.MB_HANDOVER_POS : Obj := { key := 0x210004, ty := .raster, acc := .ro, reps := 64 }
/-- R254: 0x21nn:05. -/
def Obj.MB_HANDOVER_TIME : Obj := { key := 0x210005, ty := .time64, acc := .ro, reps := 64 }
/-- R254: 0x21nn:10–1F. -/
def Obj.MB_DQ_TRIM : Obj := { key := 0x210010, ty := .u64, acc := .rws, count := 16, reps := 64 }
/-- R254: 0x21nn:20–2F. -/
def Obj.MB_STROBE_TRIM : Obj := { key := 0x210020, ty := .u32, acc := .rws, count := 16, reps := 64, mask := 0xffffff }
/-- R254: 0x21nn:30–3F. -/
def Obj.MB_RL_GEN : Obj := { key := 0x210030, ty := .u8, acc := .rws, count := 16, reps := 64, lo := 0, hi := 1 }
/-- R266: 0x20nn:01. -/
def Obj.CH_STATUS : Obj := { key := 0x200001, ty := .bits32, acc := .ro, reps := 64 }
/-- R266: 0x20nn:02. -/
def Obj.CH_CTRL : Obj := { key := 0x200002, ty := .bits32, acc := .rw, reps := 64, mask := 0x3 }
/-- R266: 0x20nn:03. -/
def Obj.CH_RATE_MT : Obj := { key := 0x200003, ty := .u16, acc := .ro, reps := 64 }
/-- R266: 0x20nn:04. -/
def Obj.CH_RATE_MAX : Obj := { key := 0x200004, ty := .u16, acc := .rw, reps := 64, dflt := 4800, lo := 100, hi := 4800 }
/-- R266: 0x20nn:05. -/
def Obj.CH_PHY_LAT : Obj := { key := 0x200005, ty := .u8, acc := .rw, reps := 64, loc := true, dflt := 16, lo := 4, hi := 64 }
/-- R266: 0x20nn:06. -/
def Obj.CH_TIMEOUT_PCT : Obj := { key := 0x200006, ty := .u16, acc := .rw, reps := 64, dflt := 200, lo := 110, hi := 1000 }
/-- R266: 0x20nn:07. -/
def Obj.CH_POLL_NS : Obj := { key := 0x200007, ty := .u32, acc := .rw, reps := 64, dflt := 2000, lo := 200, hi := 100000 }
/-- R266: 0x20nn:08. -/
def Obj.CH_SUSP_BUDGET_NS : Obj := { key := 0x200008, ty := .u32, acc := .rw, reps := 64, dflt := 60000, lo := 0, hi := 1000000 }
/-- R266: 0x20nn:09. -/
def Obj.CH_RESUME_MIN_NS : Obj := { key := 0x200009, ty := .u32, acc := .rw, reps := 64, dflt := 10000, lo := 1000, hi := 1000000 }
/-- R266: 0x20nn:0A. -/
def Obj.CH_AGE_NS : Obj := { key := 0x20000a, ty := .u32, acc := .rw, reps := 64, dflt := 50000, lo := 5000, hi := 10000000 }
/-- R266: 0x20nn:0B. -/
def Obj.CH_RECOVER_NS : Obj := { key := 0x20000b, ty := .u32, acc := .rw, reps := 64, dflt := 100000, lo := 10000, hi := 10000000 }
/-- R266: 0x20nn:0C. -/
def Obj.CH_FAULTS : Obj := { key := 0x20000c, ty := .u32, acc := .ro, reps := 64 }
/-- R266: 0x20nn:0D. -/
def Obj.CH_RETRAINS : Obj := { key := 0x20000d, ty := .u32, acc := .ro, reps := 64 }
/-- R266: 0x20nn:0E. -/
def Obj.CH_ID_CHECK_S : Obj := { key := 0x20000e, ty := .u32, acc := .rw, reps := 64, dflt := 60, lo := 0, hi := 86400 }
/-- R266: 0x20nn:0F. -/
def Obj.CH_DIE_FAIL : Obj := { key := 0x20000f, ty := .bits32, acc := .wo, reps := 64, mask := 0xffff }
/-- R266: 0x20nn:10–1F. -/
def Obj.DIE_STATE : Obj := { key := 0x200010, ty := .u8, acc := .ro, count := 16, reps := 64 }
/-- R266: 0x20nn:20–2F. -/
def Obj.DIE_CAUSE : Obj := { key := 0x200020, ty := .bits32, acc := .ro, count := 16, reps := 64 }
/-- R266: 0x20nn:30–3F. -/
def Obj.DIE_ID : Obj := { key := 0x200030, ty := .u64, acc := .ro, count := 16, reps := 64 }
/-- R266: 0x20nn:40–4F. -/
def Obj.DIE_QDEPTH : Obj := { key := 0x200040, ty := .u8, acc := .ro, count := 16, reps := 64 }
/-- R266: 0x20nn:50–5F. -/
def Obj.DIE_DQ_TRIM : Obj := { key := 0x200050, ty := .u64, acc := .ro, count := 16, reps := 64 }
/-- R266: 0x20nn:60–6F. -/
def Obj.DIE_STROBE_TRIM : Obj := { key := 0x200060, ty := .u32, acc := .ro, count := 16, reps := 64 }
/-- R266: 0x20nn:70–7F. -/
def Obj.DIE_RL_GEN : Obj := { key := 0x200070, ty := .u8, acc := .ro, count := 16, reps := 64 }
/-- R266: 0x20nn:80–8F. -/
def Obj.DIE_RESETS : Obj := { key := 0x200080, ty := .u16, acc := .ro, count := 16, reps := 64 }
/-- R266: 0x20nn:90–9F. -/
def Obj.DIE_SLOW : Obj := { key := 0x200090, ty := .u32, acc := .ro, count := 16, reps := 64 }
/-- R266: 0x20nn:A0. -/
def Obj.CH_SUSPENDS : Obj := { key := 0x2000a0, ty := .u32, acc := .ro, reps := 64 }
/-- R266: 0x20nn:A1. -/
def Obj.CH_BUS_BUSY_PM : Obj := { key := 0x2000a1, ty := .u16, acc := .ro, reps := 64 }
/-- R309: 0x2200:01–04. -/
def Obj.CODE_DESC : Obj := { key := 0x220001, ty := .domain, acc := .rw, count := 4 }
/-- R309: 0x2200:05. -/
def Obj.CODE_STATUS : Obj := { key := 0x220005, ty := .bits32, acc := .ro, dflt := 0x03030303 }
/-- R309: 0x2200:06. -/
def Obj.CLASS_CODE : Obj := { key := 0x220006, ty := .bits32, acc := .rw, dflt := 0x00000364, mask := 0x3ff }
/-- R309: 0x2200:07. -/
def Obj.RP_CTRL : Obj := { key := 0x220007, ty := .bits32, acc := .rw, dflt := 0x00000007, mask := 0x7 }
/-- R309: 0x2200:08. -/
def Obj.RETRY_HARD_STEPS : Obj := { key := 0x220008, ty := .u8, acc := .rw, dflt := 5, lo := 0, hi := 13 }
/-- R309: 0x2200:09. -/
def Obj.SOFT_STEPS : Obj := { key := 0x220009, ty := .u8, acc := .rw, dflt := 2, lo := 0, hi := 2 }
/-- R309: 0x2200:0A. -/
def Obj.SPEC_SW_THR : Obj := { key := 0x22000a, ty := .u16, acc := .rw, dflt := 400, lo := 1, hi := 65535 }
/-- R309: 0x2200:0B. -/
def Obj.SPEC_MAX : Obj := { key := 0x22000b, ty := .u8, acc := .rw, dflt := 2, lo := 0, hi := 8 }
/-- R309: 0x2200:0C. -/
def Obj.UNC_FILL : Obj := { key := 0x22000c, ty := .u32, acc := .rw }
/-- R309: 0x2200:0D. -/
def Obj.RO_WAIT_NS : Obj := { key := 0x22000d, ty := .u32, acc := .rw, dflt := 20000, lo := 1000, hi := 10000000 }
/-- R309: 0x2200:0E. -/
def Obj.RO_COMET_MAX_PCT : Obj := { key := 0x22000e, ty := .u8, acc := .rw, dflt := 50, lo := 0, hi := 90 }
/-- R309: 0x2200:10–13. -/
def Obj.LLR_MAG : Obj := { key := 0x220010, ty := .u64, acc := .rw, count := 4, dflt := 0x000F0A06020C0308, mask := 0xffffffffffffff }
/-- R309: 0x2200:20–2F. -/
def Obj.RP_STEP_COUNT : Obj := { key := 0x220020, ty := .u64, acc := .ro, count := 16 }
/-- R309: 0x2200:30. -/
def Obj.RP_REBUILT : Obj := { key := 0x220030, ty := .u64, acc := .ro }
/-- R309: 0x2200:31. -/
def Obj.RP_UNCORRECTABLE : Obj := { key := 0x220031, ty := .u64, acc := .ro }
/-- R309: 0x2200:32. -/
def Obj.RP_MISMATCH : Obj := { key := 0x220032, ty := .u32, acc := .ro }
/-- R309: 0x2200:33. -/
def Obj.RP_POISON : Obj := { key := 0x220033, ty := .u32, acc := .ro }
/-- R309: 0x2200:34. -/
def Obj.SPEC_ISSUED : Obj := { key := 0x220034, ty := .u64, acc := .ro }
/-- R309: 0x2200:35. -/
def Obj.SPEC_USED : Obj := { key := 0x220035, ty := .u64, acc := .ro }
/-- R309: 0x2200:36. -/
def Obj.SPEC_DROPPED : Obj := { key := 0x220036, ty := .u64, acc := .ro }
/-- R309: 0x2200:37. -/
def Obj.RACE_REBUILD_WON : Obj := { key := 0x220037, ty := .u32, acc := .ro }
/-- R309: 0x2200:38. -/
def Obj.RO_SLOTS_FREE : Obj := { key := 0x220038, ty := .u16, acc := .ro }
/-- R309: 0x2200:39. -/
def Obj.RO_STAGED : Obj := { key := 0x220039, ty := .u64, acc := .ro }
/-- R309: 0x2200:3A. -/
def Obj.UNC_LAST_PPA : Obj := { key := 0x22003a, ty := .u64, acc := .ro }
/-- R309: 0x2200:3B. -/
def Obj.RP_RASTER_LATE : Obj := { key := 0x22003b, ty := .u32, acc := .ro }
/-- R334: 0x2300:01. -/
def Obj.CAL_CTRL : Obj := { key := 0x230001, ty := .bits32, acc := .rw, dflt := 0x0000000F, mask := 0xf }
/-- R334: 0x2300:02. -/
def Obj.CAL_TEMP_DELTA : Obj := { key := 0x230002, ty := .u8, acc := .rw, dflt := 6, lo := 1, hi := 60 }
/-- R334: 0x2300:03. -/
def Obj.CAL_STEP_MAX : Obj := { key := 0x230003, ty := .u8, acc := .rw, dflt := 12, lo := 1, hi := 64 }
/-- R334: 0x2300:04. -/
def Obj.CAL_TRIM_STEP_MAX : Obj := { key := 0x230004, ty := .u8, acc := .rw, dflt := 4, lo := 1, hi := 32 }
/-- R334: 0x2300:05. -/
def Obj.CAL_PERIOD_S : Obj := { key := 0x230005, ty := .u32, acc := .rw, dflt := 3600 }
/-- R334: 0x2300:06. -/
def Obj.CAL_MIN_CW : Obj := { key := 0x230006, ty := .u16, acc := .rw, dflt := 64, lo := 8, hi := 4096 }
/-- R334: 0x2300:07. -/
def Obj.CAL_PROBE : Obj := { key := 0x230007, ty := .u8, acc := .rw, dflt := 4, lo := 1, hi := 16 }
/-- R334: 0x2300:08. -/
def Obj.CAL_PROBE_CW : Obj := { key := 0x230008, ty := .u8, acc := .rw, dflt := 8, lo := 1, hi := 64 }
/-- R334: 0x2300:09. -/
def Obj.CAL_VERIFY_CW : Obj := { key := 0x230009, ty := .u8, acc := .rw, dflt := 8, lo := 1, hi := 64 }
/-- R334: 0x2300:0A. -/
def Obj.CAL_VERIFY_PCT : Obj := { key := 0x23000a, ty := .u8, acc := .rw, dflt := 100, lo := 50, hi := 150 }
/-- R334: 0x2300:0B. -/
def Obj.CAL_DENSITY_TOL_PPM : Obj := { key := 0x23000b, ty := .u32, acc := .rw, dflt := 20000, lo := 1000, hi := 100000 }
/-- R334: 0x2300:0C. -/
def Obj.CAL_REJECT_PCT : Obj := { key := 0x23000c, ty := .u8, acc := .rw, dflt := 25, lo := 0, hi := 100 }
/-- R334: 0x2300:0D. -/
def Obj.CAL_HOLD_MS : Obj := { key := 0x23000d, ty := .u16, acc := .rw, dflt := 100, lo := 1, hi := 10000 }
/-- R334: 0x2300:0E. -/
def Obj.CAL_EYE_MIN : Obj := { key := 0x23000e, ty := .u8, acc := .rw, dflt := 6, lo := 1, hi := 64 }
/-- R334: 0x2300:0F. -/
def Obj.CAL_EYE_BER_PPM : Obj := { key := 0x23000f, ty := .u32, acc := .rw, dflt := 1000, lo := 1, hi := 1000000 }
/-- R334: 0x2300:10. -/
def Obj.CAL_TEMP_POLL_MS : Obj := { key := 0x230010, ty := .u16, acc := .rw, dflt := 1000, lo := 100, hi := 60000 }
/-- R334: 0x2300:11. -/
def Obj.CAL_TABLE_BASE : Obj := { key := 0x230011, ty := .u64, acc := .rw, mult := 4096 }
/-- R334: 0x2300:12. -/
def Obj.CAL_TEMP_EXT : Obj := { key := 0x230012, ty := .i8, acc := .rw, fnw := true, dflt := 0x80 }
/-- R334: 0x2300:13. -/
def Obj.CAL_EYE_GUARD_NS : Obj := { key := 0x230013, ty := .u32, acc := .rw, dflt := 40000, lo := 10000, hi := 1000000 }
/-- R334: 0x2300:14. -/
def Obj.CAL_DIE_SELECT : Obj := { key := 0x230014, ty := .u16, acc := .rw }
/-- R334: 0x2300:15. -/
def Obj.CAL_DIE_INFO : Obj := { key := 0x230015, ty := .bits64, acc := .ro }
/-- R334: 0x2300:16. -/
def Obj.CAL_LAST_RUN : Obj := { key := 0x230016, ty := .bits64, acc := .ro }
/-- R334: 0x2300:17. -/
def Obj.CAL_SNAPSHOT : Obj := { key := 0x230017, ty := .domain, acc := .rw }
/-- R334: 0x2300:18. -/
def Obj.CAL_SNAP_SEQ : Obj := { key := 0x230018, ty := .u64, acc := .rw }
/-- R334: 0x2300:19. -/
def Obj.CAL_RESTORE_STATUS : Obj := { key := 0x230019, ty := .bits32, acc := .ro }
/-- R334: 0x2300:1A. -/
def Obj.CAL_RUNS : Obj := { key := 0x23001a, ty := .u32, acc := .ro }
/-- R334: 0x2300:1B. -/
def Obj.CAL_REJECTS : Obj := { key := 0x23001b, ty := .u32, acc := .ro }
/-- R350: 0x14u0:1F. -/
def Obj.UNIT_WP_SHIFT : Obj := { key := 0x14001f, ty := .u8, acc := .rw, reps := 16, dflt := 30, lo := 0, hi := 30 }
/-- R350: 0x14u0:20–2F. -/
def Obj.UNIT_WP_MAP : Obj := { key := 0x140020, ty := .bits64, acc := .rw, count := 16, reps := 16 }
/-- R372: 0x1200:01. -/
def Obj.SEAL : Obj := { key := 0x120001, ty := .u16, acc := .rw, loc := true }
/-- R372: 0x1200:02. -/
def Obj.PROT_LEVEL : Obj := { key := 0x120002, ty := .u8, acc := .ro }
/-- R372: 0x1200:03. -/
def Obj.PROT_LEVEL_RAISE : Obj := { key := 0x120003, ty := .u8, acc := .wo, loc := true, lo := 0, hi := 2 }
/-- R372: 0x1200:04. -/
def Obj.PROT_STATUS : Obj := { key := 0x120004, ty := .bits32, acc := .ro }
/-- R372: 0x1200:05. -/
def Obj.BOOT_REGION : Obj := { key := 0x120005, ty := .bits32, acc := .rwb, mask := 0xffffffff }
/-- R372: 0x1200:07. -/
def Obj.BW_CTRL : Obj := { key := 0x120007, ty := .bits32, acc := .rw, dflt := 0x00000001, mask := 0x1 }
/-- R372: 0x1200:08. -/
def Obj.BW_STATUS : Obj := { key := 0x120008, ty := .bits32, acc := .ro }
/-- R372: 0x1200:09. -/
def Obj.BW_FETCH_ERR : Obj := { key := 0x120009, ty := .u32, acc := .ro }
/-- R372: 0x1200:10. -/
def Obj.PSAVE_SLOT : Obj := { key := 0x120010, ty := .u8, acc := .rw, lo := 0, hi := 15 }
/-- R372: 0x1200:11. -/
def Obj.PSAVE_DATA : Obj := { key := 0x120011, ty := .domain, acc := .rw }
/-- R372: 0x1200:12. -/
def Obj.PSAVE_STATUS : Obj := { key := 0x120012, ty := .bits32, acc := .ro }
/-- R372: 0x1200:13. -/
def Obj.PSAVE_COUNT : Obj := { key := 0x120013, ty := .u64, acc := .ro }
/-- R372: 0x1200:14. -/
def Obj.PSAVE_WEAR : Obj := { key := 0x120014, ty := .u32, acc := .ro }
/-- R372: 0x1200:15. -/
def Obj.SAN_CTRL : Obj := { key := 0x120015, ty := .bits32, acc := .wo, mask := 0x303 }
/-- R372: 0x1200:16. -/
def Obj.SAN_STATUS : Obj := { key := 0x120016, ty := .bits32, acc := .ro }
/-- R372: 0x1200:17. -/
def Obj.SAN_REMAINING : Obj := { key := 0x120017, ty := .u32, acc := .ro }
/-- R372: 0x1200:20. -/
def Obj.PFAIL_FILTER_NS : Obj := { key := 0x120020, ty := .u32, acc := .rwb, dflt := 1000, lo := 100, hi := 100000 }
/-- R372: 0x1200:21. -/
def Obj.DRAIN_LIMIT_NS : Obj := { key := 0x120021, ty := .u32, acc := .rwb }
/-- R372: 0x1200:22. -/
def Obj.DRAIN_BUDGET_NS : Obj := { key := 0x120022, ty := .u32, acc := .ro }
/-- R372: 0x1200:23. -/
def Obj.DRAIN_STATUS : Obj := { key := 0x120023, ty := .bits32, acc := .ro }
/-- R372: 0x1200:24. -/
def Obj.RESCUE_DIES : Obj := { key := 0x120024, ty := .u16, acc := .ro }
/-- R374: 0x3F00:01. -/
def Obj.RMP_KEY1 : Obj := { key := 0x3f0001, ty := .u16, acc := .wo }
/-- R374: 0x3F00:02. -/
def Obj.RMP_KEY2 : Obj := { key := 0x3f0002, ty := .u16, acc := .wo }
/-- R374: 0x3F00:03. -/
def Obj.RMP_STATUS : Obj := { key := 0x3f0003, ty := .bits32, acc := .ro }
/-- R374: 0x3F00:04. -/
def Obj.RMP_ARM_NS : Obj := { key := 0x3f0004, ty := .u32, acc := .rwb, dflt := 1000000, lo := 10000, hi := 100000000 }
/-- R374: 0x3F00:05. -/
def Obj.RMP_KEY_ERR : Obj := { key := 0x3f0005, ty := .u32, acc := .ro }
/-- R374: 0x3F00:06. -/
def Obj.RMP_USED : Obj := { key := 0x3f0006, ty := .u32, acc := .ro }
/-- R374: 0x3F00:08. -/
def Obj.RAW_AREA : Obj := { key := 0x3f0008, ty := .bits32, acc := .rwb, mask := 0xffffffff }
/-- R374: 0x1600:30. -/
def Obj.BLANK_ZERO_LIMIT : Obj := { key := 0x160030, ty := .u16, acc := .rw, dflt := 64, lo := 0, hi := 4096 }
/-- R374: 0x1600:31. -/
def Obj.BLANK_FAILS : Obj := { key := 0x160031, ty := .u32, acc := .ro }
/-- R404: 0x2400:01. -/
def Obj.UCODE_VERSION : Obj := { key := 0x240001, ty := .bits64, acc := .ro }
/-- R404: 0x2400:02. -/
def Obj.UCODE_LOAD_MASK : Obj := { key := 0x240002, ty := .bits32, acc := .rw, dflt := 0xff, mask := 0xffffffff }
/-- R404: 0x2400:03. -/
def Obj.UCODE_IMAGE : Obj := { key := 0x240003, ty := .domain, acc := .rw }
/-- R404: 0x2400:04. -/
def Obj.UCODE_LOAD_STATUS : Obj := { key := 0x240004, ty := .bits32, acc := .ro }
/-- R404: 0x2400:05. -/
def Obj.UCODE_STATE : Obj := { key := 0x240005, ty := .bits32, acc := .ro }
/-- R404: 0x2400:06. -/
def Obj.UCODE_LAST_ACT : Obj := { key := 0x240006, ty := .bits32, acc := .ro }
/-- R404: 0x2400:07. -/
def Obj.UCODE_QUIESCE_NS : Obj := { key := 0x240007, ty := .u32, acc := .ro }
/-- R404: 0x2400:08. -/
def Obj.UCODE_WATCHDOG : Obj := { key := 0x240008, ty := .u32, acc := .rw, dflt := 120000, lo := 1000, hi := 12000000 }
/-- R404: 0x2400:09. -/
def Obj.UCODE_FAULTS : Obj := { key := 0x240009, ty := .u32, acc := .ro }
/-- R404: 0x2400:0A. -/
def Obj.UCODE_LAST_FAULT : Obj := { key := 0x24000a, ty := .bits64, acc := .ro }
/-- R404: 0x2400:10–17. -/
def Obj.UCODE_CL_VERSION : Obj := { key := 0x240010, ty := .bits64, acc := .ro, count := 8 }
/-- R404: 0x2400:20. -/
def Obj.UCODE_DIE_SELECT : Obj := { key := 0x240020, ty := .u16, acc := .rw }
/-- R404: 0x2400:21. -/
def Obj.UCODE_DIE_INFO : Obj := { key := 0x240021, ty := .bits64, acc := .ro }
/-- R438: 0x2500:01–05. -/
def Obj.POOL_BASE : Obj := { key := 0x250001, ty := .u64, acc := .rw, count := 5, mult := 4096 }
/-- R438: 0x2500:06–0A. -/
def Obj.POOL_COUNT : Obj := { key := 0x250006, ty := .u32, acc := .rw, count := 5, lo := 1, hi := 536870911 }
/-- R438: 0x2500:0B–0F. -/
def Obj.POOL_RING_BASE : Obj := { key := 0x25000b, ty := .u64, acc := .rw, count := 5, mult := 4096 }
/-- R438: 0x2500:10–14. -/
def Obj.POOL_DESC_BASE : Obj := { key := 0x250010, ty := .u64, acc := .rw, count := 5, mult := 4096 }
/-- R438: 0x2500:15. -/
def Obj.POOL_CTRL : Obj := { key := 0x250015, ty := .bits32, acc := .rw, mask := 0x1f }
/-- R438: 0x2500:16. -/
def Obj.POOL_STATUS : Obj := { key := 0x250016, ty := .bits32, acc := .ro }
/-- R438: 0x2500:18–1C. -/
def Obj.POOL_FREE : Obj := { key := 0x250018, ty := .u32, acc := .ro, count := 5 }
/-- R438: 0x2500:1D–21. -/
def Obj.POOL_LOW_MARK : Obj := { key := 0x25001d, ty := .u32, acc := .rw, count := 5 }
/-- R438: 0x2500:22–26. -/
def Obj.BUF_ALLOC : Obj := { key := 0x250022, ty := .u32, acc := .ro, count := 5, loc := true }
/-- R438: 0x2500:27. -/
def Obj.BUF_FREE : Obj := { key := 0x250027, ty := .u32, acc := .wo, loc := true }
/-- R438: 0x2500:28. -/
def Obj.BUF_FREE_ADDR : Obj := { key := 0x250028, ty := .u64, acc := .wo, loc := true }
/-- R438: 0x2500:29. -/
def Obj.BUF_REF : Obj := { key := 0x250029, ty := .u32, acc := .wo, loc := true }
/-- R438: 0x2500:2A. -/
def Obj.BUF_QUERY : Obj := { key := 0x25002a, ty := .u32, acc := .rw }
/-- R438: 0x2500:2B. -/
def Obj.BUF_QUERY_INFO : Obj := { key := 0x25002b, ty := .bits64, acc := .ro }
/-- R438: 0x2500:30. -/
def Obj.BUF_DOUBLE_FREE : Obj := { key := 0x250030, ty := .u32, acc := .ro }
/-- R438: 0x2500:31. -/
def Obj.BUF_FOREIGN_FREE : Obj := { key := 0x250031, ty := .u32, acc := .ro }
/-- R438: 0x2500:32. -/
def Obj.BUF_BAD_POINTER : Obj := { key := 0x250032, ty := .u32, acc := .ro }
/-- R438: 0x2500:33. -/
def Obj.BUF_NOBUF : Obj := { key := 0x250033, ty := .u32, acc := .ro }
/-- R438: 0x2500:34. -/
def Obj.BUF_WAIT_TIMEOUT : Obj := { key := 0x250034, ty := .u32, acc := .ro }
/-- R438: 0x2500:35. -/
def Obj.BUF_REF_FULL : Obj := { key := 0x250035, ty := .u32, acc := .ro }
/-- R438: 0x2500:40–5F. -/
def Obj.BUF_QUOTA : Obj := { key := 0x250040, ty := .bits64, acc := .rw, count := 32, dflt := 0x1FFFFFFFFFFFFFFF, mask := 0x3fffffffffffffff }
/-- R438: 0x2500:60–7F. -/
def Obj.BUF_RESERVE : Obj := { key := 0x250060, ty := .bits64, acc := .rw, count := 32, mask := 0xfffffffffffffff }
/-- R438: 0x2500:80–9F. -/
def Obj.BUF_WAIT_NS : Obj := { key := 0x250080, ty := .u32, acc := .rw, count := 32, dflt := 10000000 }
/-- R438: 0x2500:A0–BF. -/
def Obj.BUF_HELD : Obj := { key := 0x2500a0, ty := .bits64, acc := .ro, count := 32 }
/-- R440: 0x2600:01. -/
def Obj.NQ_ROUTE : Obj := { key := 0x260001, ty := .bits32, acc := .rw, mask := 0x7fff }
/-- R440: 0x2600:02. -/
def Obj.NQ_BLOCK_NS : Obj := { key := 0x260002, ty := .u32, acc := .rw, dflt := 100000, lo := 1000, hi := 10000000 }
/-- R440: 0x2600:03. -/
def Obj.NQ_FLUSH_NS : Obj := { key := 0x260003, ty := .u32, acc := .rw, dflt := 2000, lo := 100, hi := 1000000 }
/-- R440: 0x2600:04. -/
def Obj.NQ_BLOCK_EXPIRED : Obj := { key := 0x260004, ty := .u32, acc := .ro }
/-- R440: 0x2600:10–17. -/
def Obj.NQ_POP : Obj := { key := 0x260010, ty := .bits64, acc := .ro, count := 8, loc := true }
/-- R440: 0x2600:18–1F. -/
def Obj.NQ_TRY : Obj := { key := 0x260018, ty := .bits64, acc := .ro, count := 8, loc := true }
/-- R440: 0x2600:20. -/
def Obj.NQ_LATCH_HI : Obj := { key := 0x260020, ty := .bits64, acc := .ro, loc := true, banked := true }
/-- R440: 0x2600:28–2F. -/
def Obj.NQ_CFG : Obj := { key := 0x260028, ty := .bits32, acc := .rw, count := 8, loc := true, dflt := 0x4001, step := 0x20000, mask := 0xffc0ff }
/-- R440: 0x2600:30–37. -/
def Obj.NQ_RING_BASE : Obj := { key := 0x260030, ty := .u64, acc := .rw, count := 8, loc := true, mult := 4096 }
/-- R440: 0x2600:38–3F. -/
def Obj.NQ_STATUS : Obj := { key := 0x260038, ty := .bits32, acc := .ro, count := 8 }
/-- R440: 0x2600:40–47. -/
def Obj.NQ_WORDS : Obj := { key := 0x260040, ty := .u32, acc := .ro, count := 8 }
/-- R440: 0x2600:48–4F. -/
def Obj.NQ_PACKETS : Obj := { key := 0x260048, ty := .u32, acc := .ro, count := 8 }
/-- R440: 0x2600:50–57. -/
def Obj.NQ_DROPPED : Obj := { key := 0x260050, ty := .u32, acc := .ro, count := 8 }
/-- R440: 0x2600:58–5F. -/
def Obj.NQ_SEQ : Obj := { key := 0x260058, ty := .u32, acc := .ro, count := 8 }
/-- R442: 0x27c0:01. -/
def Obj.CE_SRC : Obj := { key := 0x270001, ty := .u64, acc := .rw, reps := 16, loc := true }
/-- R442: 0x27c0:02. -/
def Obj.CE_DST : Obj := { key := 0x270002, ty := .u64, acc := .rw, reps := 16, loc := true }
/-- R442: 0x27c0:03. -/
def Obj.CE_LEN : Obj := { key := 0x270003, ty := .u32, acc := .rw, reps := 16, loc := true }
/-- R442: 0x27c0:04. -/
def Obj.CE_LIST : Obj := { key := 0x270004, ty := .u64, acc := .rw, reps := 16, loc := true, mult := 16 }
/-- R442: 0x27c0:05. -/
def Obj.CE_CTRL : Obj := { key := 0x270005, ty := .bits32, acc := .rw, reps := 16, loc := true, mask := 0xf3e7 }
/-- R442: 0x27c0:06. -/
def Obj.CE_STATUS : Obj := { key := 0x270006, ty := .bits32, acc := .ro, reps := 16, w1c := true, mask := 0xe }
/-- R442: 0x27c0:07. -/
def Obj.CE_DONE_BYTES : Obj := { key := 0x270007, ty := .u64, acc := .ro, reps := 16 }
/-- R442: 0x27c0:08. -/
def Obj.CE_ERR_ADDR : Obj := { key := 0x270008, ty := .u64, acc := .ro, reps := 16 }
/-- R442: 0x27c0:09. -/
def Obj.CE_ELEMENTS : Obj := { key := 0x270009, ty := .u32, acc := .ro, reps := 16 }
/-- R461: 0x2800:01. -/
def Obj.INT_CLAIM : Obj := { key := 0x280001, ty := .bits32, acc := .ro, loc := true, banked := true }
/-- R461: 0x2800:02. -/
def Obj.INT_EOI : Obj := { key := 0x280002, ty := .u32, acc := .wo, loc := true, banked := true }
/-- R461: 0x2800:03. -/
def Obj.INT_RUNNING : Obj := { key := 0x280003, ty := .bits32, acc := .ro, loc := true, banked := true, dflt := 0x80000000 }
/-- R461: 0x2800:04. -/
def Obj.INT_SEL : Obj := { key := 0x280004, ty := .u16, acc := .rw, loc := true, banked := true, lo := 0, hi := 511 }
/-- R461: 0x2800:05. -/
def Obj.INT_CFG : Obj := { key := 0x280005, ty := .bits32, acc := .rw, loc := true, banked := true, mask := 0xfcef01 }
/-- R461: 0x2800:06. -/
def Obj.INT_SOFT : Obj := { key := 0x280006, ty := .bits32, acc := .wo, loc := true, mask := 0xff0f }
/-- R461: 0x2800:07. -/
def Obj.EOI_STRAY : Obj := { key := 0x280007, ty := .u32, acc := .ro, loc := true, banked := true }
/-- R461: 0x2800:08. -/
def Obj.INT_SLEEP : Obj := { key := 0x280008, ty := .bits32, acc := .ro }
/-- R461: 0x2800:09. -/
def Obj.INT_IRQ : Obj := { key := 0x280009, ty := .bits32, acc := .ro }
/-- R461: 0x2800:0A. -/
def Obj.INT_EMPTY : Obj := { key := 0x28000a, ty := .u32, acc := .ro, loc := true, banked := true }
/-- R461: 0x2800:10–2F. -/
def Obj.INT_COAL : Obj := { key := 0x280010, ty := .bits64, acc := .rw, count := 32, loc := true, dflt := 0x000003E800000001, mask := 0xffffffff000107ff }
/-- R461: 0x2800:30–4F. -/
def Obj.INT_COAL_STAT : Obj := { key := 0x280030, ty := .bits32, acc := .ro, count := 32 }
/-- R461: 0x2800:50–57. -/
def Obj.INT_PEND : Obj := { key := 0x280050, ty := .bits64, acc := .ro, count := 8, loc := true, banked := true }
/-- R461: 0x2800:58–5F. -/
def Obj.INT_ACTIVE : Obj := { key := 0x280058, ty := .bits64, acc := .ro, count := 8, loc := true, banked := true }
/-- R487: 0x1000:01. -/
def Obj.BLOCK_VERSION : Obj := { key := 0x100001, ty := .u32, acc := .ro, dflt := 0x00010300 }
/-- R487: 0x1000:02. -/
def Obj.BLOCK_BUILD : Obj := { key := 0x100002, ty := .u8, acc := .ro }
/-- R487: 0x1000:03. -/
def Obj.BLOCK_VENDOR : Obj := { key := 0x100003, ty := .u32, acc := .ro, dflt := 0x56574E44 }
/-- R487: 0x1000:04. -/
def Obj.BLOCK_NAME : Obj := { key := 0x100004, ty := .u64, acc := .ro, dflt := 0x414B53554C4C4152 }
/-- R487: 0x1000:05. -/
def Obj.BLOCK_CLUSTERS : Obj := { key := 0x100005, ty := .u8, acc := .ro }
/-- R487: 0x1000:06. -/
def Obj.BLOCK_TAG : Obj := { key := 0x100006, ty := .u64, acc := .rwb }
/-- R487: 0x1000:07. -/
def Obj.TIME_NOW : Obj := { key := 0x100007, ty := .time64, acc := .ro }
/-- R487: 0x1000:10. -/
def Obj.DICT_LAST_ERR : Obj := { key := 0x100010, ty := .bits64, acc := .ro, loc := true, banked := true }
/-- R487: 0x1000:11. -/
def Obj.DICT_SEG_TIMEOUT_NS : Obj := { key := 0x100011, ty := .u32, acc := .rw, dflt := 100000000, lo := 1000000, hi := 4000000000 }
/-- R487: 0x1000:12. -/
def Obj.DICT_ERRORS : Obj := { key := 0x100012, ty := .u32, acc := .ro }
/-- R487: 0x1000:13–15. -/
def Obj.DICT_ACCESS : Obj := { key := 0x100013, ty := .u64, acc := .ro, count := 3 }
/-- R488: 0x3000:01. -/
def Obj.STAT_CTRL : Obj := { key := 0x300001, ty := .bits32, acc := .rw, mask := 0x1 }
/-- R488: 0x3000:02. -/
def Obj.STAT_FREEZE_TIME : Obj := { key := 0x300002, ty := .time64, acc := .ro }
/-- R488: 0x3000:10. -/
def Obj.STAT_HOST_RD_BYTES : Obj := { key := 0x300010, ty := .u64, acc := .ro }
/-- R488: 0x3000:11. -/
def Obj.STAT_HOST_WR_BYTES : Obj := { key := 0x300011, ty := .u64, acc := .ro }
/-- R488: 0x3000:12. -/
def Obj.STAT_PROG_CW : Obj := { key := 0x300012, ty := .u64, acc := .ro }
/-- R488: 0x3000:13. -/
def Obj.STAT_MOVE_CW : Obj := { key := 0x300013, ty := .u64, acc := .ro }
/-- R488: 0x3000:14. -/
def Obj.STAT_PAD_CW : Obj := { key := 0x300014, ty := .u64, acc := .ro }
/-- R488: 0x3000:15. -/
def Obj.STAT_READ_CW : Obj := { key := 0x300015, ty := .u64, acc := .ro }
/-- R488: 0x3000:16. -/
def Obj.STAT_ERASES : Obj := { key := 0x300016, ty := .u64, acc := .ro }
/-- R488: 0x3000:17. -/
def Obj.STAT_WA_PM : Obj := { key := 0x300017, ty := .u32, acc := .ro }
/-- R488: 0x3000:20–23. -/
def Obj.STAT_CMDS_C : Obj := { key := 0x300020, ty := .u64, acc := .ro, count := 4 }
/-- R488: 0x3000:24–27. -/
def Obj.STAT_LAT_MAX_C : Obj := { key := 0x300024, ty := .u32, acc := .ro, count := 4 }
/-- R488: 0x3000:30. -/
def Obj.STAT_TEMP_MAX : Obj := { key := 0x300030, ty := .i8, acc := .ro, dflt := 0x80 }
/-- R488: 0x3000:31. -/
def Obj.STAT_TEMP_MIN : Obj := { key := 0x300031, ty := .i8, acc := .ro, dflt := 0x80 }
/-- R488: 0x3000:32. -/
def Obj.STAT_TEMP_PEAK : Obj := { key := 0x300032, ty := .i8, acc := .ro, dflt := 0x80 }
/-- R488: 0x3000:38. -/
def Obj.STAT_FREE_MIB : Obj := { key := 0x300038, ty := .u64, acc := .ro }
/-- R488: 0x3000:40–47. -/
def Obj.STAT_MODE_NS : Obj := { key := 0x300040, ty := .u64, acc := .ro, count := 8 }
/-- R490: 0x2A00:01. -/
def Obj.FN_CTRL : Obj := { key := 0x2a0001, ty := .bits32, acc := .rw, loc := true, mask := 0x7 }
/-- R490: 0x2A00:02. -/
def Obj.FN_NODE_ID : Obj := { key := 0x2a0002, ty := .u8, acc := .rw, loc := true, lo := 0, hi := 64 }
/-- R490: 0x2A00:03. -/
def Obj.FN_NOMINAL_KBPS : Obj := { key := 0x2a0003, ty := .u16, acc := .rw, loc := true, dflt := 500 }
/-- R490: 0x2A00:04. -/
def Obj.FN_DATA_KBPS : Obj := { key := 0x2a0004, ty := .u16, acc := .rw, loc := true, dflt := 2000 }
/-- R490: 0x2A00:05. -/
def Obj.FN_SAMPLE_PM : Obj := { key := 0x2a0005, ty := .bits32, acc := .rw, loc := true, dflt := 0x02EE0320, mask := 0xffffffff }
/-- R490: 0x2A00:06. -/
def Obj.FN_STATUS : Obj := { key := 0x2a0006, ty := .bits32, acc := .ro }
/-- R490: 0x2A00:08. -/
def Obj.FN_READ_AREAS : Obj := { key := 0x2a0008, ty := .bits32, acc := .rw, loc := true, dflt := 0x000C001B, mask := 0x1fffff }
/-- R490: 0x2A00:09. -/
def Obj.FN_RATE : Obj := { key := 0x2a0009, ty := .bits32, acc := .rw, loc := true, dflt := 0x002007D0, mask := 0xffffff }
/-- R490: 0x2A00:0A. -/
def Obj.FN_STATUS_MS : Obj := { key := 0x2a000a, ty := .u16, acc := .rw, dflt := 100, lo := 10, hi := 10000 }
/-- R490: 0x2A00:0B. -/
def Obj.FN_BUSOFF_HOLD_MS : Obj := { key := 0x2a000b, ty := .u16, acc := .rw, loc := true, dflt := 1000, lo := 0, hi := 60000 }
/-- R490: 0x2A00:0C. -/
def Obj.FN_STATUS_UNIT : Obj := { key := 0x2a000c, ty := .u8, acc := .rw, lo := 0, hi := 15 }
/-- R490: 0x2A00:0D. -/
def Obj.FN_FW_BEAT : Obj := { key := 0x2a000d, ty := .u32, acc := .rw, loc := true }
/-- R490: 0x2A00:0E. -/
def Obj.FN_BEAT_STALE_MS : Obj := { key := 0x2a000e, ty := .u16, acc := .rw, loc := true, dflt := 500, lo := 10, hi := 60000 }
/-- R490: 0x2A00:10. -/
def Obj.FN_RX_FRAMES : Obj := { key := 0x2a0010, ty := .u32, acc := .ro }
/-- R490: 0x2A00:11. -/
def Obj.FN_TX_FRAMES : Obj := { key := 0x2a0011, ty := .u32, acc := .ro }
/-- R490: 0x2A00:12. -/
def Obj.FN_IGNORED : Obj := { key := 0x2a0012, ty := .u32, acc := .ro }
/-- R490: 0x2A00:13. -/
def Obj.FN_RATE_DROPPED : Obj := { key := 0x2a0013, ty := .u32, acc := .ro }
/-- R490: 0x2A00:14. -/
def Obj.FN_MALFORMED : Obj := { key := 0x2a0014, ty := .u32, acc := .ro }
/-- R490: 0x2A00:15. -/
def Obj.FN_TX_DROPPED : Obj := { key := 0x2a0015, ty := .u32, acc := .ro }
/-- R490: 0x2A00:16. -/
def Obj.FN_BUSOFF : Obj := { key := 0x2a0016, ty := .u32, acc := .ro }
/-- R490: 0x2A00:17. -/
def Obj.FN_WRITE_REFUSED : Obj := { key := 0x2a0017, ty := .u32, acc := .ro }
/-- R504: 0x2900:01. -/
def Obj.TLOG_CTRL : Obj := { key := 0x290001, ty := .bits32, acc := .rw, dflt := 0x00000006, mask := 0x7 }
/-- R504: 0x2900:02. -/
def Obj.TLOG_STATUS : Obj := { key := 0x290002, ty := .bits32, acc := .ro, dflt := 0x00400000 }
/-- R504: 0x2900:03. -/
def Obj.TLOG_FIRST_SIZE : Obj := { key := 0x290003, ty := .u16, acc := .rw, dflt := 64, lo := 0, hi := 256 }
/-- R504: 0x2900:04. -/
def Obj.TLOG_CLASS_LIST : Obj := { key := 0x290004, ty := .bits32, acc := .rw, dflt := 0x00FAC688, mask := 0xffffff }
/-- R504: 0x2900:05. -/
def Obj.TLOG_IRQ_CLASS : Obj := { key := 0x290005, ty := .bits32, acc := .rw, dflt := 0x000000FF, mask := 0xff }
/-- R504: 0x2900:06. -/
def Obj.TLOG_NEXT_SEQ : Obj := { key := 0x290006, ty := .u64, acc := .ro, dflt := 1 }
/-- R504: 0x2900:07. -/
def Obj.TLOG_LOST : Obj := { key := 0x290007, ty := .u32, acc := .ro }
/-- R504: 0x2900:08. -/
def Obj.TLOG_OVERWRITTEN : Obj := { key := 0x290008, ty := .u64, acc := .ro }
/-- R504: 0x2900:09. -/
def Obj.TLOG_FROM_SEQ : Obj := { key := 0x290009, ty := .u64, acc := .rw }
/-- R504: 0x2900:0A. -/
def Obj.TLOG_IMAGE : Obj := { key := 0x29000a, ty := .domain, acc := .ro }
/-- R504: 0x2900:0B. -/
def Obj.TLOG_MARK : Obj := { key := 0x29000b, ty := .u64, acc := .wo }
/-- R504: 0x2900:40–7F. -/
def Obj.TLOG_LIST : Obj := { key := 0x290040, ty := .bits32, acc := .rw, count := 64, mask := 0xffffffff }
/-- R114: 0x1500:C0–C7. -/
def Obj.STREAM_INFO : Obj := { key := 0x1500c0, ty := .bits64, acc := .ro, count := 8 }

/-- Rows 1 to 40 of the dictionary. -/
def objRows0 : List Obj :=
  [ Obj.MODE_CURRENT, Obj.MODE_REQUEST, Obj.MODE_STATUS, Obj.MODE_BEFORE_PARK, Obj.MODE_CHANGE_POS,
    Obj.MODE_CHANGE_TIME, Obj.MODE_CHANGE_COUNT, Obj.BURST_EXIT_FREE, Obj.BURST_ENTRY_FREE, Obj.RAS_POSITION,
    Obj.RAS_STATUS, Obj.RAS_EPOCH_COUNT, Obj.NEW_TAKE, Obj.RAS_FRAME_NS, Obj.RAS_LINES,
    Obj.RAS_NUMBER_SRC, Obj.RAS_LOSS_FRAMES, Obj.VRAS_FRAME_NS, Obj.VRAS_LINES, Obj.VRAS_HOLD,
    Obj.TICK_SOURCE, Obj.RAS_STROBE_ERR, Obj.RAS_FRAME_SKIP, Obj.ORBIT_ACTIVE, Obj.ORBIT_STANDBY,
    Obj.ORBIT_MANUAL, Obj.ORBIT_UTIL_MAX, Obj.ORBIT_WAIT_MAX_NS, Obj.RASTER_RATE_CAP, Obj.BUDGET_HOLD_FRAMES,
    Obj.ORBIT_GENERATION, Obj.ORBIT_LATE, Obj.ORBIT_TBERS_NS, Obj.ORBIT_TPROG_C, Obj.STREAM_ROWS,
    Obj.STREAM_CHARGED, Obj.HL_STATUS, Obj.LINK_CRC_EN, Obj.XRDY_TIMEOUT_NS, Obj.XRDY_WINDOW_MAX ]

/-- Rows 41 to 80 of the dictionary. -/
def objRows1 : List Obj :=
  [ Obj.XRDY_AHEAD, Obj.HL_RX_VC0, Obj.HL_RX_VC1, Obj.HL_TX_VC0, Obj.HL_TX_VC1,
    Obj.HL_WINDOWS_OPEN, Obj.HL_STALL_NS, Obj.HL_LAST_BAD, Obj.HL_LINK_UPS, Obj.HL_ERR,
    Obj.QUEUE_CFG, Obj.QUEUE_DEPTH, Obj.UNIT_CTRL, Obj.UNIT_CAPACITY, Obj.UNIT_MAP_BASE,
    Obj.UNIT_STATE, Obj.UNIT_CLASS_MASK, Obj.UNIT_WCACHE_LIMIT, Obj.UNIT_VALID_SECTORS, Obj.UNIT_OUTSTANDING,
    Obj.LSW_HDR, Obj.LSW_PAY, Obj.LSW_GO, Obj.LSW_STATUS, Obj.LSW_OUTSTANDING,
    Obj.ORD_STAMP_NEXT, Obj.ORD_WRITE_SEQ, Obj.REPLAY_FROM_SEQ, Obj.ORD_LOCKS_USED, Obj.ORD_LOCK_WAITS,
    Obj.PARK_RESTARTS, Obj.UNIT_DEFER_UNC, Obj.UNIT_DEFER_EXH, Obj.UNIT_DEFER_FULL, Obj.LEDGER_BASE,
    Obj.LEDGER_PLANES, Obj.LEDGER_BLOCKS, Obj.SB_BASE, Obj.SB_COUNT, Obj.ALLOC_CTRL ]

/-- Rows 81 to 120 of the dictionary. -/
def objRows2 : List Obj :=
  [ Obj.ALLOC_STATUS, Obj.MAP_SAFE_SEQ, Obj.MAP_PERSISTED_SEQ, Obj.SPARE_LOW_PM, Obj.SPARE_CRIT_PM,
    Obj.FULL_RESERVE_MIB, Obj.SB_ZERO_MAX, Obj.MAP_UNDERLAY, Obj.ALLOC_READY_MIN, Obj.PE_LIMIT_C,
    Obj.WEAK_STEP, Obj.REFRESH_STEP, Obj.SPARE_PM_F, Obj.SLC_POOL_FREE, Obj.BLOCK_RETIRE,
    Obj.BLOCK_CLASS_SET, Obj.GROWN_BAD_COUNT, Obj.DECLINED_COUNT, Obj.RETIRED_COUNT, Obj.FAULT_STALL_LAST_NS,
    Obj.FAULT_STALL_MAX_NS, Obj.PAR_STORE_BYTES, Obj.PAR_IN_USE, Obj.PAR_SPILLS, Obj.PAR_SPILL_NS,
    Obj.PAR_INTERIM, Obj.PAR_REBUILT_CW, Obj.UNIT_FREE_MIB, Obj.UNIT_OPEN_SB, Obj.UNIT_UNPROTECTED_SB,
    Obj.COMET_CTRL, Obj.COMET_DEPTH_KIB, Obj.COMET_STREAMS, Obj.COMET_HELD_BYTES, Obj.COMET_CLAIMED,
    Obj.COMET_DISCARDED, Obj.MB_CTRL, Obj.MB_STATUS, Obj.MB_GENERATION, Obj.MB_HANDOVER_POS ]

/-- Rows 121 to 160 of the dictionary. -/
def objRows3 : List Obj :=
  [ Obj.MB_HANDOVER_TIME, Obj.MB_DQ_TRIM, Obj.MB_STROBE_TRIM, Obj.MB_RL_GEN, Obj.CH_STATUS,
    Obj.CH_CTRL, Obj.CH_RATE_MT, Obj.CH_RATE_MAX, Obj.CH_PHY_LAT, Obj.CH_TIMEOUT_PCT,
    Obj.CH_POLL_NS, Obj.CH_SUSP_BUDGET_NS, Obj.CH_RESUME_MIN_NS, Obj.CH_AGE_NS, Obj.CH_RECOVER_NS,
    Obj.CH_FAULTS, Obj.CH_RETRAINS, Obj.CH_ID_CHECK_S, Obj.CH_DIE_FAIL, Obj.DIE_STATE,
    Obj.DIE_CAUSE, Obj.DIE_ID, Obj.DIE_QDEPTH, Obj.DIE_DQ_TRIM, Obj.DIE_STROBE_TRIM,
    Obj.DIE_RL_GEN, Obj.DIE_RESETS, Obj.DIE_SLOW, Obj.CH_SUSPENDS, Obj.CH_BUS_BUSY_PM,
    Obj.CODE_DESC, Obj.CODE_STATUS, Obj.CLASS_CODE, Obj.RP_CTRL, Obj.RETRY_HARD_STEPS,
    Obj.SOFT_STEPS, Obj.SPEC_SW_THR, Obj.SPEC_MAX, Obj.UNC_FILL, Obj.RO_WAIT_NS ]

/-- Rows 161 to 200 of the dictionary. -/
def objRows4 : List Obj :=
  [ Obj.RO_COMET_MAX_PCT, Obj.LLR_MAG, Obj.RP_STEP_COUNT, Obj.RP_REBUILT, Obj.RP_UNCORRECTABLE,
    Obj.RP_MISMATCH, Obj.RP_POISON, Obj.SPEC_ISSUED, Obj.SPEC_USED, Obj.SPEC_DROPPED,
    Obj.RACE_REBUILD_WON, Obj.RO_SLOTS_FREE, Obj.RO_STAGED, Obj.UNC_LAST_PPA, Obj.RP_RASTER_LATE,
    Obj.CAL_CTRL, Obj.CAL_TEMP_DELTA, Obj.CAL_STEP_MAX, Obj.CAL_TRIM_STEP_MAX, Obj.CAL_PERIOD_S,
    Obj.CAL_MIN_CW, Obj.CAL_PROBE, Obj.CAL_PROBE_CW, Obj.CAL_VERIFY_CW, Obj.CAL_VERIFY_PCT,
    Obj.CAL_DENSITY_TOL_PPM, Obj.CAL_REJECT_PCT, Obj.CAL_HOLD_MS, Obj.CAL_EYE_MIN, Obj.CAL_EYE_BER_PPM,
    Obj.CAL_TEMP_POLL_MS, Obj.CAL_TABLE_BASE, Obj.CAL_TEMP_EXT, Obj.CAL_EYE_GUARD_NS, Obj.CAL_DIE_SELECT,
    Obj.CAL_DIE_INFO, Obj.CAL_LAST_RUN, Obj.CAL_SNAPSHOT, Obj.CAL_SNAP_SEQ, Obj.CAL_RESTORE_STATUS ]

/-- Rows 201 to 240 of the dictionary. -/
def objRows5 : List Obj :=
  [ Obj.CAL_RUNS, Obj.CAL_REJECTS, Obj.UNIT_WP_SHIFT, Obj.UNIT_WP_MAP, Obj.SEAL,
    Obj.PROT_LEVEL, Obj.PROT_LEVEL_RAISE, Obj.PROT_STATUS, Obj.BOOT_REGION, Obj.BW_CTRL,
    Obj.BW_STATUS, Obj.BW_FETCH_ERR, Obj.PSAVE_SLOT, Obj.PSAVE_DATA, Obj.PSAVE_STATUS,
    Obj.PSAVE_COUNT, Obj.PSAVE_WEAR, Obj.SAN_CTRL, Obj.SAN_STATUS, Obj.SAN_REMAINING,
    Obj.PFAIL_FILTER_NS, Obj.DRAIN_LIMIT_NS, Obj.DRAIN_BUDGET_NS, Obj.DRAIN_STATUS, Obj.RESCUE_DIES,
    Obj.RMP_KEY1, Obj.RMP_KEY2, Obj.RMP_STATUS, Obj.RMP_ARM_NS, Obj.RMP_KEY_ERR,
    Obj.RMP_USED, Obj.RAW_AREA, Obj.BLANK_ZERO_LIMIT, Obj.BLANK_FAILS, Obj.UCODE_VERSION,
    Obj.UCODE_LOAD_MASK, Obj.UCODE_IMAGE, Obj.UCODE_LOAD_STATUS, Obj.UCODE_STATE, Obj.UCODE_LAST_ACT ]

/-- Rows 241 to 280 of the dictionary. -/
def objRows6 : List Obj :=
  [ Obj.UCODE_QUIESCE_NS, Obj.UCODE_WATCHDOG, Obj.UCODE_FAULTS, Obj.UCODE_LAST_FAULT, Obj.UCODE_CL_VERSION,
    Obj.UCODE_DIE_SELECT, Obj.UCODE_DIE_INFO, Obj.POOL_BASE, Obj.POOL_COUNT, Obj.POOL_RING_BASE,
    Obj.POOL_DESC_BASE, Obj.POOL_CTRL, Obj.POOL_STATUS, Obj.POOL_FREE, Obj.POOL_LOW_MARK,
    Obj.BUF_ALLOC, Obj.BUF_FREE, Obj.BUF_FREE_ADDR, Obj.BUF_REF, Obj.BUF_QUERY,
    Obj.BUF_QUERY_INFO, Obj.BUF_DOUBLE_FREE, Obj.BUF_FOREIGN_FREE, Obj.BUF_BAD_POINTER, Obj.BUF_NOBUF,
    Obj.BUF_WAIT_TIMEOUT, Obj.BUF_REF_FULL, Obj.BUF_QUOTA, Obj.BUF_RESERVE, Obj.BUF_WAIT_NS,
    Obj.BUF_HELD, Obj.NQ_ROUTE, Obj.NQ_BLOCK_NS, Obj.NQ_FLUSH_NS, Obj.NQ_BLOCK_EXPIRED,
    Obj.NQ_POP, Obj.NQ_TRY, Obj.NQ_LATCH_HI, Obj.NQ_CFG, Obj.NQ_RING_BASE ]

/-- Rows 281 to 320 of the dictionary. -/
def objRows7 : List Obj :=
  [ Obj.NQ_STATUS, Obj.NQ_WORDS, Obj.NQ_PACKETS, Obj.NQ_DROPPED, Obj.NQ_SEQ,
    Obj.CE_SRC, Obj.CE_DST, Obj.CE_LEN, Obj.CE_LIST, Obj.CE_CTRL,
    Obj.CE_STATUS, Obj.CE_DONE_BYTES, Obj.CE_ERR_ADDR, Obj.CE_ELEMENTS, Obj.INT_CLAIM,
    Obj.INT_EOI, Obj.INT_RUNNING, Obj.INT_SEL, Obj.INT_CFG, Obj.INT_SOFT,
    Obj.EOI_STRAY, Obj.INT_SLEEP, Obj.INT_IRQ, Obj.INT_EMPTY, Obj.INT_COAL,
    Obj.INT_COAL_STAT, Obj.INT_PEND, Obj.INT_ACTIVE, Obj.BLOCK_VERSION, Obj.BLOCK_BUILD,
    Obj.BLOCK_VENDOR, Obj.BLOCK_NAME, Obj.BLOCK_CLUSTERS, Obj.BLOCK_TAG, Obj.TIME_NOW,
    Obj.DICT_LAST_ERR, Obj.DICT_SEG_TIMEOUT_NS, Obj.DICT_ERRORS, Obj.DICT_ACCESS, Obj.STAT_CTRL ]

/-- Rows 321 to 360 of the dictionary. -/
def objRows8 : List Obj :=
  [ Obj.STAT_FREEZE_TIME, Obj.STAT_HOST_RD_BYTES, Obj.STAT_HOST_WR_BYTES, Obj.STAT_PROG_CW, Obj.STAT_MOVE_CW,
    Obj.STAT_PAD_CW, Obj.STAT_READ_CW, Obj.STAT_ERASES, Obj.STAT_WA_PM, Obj.STAT_CMDS_C,
    Obj.STAT_LAT_MAX_C, Obj.STAT_TEMP_MAX, Obj.STAT_TEMP_MIN, Obj.STAT_TEMP_PEAK, Obj.STAT_FREE_MIB,
    Obj.STAT_MODE_NS, Obj.FN_CTRL, Obj.FN_NODE_ID, Obj.FN_NOMINAL_KBPS, Obj.FN_DATA_KBPS,
    Obj.FN_SAMPLE_PM, Obj.FN_STATUS, Obj.FN_READ_AREAS, Obj.FN_RATE, Obj.FN_STATUS_MS,
    Obj.FN_BUSOFF_HOLD_MS, Obj.FN_STATUS_UNIT, Obj.FN_FW_BEAT, Obj.FN_BEAT_STALE_MS, Obj.FN_RX_FRAMES,
    Obj.FN_TX_FRAMES, Obj.FN_IGNORED, Obj.FN_RATE_DROPPED, Obj.FN_MALFORMED, Obj.FN_TX_DROPPED,
    Obj.FN_BUSOFF, Obj.FN_WRITE_REFUSED, Obj.TLOG_CTRL, Obj.TLOG_STATUS, Obj.TLOG_FIRST_SIZE ]

/-- Rows 361 to 370 of the dictionary. -/
def objRows9 : List Obj :=
  [ Obj.TLOG_CLASS_LIST, Obj.TLOG_IRQ_CLASS, Obj.TLOG_NEXT_SEQ, Obj.TLOG_LOST, Obj.TLOG_OVERWRITTEN,
    Obj.TLOG_FROM_SEQ, Obj.TLOG_IMAGE, Obj.TLOG_MARK, Obj.TLOG_LIST, Obj.STREAM_INFO ]

/-- The whole dictionary (R486). -/
def objTable : List Obj :=
  objRows0 ++ objRows1 ++ objRows2 ++ objRows3 ++ objRows4 ++ objRows5 ++ objRows6 ++ objRows7 ++ objRows8 ++ objRows9

/-- The objects whose default differs from object to object of one row: the requesters of R410 (priority, reserve) and
the snapshot lists of R506. -/
def dfltOverrides : List (Nat × W64) :=
  [ (Obj.BUF_QUOTA.at 17, 0x0FFFFFFFFFFFFFFF), (Obj.BUF_QUOTA.at 18, 0x2FFFFFFFFFFFFFFF),
    (Obj.BUF_QUOTA.at 19, 0x3FFFFFFFFFFFFFFF), (Obj.BUF_QUOTA.at 24, 0x2FFFFFFFFFFFFFFF),
    (Obj.BUF_QUOTA.at 25, 0x2FFFFFFFFFFFFFFF), (Obj.BUF_QUOTA.at 26, 0x2FFFFFFFFFFFFFFF),
    (Obj.BUF_QUOTA.at 27, 0x2FFFFFFFFFFFFFFF), (Obj.BUF_QUOTA.at 28, 0x2FFFFFFFFFFFFFFF),
    (Obj.BUF_QUOTA.at 29, 0x2FFFFFFFFFFFFFFF), (Obj.BUF_QUOTA.at 30, 0x2FFFFFFFFFFFFFFF),
    (Obj.BUF_QUOTA.at 31, 0x2FFFFFFFFFFFFFFF),
    (Obj.BUF_RESERVE.at 18, 0x0003000000000000), (Obj.BUF_RESERVE.at 19, 0x0000004004004000) ]

/-- R506: every list starts with MODE_STATUS, RAS_STATUS, HL_STATUS and DRAIN_STATUS. -/
def tlogListDflt (i : Nat) : W64 :=
  match i % 8 with
  | 0 => 0x00110003
  | 1 => 0x00130002
  | 2 => 0x00150001
  | 3 => 0x00120023
  | _ => 0

/-- The reset default of object `i` of a row. -/
def Obj.default (o : Obj) (i : Nat := 0) : W64 :=
  if o.key = 0x290040 then tlogListDflt i
  else match dfltOverrides.find? (fun p => p.1 == o.key + i) with
    | some p => p.2
    | none => o.dflt + BitVec.ofNat 64 i * o.step

/-- The row that holds an address, with the position and the repetition of the address in it. -/
def objFind (key : Nat) : Option (Obj × Nat × Nat) :=
  let sub := key % 256
  let idx := key / 256
  match objTable.find? (fun o =>
      o.key / 256 ≤ idx && idx < o.key / 256 + o.reps && o.key % 256 ≤ sub && sub < o.key % 256 + o.count) with
  | some o => some (o, sub - o.key % 256, idx - o.key / 256)
  | none => none

end Sys2Proof.Machine
end

