-- ==== Sys2Proof/Machine/Ops.lean ====
section
/-!
DEFINITION. Machine/Ops.lean: the named operations over the dictionary's stored objects, memory, time, the notice and
trouble-log intakes, and outstanding commands, that every family of meanings shares.
-/

namespace Sys2Proof.Machine

open Sys2Proof

/-! ### Stored objects -/

/-- The stored value of an object: its entry, or its default (R462). -/
def State.obj (s : State) (o : Obj) (i : Nat := 0) (r : Nat := 0) : W64 :=
  match mapGet s.dict (o.at i r) with
  | some v => v
  | none => o.default i

/-- The stored value as a number. -/
def State.objN (s : State) (o : Obj) (i : Nat := 0) (r : Nat := 0) : Nat := (s.obj o i r).toNat

/-- A stored object set; an object at its default is not listed. -/
def State.setObj (s : State) (o : Obj) (v : W64) (i : Nat := 0) (r : Nat := 0) : State :=
  { s with dict := if v == o.default i then mapDel s.dict (o.at i r) else mapPut s.dict (o.at i r) v }

def State.setObjN (s : State) (o : Obj) (v : Nat) (i : Nat := 0) (r : Nat := 0) : State := s.setObj o (w64 v) i r

/-- The largest value of an object's type. -/
def Obj.max (o : Obj) : Nat := 2 ^ (8 * o.ty.bytes) - 1

/-- A counter raised; counters saturate at their type's largest value (R95, R219, R438, R504). -/
def State.bump (s : State) (o : Obj) (i : Nat := 0) (r : Nat := 0) (n : Nat := 1) : State :=
  s.setObjN o (satAdd o.max (s.objN o i r) n) i r

/-- A counter that wraps at its type's width (R26, R95). -/
def State.bumpWrap (s : State) (o : Obj) (i : Nat := 0) (r : Nat := 0) : State :=
  s.setObjN o ((s.objN o i r + 1) % (o.max + 1)) i r

/-- A gauge kept at the larger of its value and `v`. -/
def State.raiseTo (s : State) (o : Obj) (v : Nat) (i : Nat := 0) (r : Nat := 0) : State :=
  if s.objN o i r < v then s.setObjN o (min v o.max) i r else s

/-! ### Time -/

/-- The nanosecond time of the TREF counter, with its exact remainder (R519). -/
def nsOf (tref khz : Nat) : Nat := 1000000 * tref / khz

def State.now (s : State) : Nat := nsOf s.tref s.trefKhz

/-- Mode values of R21. -/
def Mode.num : Mode → Nat
  | .park => 0 | .openMode => 1 | .record => 2 | .recordBurst => 3
  | .review => 4 | .offload => 5 | .service => 6 | .sanitize => 7

/-- `dt` TREF cycles pass, charged to the mode in force (R20, R488 STAT_MODE_NS). -/
def State.elapse (s : State) (dt : Nat) : State :=
  { s.bump Obj.STAT_MODE_NS s.modes.current.num 0 (nsOf (s.tref + dt) s.trefKhz - s.now) with tref := s.tref + dt }

/-- The current raster position (R40). -/
def State.pos (s : State) : RPos := s.raster.pos

/-- A raster position packed as R40 states. -/
def RPos.pack (p : RPos) : Nat := p.epoch.toNat * 2 ^ 48 + p.frame.toNat * 2 ^ 16 + p.line.toNat

/-! ### Modes and units -/

def Mode.ofNum : Nat → Mode
  | 0 => .park | 1 => .openMode | 2 => .record | 3 => .recordBurst
  | 4 => .review | 5 => .offload | 6 => .service | _ => .sanitize

/-- RECORD, RECORD-BURST and REVIEW, the modes with an active orbit table (R22). -/
def Mode.orbit : Mode → Bool
  | .record | .recordBurst | .review => true
  | _ => false

/-- The orbit table in use: the active one, in a mode that runs it (R22, R50). -/
def State.orbitTable (s : State) : Option OrbitTable := if s.modes.current.orbit then s.orbit.active else none

/-- UNIT_CTRL of a unit (R119) and its fields. -/
def State.unitCtrl (s : State) (u : Nat) : Nat := s.objN Obj.UNIT_CTRL 0 u

def State.unitEnabled (s : State) (u : Nat) : Bool := tbit (s.unitCtrl u) 0
def State.unitPrivileged (s : State) (u : Nat) : Bool := tbit (s.unitCtrl u) 8
def State.unitRO (s : State) (u : Nat) : Bool := tbit (s.unitCtrl u) 9
def State.unitDecline (s : State) (u : Nat) : Bool := tbit (s.unitCtrl u) 10
def State.unitScheme (s : State) (u : Nat) : Nat := bits (s.unitCtrl u) 11 2
def State.unitGranule (s : State) (u : Nat) : Nat := bits (s.unitCtrl u) 13 2
def State.unitStripe (s : State) (u : Nat) : Nat := bits (s.unitCtrl u) 15 3
def State.unitClass (s : State) (u : Nat) : Nat := bits (s.unitCtrl u) 18 3
def State.unitOwner (s : State) (u : Nat) : Nat := bits (s.unitCtrl u) 21 3

/-- Sectors of a granule: 4, 16 or 64 (R119, R161). -/
def granuleSectors : Nat → Nat
  | 0 => 4 | 1 => 16 | _ => 64

def State.unitSectors (s : State) (u : Nat) : Nat := granuleSectors (s.unitGranule u)

/-- The width W of a stripe profile, its parity members, and its data members D (R119, R175). -/
def stripeWidth : Nat → Nat
  | 1 => 8 | 2 => 16 | 3 => 32 | 4 => 32 | _ => 1

def stripeParity : Nat → Nat
  | 0 => 0 | 4 => 2 | _ => 1

def stripeData (p : Nat) : Nat := stripeWidth p - stripeParity p

/-- The pool of a unit's granule buffers (R406). -/
def State.unitPool (s : State) (u : Nat) : Nat := s.unitGranule u + 1

/-- Numbers of the enabled units. -/
def State.enabledUnits (s : State) : List Nat := (List.range 16).filter fun u => s.unitEnabled u

/-- QUEUE_CFG of a queue (R100) and its fields. -/
def State.queueCfg (s : State) (q : Nat) : Nat := s.objN Obj.QUEUE_CFG q

def State.queueClass (s : State) (q : Nat) : Nat := bits (s.queueCfg q) 0 2
def State.queueKolile (s : State) (q : Nat) : Bool := tbit (s.queueCfg q) 2
def State.queueLocal (s : State) (q : Nat) : Bool := tbit (s.queueCfg q) 3
def State.queueEnabled (s : State) (q : Nat) : Bool := tbit (s.queueCfg q) 4
def State.queueNotice (s : State) (q : Nat) : Nat := bits (s.queueCfg q) 16 3
def State.queueRequester (s : State) (q : Nat) : Nat := bits (s.queueCfg q) 19 5

/-! ### Free values (log 8) -/

/-- A free number: nothing constrains it. -/
def State.freePick (s : State) : Nat := Config.freePick s.freeN

/-- The free value has been used. -/
def State.drawFree (s : State) : State := { s with freeN := s.freeN + 1 }

/-! ### Events -/

/-- What the SOURCE of a trouble-log event is (R497): 0 neither, 1 a die, 2 a channel, 3 a unit. -/
abbrev SrcKind := Nat

/-- An event raised in this core cycle (R493); it enters the event queue when the command ends. -/
def State.raiseEvent (s : State) (kind cls source detail : Nat) (srcKind : SrcKind := 0) : State :=
  { s with tlog := { s.tlog with raised := s.tlog.raised ++
      [{ kind, cls, source, detail, time := s.now, pos := s.pos, srcKind }] } }

/-- The class of an event kind (R494). -/
def eventClass (kind : Nat) : Nat :=
  if kind < 0x10 then 0 else if kind < 0x18 then 1 else if kind < 0x20 then 2 else if kind < 0x28 then 3
  else if kind < 0x30 then 4 else if kind < 0x38 then 5 else if kind < 0x40 then 6 else 7

/-- An event of R494 raised under its class. -/
def State.event (s : State) (kind source detail : Nat) (srcKind : SrcKind := 0) : State :=
  s.raiseEvent kind (eventClass kind) source detail srcKind

/-! ### Notices -/

/-- A body of fields placed in order, each at the next multiple of its size (R420); a field is (size, value). -/
def noticeBody (fields : List (Nat × Nat)) : List Byte :=
  fields.foldl (fun acc f => padTo (ceilDiv acc.length f.1 * f.1) acc ++ leBytes f.1 f.2) []

/-- A notice offered to a queue in this core cycle (R421, R422); it joins the offers when the command ends. -/
def State.offer (s : State) (kind queue cls source : Nat) (body : List Byte) (held : Bool := false)
    (cmd : Option Nat := none) (sender : Option Nat := none) : State :=
  { s with offered := s.offered ++
      [{ kind, queue, time := s.now, pos := s.pos, body, cls, held, source, cmd, sender }] }

/-- The queue that NQ_ROUTE names for a class (R440): 1 HEALTH, 2 RASTER, 3 LINK, 4 POWER, 5 BUFFER. -/
def State.routeOf (s : State) (cls : Nat) : Nat := bits (s.objN Obj.NQ_ROUTE) (3 * (cls - 1)) 3

/-- A notice that NQ_ROUTE routes by its class (R421). -/
def State.classNotice (s : State) (kind cls source : Nat) (fields : List (Nat × Nat)) : State :=
  s.offer kind (s.routeOf cls) cls source (noticeBody fields)

/-- A unit notice (R421): to the unit's OWNER, or by class HEALTH where the unit is unknown. -/
def State.unitNotice (s : State) (kind : Nat) (unit : Option Nat) (fields : List (Nat × Nat)) (held : Bool := false)
    (cmd : Option Nat := none) : State :=
  match unit with
  | some u => s.offer kind (s.unitOwner u) 0 u (noticeBody fields) held cmd
  | none => s.offer kind (s.routeOf 1) 0 0 (noticeBody fields) held cmd

/-! ### Memory -/

def State.memRead (s : State) (a n : Nat) : List Byte := Memory.read s.mem a n
def State.memNum (s : State) (a n : Nat) : Nat := Memory.num s.mem a n
def State.memWrite (s : State) (a : Nat) (bs : List Byte) : State := { s with mem := Memory.write s.mem a bs }
def State.memSetNum (s : State) (a n v : Nat) : State := { s with mem := Memory.setNum s.mem a n v }

/-! ### Outstanding commands -/

/-- Header bits lo + w − 1 : lo (R78). -/
def hbits (h : Header) (lo w : Nat) : Nat := bits h.toNat lo w

def Cmd.cid (c : Cmd) : Nat := hbits c.hdr 32 16
def Cmd.queue (c : Cmd) : Nat := hbits c.hdr 48 6
def Cmd.unit (c : Cmd) : Nat := hbits c.hdr 54 4
def Cmd.opcode (c : Cmd) : Nat := hbits c.hdr 64 8
def Cmd.ordered (c : Cmd) : Bool := tbit c.hdr.toNat 72
def Cmd.fua (c : Cmd) : Bool := tbit c.hdr.toNat 73
def Cmd.atomic (c : Cmd) : Bool := tbit c.hdr.toNat 74
def Cmd.waitBuf (c : Cmd) : Bool := tbit c.hdr.toNat 75
def Cmd.force (c : Cmd) : Bool := tbit c.hdr.toNat 76

/-- The range fields of R109. -/
def Cmd.lba (c : Cmd) : Nat := hbits c.hdr 96 40
def Cmd.nsect (c : Cmd) : Nat := hbits c.hdr 144 32
def Cmd.laddr (c : Cmd) : Nat := hbits c.hdr 192 64

/-- The media fields of R115. -/
def Cmd.ppa (c : Cmd) : Nat := hbits c.hdr 96 64
def Cmd.count (c : Cmd) : Nat := hbits c.hdr 160 16
def Cmd.tclass (c : Cmd) : Nat := hbits c.hdr 176 8
def Cmd.subop (c : Cmd) : Nat := hbits c.hdr 184 8

/-- The command that a codeword read serves directly. -/
def Purpose.owner : Purpose → Option Nat
  | .read st _ => some st
  | .scan st => some st
  | .gather st _ _ => some st
  | .raw st _ => some st
  | .blank st _ => some st
  | .replay st => some st
  | _ => none

def Cmd.isLocal (c : Cmd) : Bool := match c.path with
  | .lsw _ => true
  | .host => false

/-- Whether a command's completion has been decided (R133). -/
def Cmd.isEnded (c : Cmd) : Bool := match c.phase with
  | .ended .. => true
  | _ => false

def Cmd.isStarted (c : Cmd) : Bool := match c.phase with
  | .started | .accepted => true
  | _ => false

/-- Whether a queue reset leaves a started PURGE or SECURE_DISCARD its map update to finish (R151). -/
def Cmd.finishesMap (c : Cmd) : Bool := (c.opcode == 5 || c.opcode == 0x28) && c.isStarted && !c.mapDone

/-- Whether a command takes nothing more: it has ended, or a queue reset has given it up (R151). -/
def Cmd.over (c : Cmd) : Bool := c.isEnded || (c.aborted && !c.finishesMap)

def State.cmd? (s : State) (stamp : Nat) : Option Cmd := s.cmds.find? fun c => c.stamp == stamp

def State.updCmd (s : State) (stamp : Nat) (f : Cmd → Cmd) : State :=
  { s with cmds := s.cmds.map fun c => if c.stamp == stamp then f c else c }

/-- READ, WRITE, DISCARD, SECURE_DISCARD and PURGE have a range (R109, R128). -/
def hasRange (opcode : Nat) : Bool := opcode == 1 || opcode == 2 || opcode == 4 || opcode == 5 || opcode == 0x28

/-- The writers of R128. -/
def isWriter (opcode : Nat) : Bool := opcode == 2 || opcode == 4 || opcode == 5 || opcode == 0x28

/-- The maintenance opcodes of R116. -/
def isMaintenance (opcode : Nat) : Bool := 0x20 ≤ opcode && opcode ≤ 0x2B

/-- The opcodes of R110. -/
def isLogical (opcode : Nat) : Bool :=
  [1, 2, 3, 4, 5, 7, 8, 9, 0xA, 0xB].contains opcode

/-- First and last granule of a command's range (R128). -/
def State.granules (s : State) (c : Cmd) : Nat × Nat :=
  let n := s.unitSectors c.unit
  (c.lba / n, (c.lba + c.nsect - 1) / n)

/-- Whether two commands' widened ranges share a granule (R128). -/
def State.overlap (s : State) (a b : Cmd) : Bool :=
  hasRange a.opcode && hasRange b.opcode && a.unit == b.unit &&
    (let x := s.granules a
     let y := s.granules b
     x.1 ≤ y.2 && y.1 ≤ x.2)

/-- Two held entries conflict when they overlap and one of them is exclusive (R130). -/
def State.conflict (s : State) (a b : Cmd) : Bool :=
  s.overlap a b && (isWriter a.opcode || isWriter b.opcode)

/-- Whether a command waits behind an earlier conflicting entry (R130). -/
def State.lockBlocked (s : State) (c : Cmd) : Bool :=
  s.cmds.any fun d => d.stamp < c.stamp && d.locked && s.conflict d c

end Sys2Proof.Machine
end

