-- ==== Sys2Proof/Machine/Operands.lean ====
section
/-!
DEFINITION. Machine/Operands.lean: the operand forms: physical page addresses (R163), map entries (R162), ledger entries
(R185), superblock entries (R177), buffer handles (R407), die profiles (R395), capacity classes and stripe groups (R175).
-/

namespace Sys2Proof.Machine

open Sys2Proof

/-! ### Physical page addresses (R163) -/

def ppaDie (p : Nat) : Nat := bits p 54 10
def ppaPlane (p : Nat) : Nat := bits p 51 3
def ppaBlock (p : Nat) : Nat := bits p 35 16
def ppaPage (p : Nat) : Nat := bits p 19 16
def ppaCw (p : Nat) : Nat := bits p 16 3
def ppaClass (p : Nat) : Nat := bits p 12 4
def ppaCode (p : Nat) : Nat := bits p 8 2

def ppaOf (die plane block page cw cls code : Nat) : Nat :=
  die * 2 ^ 54 + plane * 2 ^ 51 + block * 2 ^ 35 + page * 2 ^ 19 + cw * 2 ^ 16 + cls * 2 ^ 12 + code * 2 ^ 8

/-- The erase block a PPA lies in. -/
def ppaBlk (p : Nat) : BlockAddr := { die := ppaDie p, plane := ppaPlane p, block := ppaBlock p }

/-- The channel of a die and its slot on it (R6). -/
def dieChannel (d : Nat) : Nat := d / 16
def dieSlot (d : Nat) : Nat := d % 16
def dieCluster (d : Nat) : Nat := d / 128

/-! ### Buffer handles (R406, R407) -/

def noBuf : Nat := 0xFFFFFFFF
def handleOf (pool index : Nat) : Nat := pool * 2 ^ 29 + index
def handlePool (h : Nat) : Nat := bits h 29 3
def handleIndex (h : Nat) : Nat := bits h 0 29

/-- Bytes of a pool's buffers (R406). -/
def poolBytes : Nat → Nat
  | 0 => 4096 | 1 => 16384 | 2 => 65536 | 3 => 262144 | _ => 1048576

/-- The DRAM address of a buffer (R406). -/
def State.bufAddr (s : State) (h : Nat) : Nat :=
  s.objN Obj.POOL_BASE (handlePool h) + handleIndex h * poolBytes (handlePool h)

/-! ### Map entries (R161, R162) -/

def entryState (e : Nat) : Nat := bits e 60 4
def entryLoc (e : Nat) : Nat := bits e 0 56 * 256
def entryTag (e : Nat) : Nat := bits e 32 28
def entryHandle (e : Nat) : Nat := bits e 0 32

def entryMedia (ppa : Nat) : Nat := 1 * 2 ^ 60 + ppa / 256
def entryBuffer (stamp handle : Nat) : Nat := 2 * 2 ^ 60 + stamp % 2 ^ 28 * 2 ^ 32 + handle
def entryDiscarded : Nat := 3 * 2 ^ 60

/-- The address of the entry of granule `g` (R161). -/
def State.mapAddr (s : State) (u g : Nat) : Nat := s.objN Obj.UNIT_MAP_BASE 0 u + 8 * g

def State.mapEntry (s : State) (u g : Nat) : Nat := s.memNum (s.mapAddr u g) 8

/-- The granules of a unit whose entry is listed in memory, in ascending order: an unlisted entry is UNMAPPED. -/
def State.listedGranules (s : State) (u : Nat) : List Nat :=
  let base := s.objN Obj.UNIT_MAP_BASE 0 u
  let n := s.objN Obj.UNIT_CAPACITY 0 u / s.unitSectors u
  s.mem.filterMap fun c => if base ≤ c.1 && c.1 < base + 8 * n && (c.1 - base) % 8 == 7 then some ((c.1 - base) / 8) else none

/-! ### The block ledger (R184 to R186) -/

structure LedgerEntry where
  state : Nat := 0
  weak : Bool := false
  cls : Nat := 0
  code : Nat := 0
  unit : Nat := 0
  eraseCount : Nat := 0
  eraseTime : Nat := 0
  valid : Nat := 0
  minLba : Nat := 0
  maxLba : Nat := 0
  sb : Nat := 0
  deriving DecidableEq, Repr

/-- The ledger states of R186. -/
def lsFactoryBad : Nat := 0
def lsFreeUnchecked : Nat := 1
def lsFreeReady : Nat := 2
def lsOpen : Nat := 3
def lsClosed : Nat := 4
def lsErasing : Nat := 5
def lsGrownBad : Nat := 6
def lsRetired : Nat := 7
def lsSystem : Nat := 8

def State.ledgerIndex (s : State) (b : BlockAddr) : Nat :=
  (b.die * s.objN Obj.LEDGER_PLANES + b.plane) * s.objN Obj.LEDGER_BLOCKS + b.block

def State.ledgerAddr (s : State) (b : BlockAddr) : Nat := s.objN Obj.LEDGER_BASE + 32 * s.ledgerIndex b

def ledgerRead (m : List Host.Cell) (a : Nat) : LedgerEntry :=
  let b0 := Memory.num m a 1
  let b1 := Memory.num m (a + 1) 1
  { state := bits b0 0 4, weak := tbit b0 4, cls := bits b1 0 3, code := bits b1 3 2,
    unit := bits (Memory.num m (a + 2) 1) 0 4, eraseCount := Memory.num m (a + 4) 4,
    eraseTime := Memory.num m (a + 8) 4, valid := Memory.num m (a + 12) 4, minLba := Memory.num m (a + 16) 5,
    maxLba := Memory.num m (a + 21) 5, sb := Memory.num m (a + 28) 4 }

def LedgerEntry.bytes (e : LedgerEntry) : List Byte :=
  leBytes 1 (e.state + flag e.weak 4) ++ leBytes 1 (e.cls + 8 * e.code) ++ leBytes 1 e.unit ++ leBytes 1 0
    ++ leBytes 4 e.eraseCount ++ leBytes 4 e.eraseTime ++ leBytes 4 e.valid ++ leBytes 5 e.minLba
    ++ leBytes 5 e.maxLba ++ leBytes 2 0 ++ leBytes 4 e.sb

def State.ledger (s : State) (b : BlockAddr) : LedgerEntry := ledgerRead s.mem (s.ledgerAddr b)

/-- A ledger entry written as one aligned 32-byte write (R187). -/
def State.setLedger (s : State) (b : BlockAddr) (e : LedgerEntry) : State := s.memWrite (s.ledgerAddr b) e.bytes

def State.updLedger (s : State) (b : BlockAddr) (f : LedgerEntry → LedgerEntry) : State :=
  s.setLedger b (f (s.ledger b))

/-- The block address of a ledger index. -/
def State.ledgerBlock (s : State) (i : Nat) : BlockAddr :=
  let nb := s.objN Obj.LEDGER_BLOCKS
  let np := s.objN Obj.LEDGER_PLANES
  { die := i / nb / np, plane := i / nb % np, block := i % nb }

/-- Every block whose ledger STATE byte is listed in memory; an unlisted entry reads FACTORY_BAD (R531, log 7). -/
def State.ledgerBlocks (s : State) : List BlockAddr :=
  let base := s.objN Obj.LEDGER_BASE
  let n := s.build.dies * s.objN Obj.LEDGER_PLANES * s.objN Obj.LEDGER_BLOCKS
  s.mem.filterMap fun c =>
    if base ≤ c.1 && c.1 < base + 32 * n && (c.1 - base) % 32 == 0 then some (s.ledgerBlock ((c.1 - base) / 32)) else none

/-! ### The superblock table (R177) -/

def State.sbAddr (s : State) (i : Nat) : Nat := s.objN Obj.SB_BASE + 576 * i
def State.sbField (s : State) (i off n : Nat) : Nat := s.memNum (s.sbAddr i + off) n
def State.setSbField (s : State) (i off n v : Nat) : State := s.memSetNum (s.sbAddr i + off) n v

def State.sbState (s : State) (i : Nat) : Nat := s.sbField i 0 1
def State.sbUnit (s : State) (i : Nat) : Nat := bits (s.sbField i 1 1) 0 4
def State.sbMaint (s : State) (i : Nat) : Bool := tbit (s.sbField i 1 1) 4
def State.sbProfile (s : State) (i : Nat) : Nat := s.sbField i 2 1
def State.sbClass (s : State) (i : Nat) : Nat := bits (s.sbField i 3 1) 0 3
def State.sbCode (s : State) (i : Nat) : Nat := bits (s.sbField i 3 1) 3 2
def State.sbGroup (s : State) (i : Nat) : Nat := s.sbField i 4 2
def State.sbWidth (s : State) (i : Nat) : Nat := s.sbField i 6 1
def State.sbZero (s : State) (i m : Nat) : Bool := tbit (s.sbField i 8 4) m
def State.sbNextWl (s : State) (i : Nat) : Nat := s.sbField i 12 2
def State.sbLostA (s : State) (i : Nat) : Nat := s.sbField i 16 1
def State.sbLostB (s : State) (i : Nat) : Nat := s.sbField i 17 1
def State.sbLostAWl (s : State) (i : Nat) : Nat := s.sbField i 18 2
def State.sbLostBWl (s : State) (i : Nat) : Nat := s.sbField i 20 2
def State.sbInterimPpa (s : State) (i : Nat) : Nat := s.sbField i 24 8
def State.sbInterimMask (s : State) (i : Nat) : Nat := s.sbField i 32 4
def State.sbReleaseSeq (s : State) (i : Nat) : Nat := s.sbField i 40 8
def State.sbBlock (s : State) (i m p : Nat) : Nat := s.sbField i (64 + 16 * m + 2 * p) 2

/-- Superblock states. -/
def sbFree : Nat := 0
def sbOpen : Nat := 1
def sbClosed : Nat := 2
def sbUnprotected : Nat := 3
def sbReleased : Nat := 4

/-- Indices of the superblocks that are not FREE, ascending: an unlisted STATE byte reads FREE. -/
def State.sbUsed (s : State) : List Nat :=
  let base := s.objN Obj.SB_BASE
  let n := s.objN Obj.SB_COUNT
  s.mem.filterMap fun c =>
    if base ≤ c.1 && c.1 < base + 576 * n && (c.1 - base) % 576 == 0 then some ((c.1 - base) / 576) else none

/-- The lowest FREE superblock entry. -/
def State.sbFirstFree (s : State) : Option Nat :=
  let used := s.sbUsed
  (List.range (used.length + 1)).find? fun i => !(used.contains i) && i < s.objN Obj.SB_COUNT

/-! ### Dies, classes and codes -/

def State.die (s : State) (d : Nat) : DieInfo := mapGetD s.dies d {}
def State.updDie (s : State) (d : Nat) (f : DieInfo → DieInfo) : State := { s with dies := mapUpd s.dies d {} f }

/-- DIE_STATE of a die (R233): 0 ABSENT, 1 PRESENT, 2 QUARANTINED, 3 FAILED. -/
def State.dieState (s : State) (d : Nat) : Nat := s.objN Obj.DIE_STATE (dieSlot d) (dieChannel d)
def State.diePresent (s : State) (d : Nat) : Bool := d < s.build.dies && s.dieState d == 1
def State.setDieState (s : State) (d v : Nat) : State := s.setObjN Obj.DIE_STATE v (dieSlot d) (dieChannel d)

def State.presentDies (s : State) : List Nat :=
  ((s.dies.map (·.1)).filter fun d => s.diePresent d)

def State.chan (s : State) (n : Nat) : Chan := mapGetD s.chans n {}
def State.updChan (s : State) (n : Nat) (f : Chan → Chan) : State := { s with chans := mapUpd s.chans n {} f }

/-- The active image of a die's cluster (R379). -/
def State.activeImage (s : State) (cluster : Nat) : List Byte := ((mapGetD s.clusters cluster {}).active).getD []

/-- The code words of a Forust image start after its header and directory (R397). -/
def imageCode (img : List Byte) : Nat := 64 + 16 * leAt img 18 2

/-- `n` bytes at `off` of the profile region at word `w` of an image (R395). -/
def profileField (img : List Byte) (w off n : Nat) : Nat := leAt img (imageCode img + 16 * w + off) n

/-- A field of a die's profile; 0 for a die with none. -/
def State.profile (s : State) (d off n : Nat) : Nat :=
  match (s.die d).profile with
  | some w => profileField (s.activeImage (dieCluster d)) w off n
  | none => 0

/-- Pages per program of a class on a die (R395); 0: the class is not run. -/
def State.diePpp (s : State) (d cls : Nat) : Nat := s.profile d (102 + cls) 1

/-- CLASS_CODE: the code of a class (R309). -/
def State.classCode (s : State) (cls : Nat) : Nat := bits (s.objN Obj.CLASS_CODE) (2 * cls) 2

/-- The built-in descriptor of a slot (R282): its stated fields, with entries and CODE_TAG free (log 8). -/
def builtinDesc (c : Nat) : List Byte :=
  let strong := decide (2 ≤ c)
  let z := 64
  let mb := if strong then 261 else 67
  let nb := if strong then 775 else 581
  let n := if strong then 2577 else 2189
  let head := leBytes 4 0x43444C52 ++ leBytes 2 1 ++ leBytes 2 0 ++ leBytes 2 z ++ leBytes 2 mb ++ leBytes 2 nb
    ++ leBytes 2 n ++ leBytes 4 0 ++ leBytes 4 (if strong then 24 else 0)
    ++ leBytes 2 (if strong then 6197 else 4648) ++ leBytes 1 (if strong then 3 else 4) ++ leBytes 1 0
    ++ leBytes 1 20 ++ leBytes 1 40 ++ leBytes 2 0 ++ leBytes 8 (Config.builtinTag c).toNat ++ List.replicate 20 0
  let es := ((List.range n).map fun i => leBytes 4 ((Config.builtinEntries c).getD i 0).toNat).flatten
  head ++ leBytes 4 (crc32c (head ++ es)) ++ es

/-- The descriptor in force in a code slot (R277). -/
def State.codeDesc (s : State) (c : Nat) : List Byte := mapGetD s.codes c (builtinDesc c)

/-- CW_PER_PAGE and STORED_BYTES of a slot; the built-in codes by R282's table. -/
def State.codePerPage (s : State) (c : Nat) : Nat :=
  match mapGet s.codes c with
  | some d => descPerPage d
  | none => if 2 ≤ c then 3 else 4

def State.codeStored (s : State) (c : Nat) : Nat :=
  match mapGet s.codes c with
  | some d => descStored d
  | none => if 2 ≤ c then 6197 else 4648

/-- Codewords per page of a class: 4 in classes 0, 1 and 3, 3 in classes 2 and 4 (R163, R282). -/
def classPerPage : Nat → Nat
  | 2 => 3 | 4 => 3 | _ => 4

/-- The reference geometry: that of the lowest-numbered die that passed checks 1 to 9 (R232). -/
def State.refDie (s : State) : Option DieInfo := (s.dies.find? fun d => d.2.planes != 0).map fun d => d.2

def State.pageBytes (s : State) : Nat := match s.refDie with
  | some d => d.pageBytes
  | none => 0

/-- Whether the code of a class fits it (R282). -/
def State.codeFits (s : State) (cls : Nat) : Bool :=
  let c := s.classCode cls
  s.codePerPage c == classPerPage cls && s.codeStored c * s.codePerPage c ≤ s.pageBytes

/-- Pages of an erase block that a class uses. A class-0 block has one page a wordline; the others the pages of the die
(R172, and the reference magazine of chapter 0). -/
def State.classPages (s : State) (d cls : Nat) : Nat :=
  let n := (s.die d).pages
  if cls == 0 then n / max 1 (s.die d).cellBits else n

/-- User sectors of a block at a class (R213). -/
def State.classSectors (s : State) (d cls : Nat) : Nat := s.classPages d cls * classPerPage cls

/-- Program units of a block set at a class: its rows (R178). -/
def State.classRows (s : State) (d cls : Nat) : Nat := s.classPages d cls / max 1 (s.diePpp d cls)

/-- Whether a die can run a class at all. -/
def State.dieRuns (s : State) (d cls : Nat) : Bool := s.diePpp d cls != 0

/-! ### Stripe groups (R175) -/

/-- The present dies of a channel, ascending. -/
def State.channelDies (s : State) (ch : Nat) : List Nat :=
  (List.range 16).filterMap fun k => if s.diePresent (ch * 16 + k) then some (ch * 16 + k) else none

/-- The dies of a channel that enumeration found, whatever has failed since: groups are re-formed only at enumeration. -/
def State.groupDies (s : State) (ch : Nat) : List Nat :=
  (List.range 16).filterMap fun k =>
    if (s.die (ch * 16 + k)).profile.isSome && (s.dieState (ch * 16 + k) == 1 || s.dieState (ch * 16 + k) == 3)
    then some (ch * 16 + k) else none

/-- Channel sets of a profile. -/
def State.channelSets (s : State) (prof : Nat) : Nat := s.build.channels / stripeWidth prof

/-- The member dies of group g of a profile, if the group exists (R175). -/
def State.groupMembers (s : State) (prof g : Nat) : Option (List Nat) :=
  let w := stripeWidth prof
  let k := s.channelSets prof
  if k = 0 then none
  else
    let j := g / k
    let st := g % k
    let ms := (List.range w).filterMap fun m => (s.groupDies (st * w + m))[j]?
    if ms.length = w then some ms else none

/-- Existing groups of a profile, ascending. -/
def State.groups (s : State) (prof : Nat) : List Nat :=
  (List.range (16 * s.channelSets prof)).filter fun g => (s.groupMembers prof g).isSome

/-- The member number of a die in a member list. -/
def memberOf (ms : List Nat) (d : Nat) : Option Nat := (List.range ms.length).find? fun i => ms[i]? == some d

/-! ### Rows and lanes (R172, R173, R178) -/

/-- Index of the P member among the n present members of row w. -/
def pIndex (n w : Nat) : Nat := n - 1 - w % n

/-- Index of the Q member with the 30+2 profile. -/
def qIndex (n w : Nat) : Nat := (2 * n - 2 - w % n) % n

/-- The parity members of a row among its present members: P, then Q under 30+2. -/
def parityMembers (prof : Nat) (present : List Nat) (w : Nat) : List Nat :=
  let n := present.length
  if n = 0 then []
  else if prof = 0 then []
  else if prof = 4 then [present.getD (pIndex n w) 0, present.getD (qIndex n w) 0]
  else [present.getD (pIndex n w) 0]

/-- Whether a member whose first lost row is `f` was lost before row w opened: in every later row, and in that row itself where no
row was open when it was lost (R178, R196). -/
def State.lostBefore (s : State) (i m f w : Nat) : Bool := f < w || (f == w && s.zeroFrom.contains (i, m))

/-- The present members of row w of a superblock: neither zero members at its opening nor lost before the row opened (R178). -/
def State.rowPresent (s : State) (i w : Nat) : List Nat :=
  (List.range (s.sbWidth i)).filter fun m =>
    !(s.sbZero i m) && !(s.sbLostA i == m && s.lostBefore i m (s.sbLostAWl i) w)
      && !(s.sbLostB i == m && s.lostBefore i m (s.sbLostBWl i) w)

/-- Whether member m holds data in row w. -/
def State.rowHoldsData (s : State) (i w m : Nat) : Bool :=
  let pres := s.rowPresent i w
  pres.contains m && !((parityMembers (s.sbProfile i) pres w).contains m)

/-- The member dies of a superblock; none for a number past the table, such as the 0xFFFF_FFFF of a block in none. -/
def State.sbDies (s : State) (i : Nat) : List Nat :=
  if s.objN Obj.SB_COUNT ≤ i then [] else (s.groupMembers (s.sbProfile i) (s.sbGroup i)).getD []

/-- Places of one lane in one row: pages per program × codewords per page. -/
def State.rowPlaces (s : State) (d cls : Nat) : Nat := s.diePpp d cls * classPerPage cls

/-- The `n` places of a lane that follow place `p` in data rows, from place `p` on: fuel bounds the walk (R173). -/
def State.nextPlaces (s : State) (i m perRow : Nat) : Nat → Nat → Nat → List Nat
  | 0, _, _ => []
  | _, _, 0 => []
  | fuel + 1, p, n + 1 =>
    if s.rowHoldsData i (p / perRow) m then p :: s.nextPlaces i m perRow fuel (p + 1) n
    else s.nextPlaces i m perRow fuel ((p / perRow + 1) * perRow) (n + 1)

/-- The PPA of place n of a lane of a superblock (R172). -/
def State.placePpa (s : State) (i m plane n : Nat) : Nat :=
  let cls := s.sbClass i
  let k := classPerPage cls
  ppaOf ((s.sbDies i).getD m 0) plane (s.sbBlock i m plane) (n / k) (n % k) cls (s.sbCode i)

/-- The place number of a PPA in its lane. -/
def ppaPlace (p : Nat) : Nat := ppaPage p * classPerPage (ppaClass p) + ppaCw p

/-- The PPAs of the codewords of a granule of `n` sectors whose first codeword lies at `p` (R173). A block that belongs to
no superblock carries consecutive places. -/
def State.granulePpas (s : State) (p n : Nat) : List Nat :=
  let b := ppaBlk p
  let e := s.ledger b
  let k := classPerPage (ppaClass p)
  let place := ppaPlace p
  let cont (x : Nat) : Nat :=
    ppaOf b.die b.plane b.block (x / k) (x % k) (ppaClass p) (ppaCode p)
  match memberOf (s.sbDies e.sb) b.die with
  | some m =>
    let perRow := s.rowPlaces b.die (s.sbClass e.sb)
    if perRow = 0 then (List.range n).map fun j => cont (place + j)
    else (s.nextPlaces e.sb m perRow (2 * n + 2 * perRow + 66) place n).map cont
  | none => (List.range n).map fun j => cont (place + j)

/-! ### Processors and pools -/

def State.proc (s : State) (p : Nat) : Proc := mapGetD s.procs p {}
def State.updProc (s : State) (p : Nat) (f : Proc → Proc) : State := { s with procs := mapUpd s.procs p {} f }
def State.pool (s : State) (p : Nat) : Pool := mapGetD s.pools p {}
def State.updPool (s : State) (p : Nat) (f : Pool → Pool) : State := { s with pools := mapUpd s.pools p {} f }
def State.nq (s : State) (q : Nat) : NoticeQ := mapGetD s.nqs q {}
def State.updNq (s : State) (q : Nat) (f : NoticeQ → NoticeQ) : State := { s with nqs := mapUpd s.nqs q {} f }
def State.ceChan (s : State) (c : Nat) : CeChan := mapGetD s.ce c {}
def State.updCe (s : State) (c : Nat) (f : CeChan → CeChan) : State := { s with ce := mapUpd s.ce c {} f }
def State.port (s : State) (n : Nat) : MpPort := mapGetD s.ports n {}
def State.updPort (s : State) (n : Nat) (f : MpPort → MpPort) : State := { s with ports := mapUpd s.ports n {} f }
def State.calDie (s : State) (d : Nat) : CalDie := mapGetD s.cal d {}
def State.updCal (s : State) (d : Nat) (f : CalDie → CalDie) : State := { s with cal := mapUpd s.cal d {} f }

/-- Profile flags: program suspend, erase suspend, temperature sensor (R395). -/
def State.dieFlag (s : State) (d i : Nat) : Bool := tbit (s.profile d 3 1) i

/-- The temperature of a die as the block knows it: its latest poll, or CAL_TEMP_EXT where no sensor is declared (R315). -/
def State.dieTemp (s : State) (d : Nat) : Int :=
  if s.dieFlag d 5 then (s.calDie d).tempNow else signedOf 8 (s.objN Obj.CAL_TEMP_EXT)

end Sys2Proof.Machine
end

