-- ==== Sys2Proof/Machine/CapacityOps.lean ====
section
/-!
DEFINITION. Machine/CapacityOps.lean: free block sets, spare figures, unit states and the SLC pool, computed from the
ledger and the open superblocks (R189, R213, R214, R219).
-/

namespace Sys2Proof.Machine

open Sys2Proof

/-- Blocks of a die and plane whose ledger state and class are as asked. -/
def State.blocksOf (s : State) (all : List BlockAddr) (d plane cls : Nat) (ready : Bool) : List BlockAddr :=
  all.filter fun b => b.die == d && b.plane == plane &&
    (let e := s.ledger b
     e.cls == cls && (e.state == lsFreeReady || (!ready && e.state == lsFreeUnchecked)) &&
       !(s.blockLocks.any fun l => l.1 == b))

/-- Block sets of a class free on a die: one block per plane, with equal numbers where the die asks for it (R176, R189). -/
def State.freeSets (s : State) (all : List BlockAddr) (d cls : Nat) (ready : Bool) : Nat :=
  let np := (s.die d).planes
  if np = 0 then 0
  else
    let lists := (List.range np).map fun p => s.blocksOf all d p cls ready
    if (s.die d).freeBlockNumbers then
      (lists.map List.length).foldl min ((lists.headD []).length)
    else
      ((lists.headD []).filter fun b => lists.all fun l => l.any fun x => x.block == b.block).length

/-- The block set the allocator hands out for a die and class: the lowest ERASE_COUNT of each plane, ties to the lowest
block number; or the block number whose highest ERASE_COUNT is lowest (R189). -/
def State.pickSet (s : State) (all : List BlockAddr) (d cls : Nat) : Option (List Nat) :=
  let np := (s.die d).planes
  if np = 0 then none
  else
    let lists := (List.range np).map fun p => s.blocksOf all d p cls true
    let wear (b : BlockAddr) : Nat := (s.ledger b).eraseCount * 65536 + b.block
    if (s.die d).freeBlockNumbers then
      let picks := lists.filterMap fun l => (minBy wear l).map (·.block)
      if picks.length = np then some picks else none
    else
      let cands := (lists.headD []).filter fun b => lists.all fun l => l.any fun x => x.block == b.block
      let worst (b : BlockAddr) : Nat :=
        ((List.range np).map fun p => (s.ledger { b with plane := p }).eraseCount).foldl max 0
      (minBy (fun b => worst b * 65536 + b.block) cands).map fun b => List.replicate np b.block

/-- The least-worn FREE_READY block of a class on a die, any plane (R183). -/
def State.pickOne (s : State) (all : List BlockAddr) (d cls : Nat) : Option BlockAddr :=
  minBy (fun b => ((s.ledger b).eraseCount * 65536 + b.block) * 8 + b.plane)
    (all.filter fun b => b.die == d &&
      (let e := s.ledger b
       e.cls == cls && e.state == lsFreeReady && !(s.blockLocks.any fun l => l.1 == b)))

/-- The family of a class: F0, F1, F2 (R213). -/
def classFamily : Nat → Nat
  | 0 => 0 | 1 => 1 | 2 => 1 | _ => 2

/-- Good capacity of a family in sectors (R213). -/
def State.goodSectors (s : State) (f : Nat) : Nat :=
  sumOf (s.ledgerBlocks.map fun b =>
    let e := s.ledger b
    if s.diePresent b.die && classFamily e.cls == f
        && !([lsFactoryBad, lsGrownBad, lsRetired, lsSystem].contains e.state)
    then s.classSectors b.die e.cls else 0)

/-- Committed capacity of a family in sectors (R213). -/
def State.committedSectors (s : State) (f : Nat) : Nat :=
  sumOf (s.enabledUnits.map fun u =>
    if classFamily (s.unitClass u) == f then
      s.objN Obj.UNIT_CAPACITY 0 u * stripeWidth (s.unitStripe u) / stripeData (s.unitStripe u)
    else 0)

/-- SPARE_PM of a family (R213). -/
def State.sparePm (s : State) (f : Nat) : Nat :=
  let c := s.committedSectors f
  if c = 0 then 65535 else min 65535 ((s.goodSectors f - c) * 1000 / c)

/-- The usable classes of a unit (R118). -/
def State.unitClasses (s : State) (u : Nat) : List Nat :=
  (List.range 5).filter fun c => tbit (s.objN Obj.UNIT_CLASS_MASK 0 u) c

/-- Whether a die is a member of a group of a profile: its channel lies in a channel set, every channel of which has as many dies
as its place on its own (R175). -/
def State.inGroup (s : State) (prof d : Nat) : Bool :=
  let w := stripeWidth prof
  let t := dieChannel d / w
  t < s.channelSets prof && (memberOf (s.groupDies (dieChannel d)) d).any fun j =>
    (List.range w).all fun m => j < (s.groupDies (t * w + m)).length

/-- The PRESENT dies of a unit's groups. -/
def State.unitDies (s : State) (u : Nat) : List Nat := s.presentDies.filter (s.inGroup (s.unitStripe u))

/-- The places of one lane in one row of an open superblock. -/
def State.sbPerRow (s : State) (sb : OpenSb) : Nat := s.rowPlaces (sb.members.headD 0) sb.cls

/-- Data places of an open superblock not yet written: those of the rows still to open, which zero members and members lost so far
have none in, and of the open row's data members that have not contributed (R178, R214, R219). -/
def State.unwritten (s : State) (sb : OpenSb) : Nat :=
  let data := (s.rowPresent sb.sb sb.nextWl).length - stripeParity sb.profile
  let open_ := match sb.row with
    | some r => (r.present.filter fun m => !((parityMembers sb.profile r.present r.wl).contains m) && !(r.failed.contains m)
        && !(r.contributed.contains m)).length
    | none => 0
  ((sb.wls - sb.nextWl) * data + open_) * sb.planes * s.sbPerRow sb

/-- Free capacity of a unit in sectors (R214). -/
def State.unitFreeSectors (s : State) (u : Nat) : Nat :=
  let all := s.ledgerBlocks
  let prof := s.unitStripe u
  let sets := sumOf ((s.unitDies u).map fun d => sumOf ((s.unitClasses u).map fun c =>
    s.freeSets all d c false * (s.die d).planes * s.classSectors d c))
  sets * stripeData prof / stripeWidth prof
    + sumOf ((s.sbs.filter fun sb => sb.unit == u).map s.unwritten)

/-- UNIT_FREE_MIB (R214). -/
def State.unitFreeMib (s : State) (u : Nat) : Nat :=
  if s.unitEnabled u then min 0xFFFFFFFF (s.unitFreeSectors u / 256) else 0

/-- UNIT_STATE (R214): the first that applies. -/
def State.unitState (s : State) (u : Nat) : Nat :=
  if !(s.unitEnabled u) then 0
  else
    let spare := s.sparePm (classFamily (s.unitClass u))
    if spare = 0 then 5
    else if s.walking || s.unitFreeSectors u * 4096 <
        s.objN Obj.UNIT_WCACHE_LIMIT 0 u + 1048576 * s.objN Obj.FULL_RESERVE_MIB then 4
    else if spare < s.objN Obj.SPARE_CRIT_PM then 3
    else if spare < s.objN Obj.SPARE_LOW_PM then 2
    else 1

/-- SLC_POOL_FREE in GiB (R219). -/
def State.slcPoolFree (s : State) : Nat :=
  let all := s.ledgerBlocks
  let sets := sumOf (s.presentDies.map fun d => s.freeSets all d 0 false * (s.die d).planes * s.classSectors d 0)
  let open_ := sumOf ((s.sbs.filter fun sb => sb.cls == 0).map s.unwritten)
  (sets + open_) * 4096 / 2 ^ 30

/-- The notice of an entry into UNIT_STATE 2 to 5 (R214). -/
def unitStateKind : Nat → Nat
  | 2 => 0x28 | 3 => 0x29 | 4 => 0x2A | _ => 0x2B

/-- Each entry into states 2 to 5 queues its notice; the first WRITE to complete OK after an entry into SPARE_LOW or
SPARE_CRITICAL carries OK_WITH_NOTICE (R214). -/
def State.unitWatch (before s : State) : State :=
  (List.range 16).foldl (fun acc u =>
    if !(s.unitEnabled u) then acc
    else
      let new := s.unitState u
      if new < 2 || before.unitState u == new then acc
      else
        let a1 := acc.unitNotice (unitStateKind new) (some u)
          [(1, u), (4, s.sparePm (classFamily (s.unitClass u))), (4, s.unitFreeMib u)]
        if new ≤ 3 then { a1 with slcOkOnce := distinct (a1.slcOkOnce ++ [u]) } else a1) s

end Sys2Proof.Machine
end

