-- ==== Sys2Proof/Machine/BufferOps.lean ====
section
/-!
DEFINITION. Machine/BufferOps.lean: the buffer pool manager's shared operations: descriptors (R408), quotas and reserves
(R410, R411), grants (R409, R412, R414), references and their checks (R414, R415).
-/

namespace Sys2Proof.Machine

open Sys2Proof

/-- A buffer descriptor (R408). -/
structure BufDesc where
  count : Nat := 0
  owner : Nat := 0
  alloc : Bool := false
  holders : Nat := 0
  tag : Nat := 0
  deriving DecidableEq, Repr

def State.descAddr (s : State) (h : Nat) : Nat :=
  s.objN Obj.POOL_DESC_BASE (handlePool h) + 16 * handleIndex h

def State.bufDesc (s : State) (h : Nat) : BufDesc :=
  let a := s.descAddr h
  let o := s.memNum (a + 1) 1
  { count := s.memNum a 1, owner := bits o 0 5, alloc := tbit o 7, holders := s.memNum (a + 4) 4,
    tag := bits (s.memNum (a + 8) 4) 0 28 }

def State.setBufDesc (s : State) (h : Nat) (d : BufDesc) : State :=
  s.memWrite (s.descAddr h)
    (leBytes 1 d.count ++ leBytes 1 (d.owner + flag d.alloc 7) ++ leBytes 2 0 ++ leBytes 4 d.holders ++ leBytes 4 d.tag
      ++ leBytes 4 0)

/-- The buffers of a pool that are out, each with its owner, read from the descriptor table. -/
def State.poolOut (s : State) (p : Nat) : List (Nat × Nat) :=
  let base := s.objN Obj.POOL_DESC_BASE p
  let n := s.objN Obj.POOL_COUNT p
  s.mem.filterMap fun c =>
    if base ≤ c.1 && c.1 < base + 16 * n && (c.1 - base) % 16 == 1 && tbit c.2.toNat 7
    then some ((c.1 - base) / 16, bits c.2.toNat 0 5) else none

/-- F(p), the free buffers of a READY pool (R411). -/
def State.poolFree (s : State) (p : Nat) : Nat :=
  if (s.pool p).ready then s.objN Obj.POOL_COUNT p - (s.poolOut p).length else 0

/-- H(r,p), the buffers of a pool a requester holds (R411). -/
def State.bufHeld (s : State) (r p : Nat) : Nat := ((s.poolOut p).filter fun x => x.2 == r).length

/-- A pool's 12-bit field of BUF_QUOTA, BUF_RESERVE or BUF_HELD (R439). -/
def poolField (x p : Nat) : Nat := bits x (12 * p) 12

/-- Whether the quota Q(r,p) leaves room; 4,095 is unlimited (R411, R439). -/
def State.underQuota (s : State) (r p : Nat) : Bool :=
  let q := poolField (s.objN Obj.BUF_QUOTA r) p
  q == 4095 || s.bufHeld r p < q

/-- V(r,p), a requester's reserve (R411). -/
def State.bufReserve (s : State) (r p : Nat) : Nat := poolField (s.objN Obj.BUF_RESERVE r) p

/-- The unused reserves of every requester but `r` (none: of all). -/
def State.otherReserve (s : State) (r : Option Nat) (p : Nat) : Nat :=
  sumOf ((List.range 32).map fun x => if r == some x then 0 else s.bufReserve x p - s.bufHeld x p)

/-- Whether a request by `r` for pool `p` can be granted (R411). -/
def State.canGrant (s : State) (r p : Nat) : Bool :=
  s.underQuota r p &&
    ((s.bufHeld r p < s.bufReserve r p && 1 ≤ s.poolFree p) || s.otherReserve (some r) p + 1 ≤ s.poolFree p)

/-- The n-th index below `count` that is not out; which free buffer a grant returns is free (R409, log 8). -/
def nthFree (out : List Nat) : Nat → Nat → Nat → Nat
  | 0, i, _ => i
  | fuel + 1, i, n =>
    if out.contains i then nthFree out fuel (i + 1) n
    else match n with
      | 0 => i
      | n + 1 => nthFree out fuel (i + 1) n

/-- A buffer granted: COUNT 1, OWNER the requester, ALLOC 1, HOLDERS 0 (R414). -/
def State.grantBuf (s : State) (r p : Nat) : State × Nat :=
  let out := (s.poolOut p).map (·.1)
  let f := s.poolFree p
  let i := nthFree out (out.length + f + 1) 0 (s.freePick % max 1 f)
  let h := handleOf p i
  ((s.drawFree).setBufDesc h { count := 1, owner := r, alloc := true }, h)

/-- The first check of R415 that an operation on a handle fails: 0x20 BAD_POINTER, 0x21 DOUBLE_FREE, 0x22
FOREIGN_FREE. -/
def State.bufCheck (s : State) (r h : Nat) (release : Bool) : Option Nat :=
  let p := handlePool h
  if 5 ≤ p || !(s.pool p).ready || s.objN Obj.POOL_COUNT p ≤ handleIndex h then some 0x20
  else
    let d := s.bufDesc h
    if !d.alloc then some 0x21
    else if release && d.owner != r && !(tbit d.holders r) then some 0x22
    else none

/-- A refusal of R415 counted, with its trouble-log event. -/
def State.bufRefuse (s : State) (kind r detail : Nat) : State :=
  let o := if kind == 0x20 then Obj.BUF_BAD_POINTER else if kind == 0x21 then Obj.BUF_DOUBLE_FREE else Obj.BUF_FOREIGN_FREE
  (s.bump o).event kind r detail

/-- A reference raised, whether it was (R414, R415). -/
def State.bufRaise (s : State) (r h : Nat) : State × Bool :=
  match s.bufCheck r h false with
  | some k => (s.bufRefuse k r h, false)
  | none =>
    let d := s.bufDesc h
    if d.count = 255 then (s.bump Obj.BUF_REF_FULL, false)
    else (s.setBufDesc h { d with count := d.count + 1, holders := setBits d.holders r 1 1 }, true)

/-- A reference dropped; at COUNT 0 the buffer returns to its pool with ALLOC 0 (R414, R415). -/
def State.bufDrop (s : State) (r h : Nat) (detail : Nat := h) : State × Bool :=
  match s.bufCheck r h true with
  | some k => (s.bufRefuse k r detail, false)
  | none =>
    let d := s.bufDesc h
    (s.setBufDesc h { d with count := d.count - 1, alloc := 1 < d.count }, true)

/-- The block's own releases (R416). -/
def State.releaseBuf (s : State) (r h : Nat) : State := (s.bufDrop r h).1

def State.releaseBufs (s : State) (r : Nat) (hs : List Nat) : State := hs.foldl (fun a h => a.releaseBuf r h) s

/-- The priority of a requester (R439). -/
def State.bufPrio (s : State) (r : Nat) : Nat := bits (s.objN Obj.BUF_QUOTA r) 60 2

/-- The winner among the requesters that ask a pool and can be granted: the highest priority, then the first above the
previous winner of that priority, wrapping from 31 to 0 (R412). -/
def State.bufWinner (s : State) (p : Nat) (asking : List Nat) : Option Nat :=
  let able := asking.filter fun r => s.canGrant r p
  let top := able.foldl (fun m r => max m (s.bufPrio r)) 0
  let last := (s.pool p).last.getD top 31
  minBy (fun r => (r + 31 - last) % 32) (able.filter fun r => s.bufPrio r == top)

/-- The last winner of the winner's priority in the pool. -/
def State.noteWinner (s : State) (p r : Nat) : State :=
  s.updPool p fun x => { x with last := x.last.set (s.bufPrio r) r }

/-- Whether a wait is over; a wait limit of 0 leaves the cycle of the request (R412, R438). -/
def State.waitOver (s : State) (w : BufReq) : Bool := w.limit.any fun l => w.since + l ≤ s.now && w.since < s.now

/-- Whether a request of this cycle by `r` wins against those that wait in time in the pool (R412). -/
def State.winsNow (s : State) (p r : Nat) : Bool :=
  s.bufWinner p (distinct (((s.pool p).waits.filter fun w => !(s.waitOver w)).map fun w => w.requester) ++ [r]) == some r

/-- A request joins the pool's wait list (R412). -/
def State.bufWait (s : State) (p r : Nat) (user : BufUser) (limit : Option Nat) : State :=
  s.updPool p fun x => { x with waits := x.waits ++ [{ requester := r, user, since := s.now, limit }] }

/-- Requests of given users withdrawn from every pool. -/
def State.dropWaits (s : State) (f : BufUser → Bool) : State :=
  { s with pools := s.pools.map fun p => (p.1, { p.2 with waits := p.2.waits.filter fun w => !(f w.user) }) }

/-- The wait limit of a command's draw: none with WAIT_BUF (R412). -/
def State.bufLimit (s : State) (r : Nat) (waitBuf : Bool) : Option Nat :=
  if waitBuf then none else some (s.objN Obj.BUF_WAIT_NS r)

/-- U(p) as seen by no requester (R421, POOL_LOW). -/
def State.poolUnreserved (s : State) (p : Nat) : Nat := s.poolFree p - s.otherReserve none p

/-- POOL_LOW queued each time U(p) falls below the low mark (R421); a mark raised above it, or a pool enabled below it, counts as
a fall (DESIGN CHOICE, log 254). -/
def State.poolWatch (s : State) (p : Nat) : State :=
  let mark := s.objN Obj.POOL_LOW_MARK p
  let below := (s.pool p).ready && 0 < mark && s.poolUnreserved p < mark
  if below == (s.pool p).low then s
  else
    let s1 := s.updPool p fun x => { x with low := below }
    if below then s1.classNotice 0x68 5 p [(1, p), (4, s.poolFree p)] else s1

end Sys2Proof.Machine
end

