-- ==== Sys2Proof/Machine/PortOps.lean ====
section
/-!
DEFINITION. Machine/PortOps.lean: putting requests on the memory ports under their credits (R511 to R517).
-/

namespace Sys2Proof.Machine

open Sys2Proof

/-- The port of a shared subsystem's traffic (R516). -/
def State.sharedPort (s : State) (addr : Nat) : Nat := addr / 4096 % s.build.clusters

/-- Requests of one direction outstanding on a port. -/
def MpPort.outstanding (p : MpPort) (write : Bool) : Nat := (p.out.filter fun r => r.write == write).length

/-- Write beats put for the oldest writes still missing some, while write-beat credits last (R513). -/
def putBeats (cr : Nat) : List MpReq → List MpReq × Nat
  | [] => ([], cr)
  | r :: rs =>
    let n := if r.write then min cr (r.beats - r.sent) else 0
    let rest := if r.write && r.sent + n < r.beats then (rs, cr - n) else putBeats (cr - n) rs
    ({ r with sent := r.sent + n } :: rest.1, rest.2)

/-- Commands put in order while command credits last and at most 256 requests of their direction are outstanding (R512,
R517), then write beats. -/
def pumpCommands : Nat → MpPort → MpPort
  | 0, p => p
  | fuel + 1, p =>
    match p.wait with
    | [] => p
    | r :: rs =>
      if p.cmdCr = 0 || 256 ≤ p.outstanding r.write then p
      else pumpCommands fuel { p with wait := rs, out := p.out ++ [r], cmdCr := p.cmdCr - 1 }

def MpPort.pump (p : MpPort) : MpPort :=
  let p1 := pumpCommands p.wait.length p
  let b := putBeats p1.wrCr p1.out
  { p1 with out := b.1, wrCr := b.2 }

/-- Whether a request serves RASTER traffic (R511). -/
def State.mpRaster (s : State) (u : MpUse) : Bool :=
  match u with
  | .localRead st | .localWrite st => (s.cmd? st).any fun c => s.queueClass c.queue == 0
  | _ => false

/-- MPn_CMD_ATTR of a request: URGENCY 3 marks RASTER traffic (R511); SERIAL, STREAM and the lower urgencies are hints that the
spec leaves to the block: free values (log 120). -/
def State.mpAttr (s : State) (u : MpUse) : Nat := s.freePick % 4 + 4 * (if s.mpRaster u then 3 else s.freePick / 4 % 3)

/-- A request handed to a port; its tag is the port's next. -/
def State.mpRequest (s : State) (port : Nat) (r : MpReq) : State :=
  s.drawFree.updPort port fun p =>
    ({ p with wait := p.wait ++ [{ r with tag := p.nextTag, attr := s.mpAttr r.use }], nextTag := (p.nextTag + 1) % 4096 } : MpPort).pump

/-- A read of `n` bytes in whole 64-byte beats from the aligned address below `addr`. -/
def State.mpReadReq (s : State) (port addr n : Nat) (use : MpUse) : State :=
  let a := addr / 64 * 64
  s.mpRequest port { tag := 0, write := false, addr := a, beats := max 1 (ceilDiv (addr + n - a) 64), use }

/-- A write of bytes in whole beats, other lanes masked off. -/
def State.mpWriteReq (s : State) (port addr : Nat) (bs : List Byte) (use : MpUse) : State :=
  let a := addr / 64 * 64
  let lead := addr - a
  let beats := max 1 (ceilDiv (lead + bs.length) 64)
  s.mpRequest port
    { tag := 0, write := true, addr := a, beats, use, data := padTo (64 * beats) (List.replicate lead 0 ++ bs),
      mask := (List.range (64 * beats)).map fun i => lead ≤ i && i < lead + bs.length }

/-- The enabled bytes of a write take effect (R515). -/
def MpReq.apply (r : MpReq) (m : List Host.Cell) : List Host.Cell :=
  (List.range r.data.length).foldl (fun acc i =>
    if r.mask.getD i true then Memory.write acc (r.addr + i) [byteAt r.data i] else acc) m

/-- A failed write may have written any subset of its enabled bytes (R514): which is free (log 8). -/
def MpReq.applySome (r : MpReq) (pick : Nat) (m : List Host.Cell) : List Host.Cell :=
  (List.range r.data.length).foldl (fun acc i =>
    if r.mask.getD i true && tbit pick i then Memory.write acc (r.addr + i) [byteAt r.data i] else acc) m

end Sys2Proof.Machine
end

