-- ==== Sys2Proof/Machine/CopyOps.lean ====
section
/-!
DEFINITION. Machine/CopyOps.lean: how a copy-engine channel reads its list, moves an element and stops (R430 to R437). A channel
has one request at a time; a burst of the destination is written once its source bytes are read, in the order of R433, so the
result is that of a copy through a temporary buffer; which channel's burst is next follows R434.
-/

namespace Sys2Proof.Machine

open Sys2Proof

/-- Group size of a swap mode (R432). -/
def swapGroup : Nat → Nat
  | 0 => 1 | 1 => 2 | _ => 4

/-- A byte stream swapped in groups counted from its first byte (R432). -/
def swapBytes (mode : Nat) : List Byte → List Byte
  | a :: b :: c :: d :: rest =>
    (match mode with
      | 1 => [b, a, d, c]
      | 2 => [d, c, b, a]
      | 3 => [c, d, a, b]
      | _ => [a, b, c, d]) ++ swapBytes mode rest
  | [a, b] => if mode = 1 then [b, a] else [a, b]
  | l => l

/-- The bytes of a fill (R430). -/
def fillBytes (pattern len : Nat) : List Byte := (List.range len).map fun i => BitVec.ofNat 8 (bits pattern (8 * (i % 4)) 8)

/-- Bytes of the aligned 256-byte burst at `addr` that lie within `left` bytes (R432). -/
def burstLen (addr left : Nat) : Nat := min left (256 - addr % 256)

/-- Undefined bytes (log 8). -/
def State.freeBytes (s : State) (n : Nat) : List Byte := (List.range n).map fun i => Config.freeByte (s.freeN * 2 ^ 32 + i)

/-- Whether an element is copied in descending address order: its ranges overlap and the destination lies above (R433). -/
def CeElem.down (e : CeElem) : Bool := !e.fill && decide (e.src < e.dst) && decide (e.dst < e.src + e.len)

/-- The next aligned burst of a range at `base`, of which `done` bytes are behind: its offset and its length (R432, R433). -/
def ceSpan (down : Bool) (base len done : Nat) : Nat × Nat :=
  if down then
    let top := base + len - done
    let low := max base ((top - 1) / 256 * 256)
    (low - base, top - low)
  else (done, burstLen (base + done) (len - done))

/-- The bytes of an element's source from offset `lo` to before `hi`, as far as they are read. -/
def CeElem.source (e : CeElem) (read : List Byte) (lo hi : Nat) : List Byte :=
  if e.fill then (fillBytes e.src hi).drop lo
  else (read.drop (if e.down then lo - (e.len - read.length) else lo)).take (hi - lo)

/-- The whole swap groups that a burst of the destination needs (R432). -/
def CeElem.groups (e : CeElem) (off n : Nat) : Nat × Nat :=
  let g := swapGroup e.swap
  (off / g * g, min e.len (ceilDiv (off + n) g * g))

/-- Whether the source bytes of an element's next burst of the destination have all been read. -/
def CeChan.canWrite (c : CeChan) (e : CeElem) : Bool :=
  let sp := ceSpan e.down e.dst e.len c.written
  let gr := e.groups sp.1 sp.2
  e.fill || (if e.down then e.len - gr.1 ≤ c.read.length else gr.2 ≤ c.read.length)

/-- A channel stops at a failure: references end, and of an element begun the bytes not yet written are undefined in its
destination (R435, R437). -/
def State.ceFail (s : State) (ch cause addr : Nat) : State :=
  let c := s.ceChan ch
  let s1 := match c.cur with
    | some e =>
      let a := s.releaseBufs 20 e.held
      if e.begun then
        (a.memWrite (if e.down then e.dst else e.dst + c.written) (s.freeBytes (e.len - c.written))).drawFree
      else a
    | none => s
  s1.updCe ch fun c => { c with ending := some (cause, addr), cur := none, ask := none }

/-- ABORT met at a burst boundary: no address fails, so CE_ERR_ADDR is a free value (R435, log 8). -/
def State.ceAborted (s : State) (ch : Nat) : State := (s.drawFree).ceFail ch 6 (s.freePick % 2 ^ 64)

/-- The next list entry is read (R431). -/
def State.ceNextEntry (s : State) (ch : Nat) : State :=
  match (s.ceChan ch).list with
  | some a => if a % 16 != 0 then s.ceFail ch 4 a else s.mpReadReq (s.sharedPort a) a 16 (.ceRead ch)
  | none => s.updCe ch fun c => { c with ending := some (0, 0), cur := none }

/-- The element in work has been written whole: its references end, the counters rise, ELEM and the next element follow
(R431, R437). -/
def State.ceElementDone (s : State) (ch : Nat) (e : CeElem) : State :=
  let s1 := (s.releaseBufs 20 e.held).updCe ch fun c =>
    { c with cur := none, read := [], written := 0, elem := c.elem || e.int,
             elements := if c.list.isSome then satAdd 0xFFFFFFFF c.elements 1 else c.elements,
             list := if e.last then none else c.list }
  s1.ceNextEntry ch

/-- An element's next burst asks for its slot (R434); with none left the element is done. -/
def State.ceMove (s : State) (ch : Nat) (e : CeElem) : State :=
  if (s.ceChan ch).written < e.len then s.updCe ch fun c => { c with ask := some s.now } else s.ceElementDone ch e

/-- A channel served at a slot: it writes its next burst once the source bytes of it are read, and reads on until then (R432). -/
def State.ceBurst (s : State) (ch : Nat) (e : CeElem) : State :=
  let c := s.ceChan ch
  let s1 := s.updCe ch fun c => { c with ask := none }
  if c.canWrite e then
    let sp := ceSpan e.down e.dst e.len c.written
    let gr := e.groups sp.1 sp.2
    let out := swapBytes e.swap (e.source c.read gr.1 gr.2)
    s1.mpWriteReq (s.sharedPort (e.dst + sp.1)) (e.dst + sp.1) ((out.drop (sp.1 - gr.1)).take sp.2) (.ceWrite ch)
  else
    let sp := ceSpan e.down e.src e.len c.read.length
    s1.mpReadReq (s.sharedPort (e.src + sp.1)) (e.src + sp.1) sp.2 (.ceRead ch)

/-- The channels whose next burst waits for a slot of one side, each with its element. -/
def State.ceAsking (s : State) (write : Bool) : List (Nat × Nat × CeElem) :=
  s.ce.filterMap fun x => match x.2.ask, x.2.cur with
    | some t, some e => if x.2.canWrite e == write then some (x.1, t, e) else none
    | _, _ => none

/-- A channel's slots in a round: 2^PRIO (R434). -/
def State.ceWeight (s : State) (ch : Nat) : Nat := 2 ^ bits (s.ceChan ch).ctrl 8 2

/-- The channel that a slot serves among those that can use it, and the slots spent in the round before it: the first above the
channel served last that has slots left in this round; where none has, a new round begins (R434; DEDUCED, log 107). -/
def State.ceTurn (s : State) (d : CeSide) (able : List Nat) : Option Nat × NMap Nat :=
  let left := able.filter fun c => mapGetD d.spent c 0 < s.ceWeight c
  let order (c : Nat) : Nat := (c + 15 - d.last) % 16
  if left.isEmpty then (minBy order able, []) else (minBy order left, d.spent)

/-- One slot of a side, if it has come: 4 core cycles, 10 thirds of a ns, after the one before, and no earlier than the first
burst that asks for one (R434; log 107). -/
def State.ceSlot (s : State) (write : Bool) : State :=
  let d := if write then s.ceSlots.wr else s.ceSlots.rd
  let asking := s.ceAsking write
  match minBy (fun x => x.2.1) asking with
  | none => s
  | some first =>
    let at_ := max d.next (3 * first.2.1)
    let able := asking.filter fun x => 3 * x.2.1 ≤ at_
    let turn := s.ceTurn d (able.map fun x => x.1)
    match able.find? fun x => turn.1 == some x.1 with
    | none => s
    | some (ch, _, e) =>
      if 3 * s.now < at_ then s
      else
        let d1 : CeSide := { next := at_ + 10, spent := mapUpd turn.2 ch 0 fun k => k + 1, last := ch }
        ({ s with ceSlots := if write then { s.ceSlots with wr := d1 } else { s.ceSlots with rd := d1 } }).ceBurst ch e

/-- Every slot that has come, each serving one burst that waits; a channel has one at a time. -/
def State.ceServe (s : State) : State :=
  (List.range 16).foldl (fun a _ => (a.ceSlot false).ceSlot true) s

/-- A HANDLE entry's check: the handle by R415, and offset + length within its buffer (R435, cause 3). -/
def State.ceHandleOk (s : State) (h len : Nat) : Bool :=
  (s.bufCheck 20 (bits h 0 32) false).isNone && bits h 32 32 + len ≤ poolBytes (handlePool (bits h 0 32))

/-- The address a HANDLE names. -/
def State.ceHandleAddr (s : State) (h : Nat) : Nat := s.bufAddr (bits h 0 32) + bits h 32 32

/-- A failed HANDLE entry: a handle that R415 refuses is counted there too. -/
def State.ceBadHandle (s : State) (ch h at_ : Nat) : State :=
  let s1 := match s.bufCheck 20 (bits h 0 32) false with
    | some k => s.bufRefuse k 20 (bits h 0 32)
    | none => s
  s1.ceFail ch 3 at_

/-- An element before its first access: causes 3 and 5, then its references; a buffer whose COUNT has no room makes the channel
wait, counted once (R414, R435, R437). The swap of a register transfer has no entry, so the address of its cause 5 is a free
value (log 8). -/
def State.ceBegin (s : State) (ch : Nat) (e : CeElem) (first : Bool) : State :=
  let named := e.srcHandle.toList ++ e.dstHandle.toList
  let hs := named.map fun h => bits h 0 32
  let full (h : Nat) : Bool := 255 < (s.bufDesc h).count + (hs.filter fun x => x == h).length
  match e.srcHandle.filter (fun h => !(s.ceHandleOk h e.len)), e.dstHandle.filter (fun h => !(s.ceHandleOk h e.len)) with
  | some h, _ => s.ceBadHandle ch h e.srcAt
  | none, some h => s.ceBadHandle ch h e.dstAt
  | none, none =>
    if e.swap != 0 && e.len % swapGroup e.swap != 0 then
      if (s.ceChan ch).list.isSome then s.ceFail ch 5 e.srcAt else (s.drawFree).ceFail ch 5 (s.freePick % 2 ^ 64)
    else if hs.any full then (if first then s.bump Obj.BUF_REF_FULL else s)
    else
      let s1 := hs.foldl (fun a h => (a.bufRaise 20 h).1) s
      let e1 := { e with begun := true, held := hs
                         src := (e.srcHandle.map s.ceHandleAddr).getD e.src
                         dst := (e.dstHandle.map s.ceHandleAddr).getD e.dst }
      (s1.updCe ch fun c => { c with cur := some e1, read := [], written := 0 }).ceMove ch e1

/-- A list entry read at `a`: address, length and flags (R431). -/
def State.ceEntry (s : State) (ch a addr len flags : Nat) : State :=
  let c := s.ceChan ch
  let kind := bits flags 28 2
  let handle := if tbit flags 27 then some addr else none
  let s1 := s.updCe ch fun c => { c with list := some (a + 16) }
  if tbit flags 26 || bits flags 0 24 != 0 then s.ceFail ch 4 a
  else match kind, c.cur with
    | 3, _ =>
      if len != 0 || addr % 16 != 0 then s.ceFail ch 4 a
      else (s.updCe ch fun c => { c with list := some addr }).ceNextEntry ch
    | 1, some e =>
      if len != 0 && len != e.len then s.ceFail ch 4 a
      else
        let e1 := { e with dst := addr, dstHandle := handle, dstAt := a, int := tbit flags 30, last := tbit flags 31,
                           paired := true }
        (s1.updCe ch fun c => { c with cur := some e1 }).ceBegin ch e1 true
    | 1, none => s.ceFail ch 4 a
    | _, some _ => s.ceFail ch 4 a
    | _, none =>
      let e : CeElem := { fill := kind == 2, src := if kind = 2 then bits addr 0 32 else addr, len, swap := bits flags 24 2,
                          srcHandle := if kind = 2 then none else handle, srcAt := a }
      (s1.updCe ch fun c => { c with cur := some e }).ceNextEntry ch

/-- A read of the channel came back (R431, R435). -/
def State.ceGotRead (s : State) (ch : Nat) (r : MpReq) (data : List Byte) (bad : Bool) : State :=
  let c := s.ceChan ch
  match c.cur.filter (fun e => e.paired), c.list with
  | some e, _ =>
    let sp := ceSpan e.down e.src e.len c.read.length
    let pos := e.src + sp.1
    if bad then s.ceFail ch 1 pos
    else if c.abort then s.ceAborted ch
    else
      let got := padTo sp.2 ((data.drop (pos - r.addr)).take sp.2)
      (s.updCe ch fun c => { c with read := if e.down then got ++ c.read else c.read ++ got }).ceMove ch e
  | none, some a =>
    if bad then s.ceFail ch 1 a
    else if c.abort then s.ceAborted ch
    else s.ceEntry ch a (leAt data (a - r.addr) 8) (leAt data (a - r.addr + 8) 4) (leAt data (a - r.addr + 12) 4)
  | none, none => s

/-- A write of the channel was acknowledged (R435, R436). -/
def State.ceGotAck (s : State) (ch : Nat) (bad : Bool) : State :=
  let c := s.ceChan ch
  match c.cur with
  | some e =>
    let sp := ceSpan e.down e.dst e.len c.written
    let n := sp.2
    if bad then s.ceFail ch 2 (e.dst + sp.1)
    else
      let s1 := s.updCe ch fun c => { c with written := c.written + n, doneBytes := c.doneBytes + n }
      if c.abort && c.written + n < e.len then s1.ceAborted ch
      else if c.abort && !e.last && c.list.isSome then
        (s1.updCe ch fun c => { c with elem := c.elem || e.int, elements := satAdd 0xFFFFFFFF c.elements 1 }).ceAborted ch
      else s1.ceMove ch e
  | none => s

/-- A channel between two bursts: one that waits for room in a buffer's COUNT tries again; one that waits there or for a slot
meets its ABORT (R414, R435). -/
def State.ceRetry (s : State) (ch : Nat) : State :=
  let c := s.ceChan ch
  match c.cur.filter (fun e => e.paired && (!e.begun || c.ask.isSome)) with
  | some e => if c.abort then s.ceAborted ch else if e.begun then s else s.ceBegin ch e false
  | none => s

def State.ceRetryAll (s : State) : State := ((s.ce.map fun c => c.1).foldl State.ceRetry s).ceServe

/-- A transfer ends with DONE or ERR; with NOTICE its COPY_DONE is queued (R436). -/
def State.ceEnd (s : State) (ch : Nat) : State :=
  match (s.ceChan ch).ending with
  | none => s
  | some (cause, addr) =>
    let s1 := s.updCe ch fun c =>
      { c with busy := false, ending := none, abort := false, cur := none, list := none, read := [], written := 0,
               ask := none, done := c.done || cause == 0, err := c.err || cause != 0, cause,
               errAddr := if cause = 0 then c.errAddr else addr }
    let c := s1.ceChan ch
    if tbit c.ctrl 12 then
      s1.offer 0x70 (bits c.ctrl 13 3) 6 ch (noticeBody [(1, ch),
        (4, flag c.busy 0 + flag c.done 1 + flag c.err 2 + flag c.elem 3 + c.cause * 2 ^ 16), (4, c.elements), (8, c.doneBytes)])
    else s1

/-- A channel started by a write of START with `v` (R430): a list transfer reads its first entry, a register transfer begins;
one of length 0 completes at once. -/
def State.ceStart (s : State) (ch v : Nat) : State :=
  let s1 := s.updCe ch fun c =>
    { c with busy := true, ctrl := setBits (setBits v 0 1 0) 2 1 0, cause := 0, doneBytes := 0, elements := 0,
             abort := tbit v 2, ask := none, read := [], written := 0, cur := none, list := none }
  if tbit v 1 then
    (s1.updCe ch fun c => { c with list := some (s.objN Obj.CE_LIST 0 ch) }).ceNextEntry ch
  else
    let len := s.objN Obj.CE_LEN 0 ch
    let src := s.objN Obj.CE_SRC 0 ch
    let e : CeElem := { fill := tbit v 5, src := if tbit v 5 then bits src 0 32 else src, dst := s.objN Obj.CE_DST 0 ch, len,
                        swap := bits v 6 2, paired := true }
    if len = 0 then (s1.updCe ch fun c => { c with ending := some (0, 0) }).ceEnd ch
    else (s1.updCe ch fun c => { c with cur := some e }).ceBegin ch e true

end Sys2Proof.Machine
end

