-- ==== Sys2Proof/Machine/NoticeOps.lean ====
section
/-!
DEFINITION. Machine/NoticeOps.lean: how notices become words and move through the three stages of a notice queue
(R418 to R425, R428).
-/

namespace Sys2Proof.Machine

open Sys2Proof

/-- The payload of a notice: time, position, body (R420). -/
def Notice.payload (n : Notice) : List Byte := leBytes 8 n.time ++ leBytes 8 n.pos.pack ++ n.body

/-- Words a notice takes (R420). -/
def Notice.words (n : Notice) : Nat := ceilDiv (16 + n.body.length) 12

/-- A word: its control field and its 12 payload bytes (R419). -/
def noticeWord (ctl : Nat) (pay : List Byte) : BitVec 128 :=
  BitVec.ofNat 128 (ctl + 2 ^ 32 * leNat (padTo 12 pay))

/-- The control field of word `i` of `n` (R419). -/
def wordCtl (kind nseq i n : Nat) : Nat :=
  flag true 31 + flag (i + 1 == n) 30 + flag (i == 0) 29 + i % 16 * 2 ^ 24 + nseq % 256 * 2 ^ 16 + kind % 65536

/-- The words of a notice with its sequence number. -/
def Notice.frame (n : Notice) (nseq : Nat) : List (BitVec 128) :=
  (List.range n.words).map fun i => noticeWord (wordCtl n.kind nseq i n.words) ((n.payload.drop (12 * i)).take 12)

/-- A pennant (R422). -/
def pennantWord (dropped first mask nseq : Nat) : BitVec 128 :=
  noticeWord (0xF0000000 + nseq % 256 * 2 ^ 16 + 0xFFFF) (leBytes 4 dropped ++ leBytes 4 first ++ leBytes 4 mask)

def wordEnd (w : BitVec 128) : Bool := tbit w.toNat 30

/-- NQ_CFG and its fields (R441). -/
def State.nqCfg (s : State) (q : Nat) : Nat := s.objN Obj.NQ_CFG q
def State.nqEnabled (s : State) (q : Nat) : Bool := tbit (s.nqCfg q) 14
def State.nqReader (s : State) (q : Nat) : Nat := bits (s.nqCfg q) 17 3
def State.nqLevel (s : State) (q : Nat) : Nat := bits (s.nqCfg q) 0 8

/-- Words of the spill ring: none when RING_LOG2 is 0, or while the ring is out of use after an error (R418, R428). -/
def State.nqRing (s : State) (q : Nat) : Nat :=
  let l := bits (s.nqCfg q) 20 4
  if l = 0 || (s.nq q).ringOff then 0 else 2 ^ l

/-- Words a queue holds, and its free words (R418). -/
def NoticeQ.held_words (n : NoticeQ) : Nat := n.head.length + n.ring.length + n.tail.length
def State.nqFree (s : State) (q : Nat) : Nat := 64 + s.nqRing q - (s.nq q).held_words

/-- NQ_WORDS and NQ_PACKETS: the words and END words in the tail stage (R425). -/
def NoticeQ.readable (n : NoticeQ) : Nat := n.tail.length
def NoticeQ.packets (n : NoticeQ) : Nat := (n.tail.filter wordEnd).length

def wordBytes (w : BitVec 128) : List Byte := leBytes 16 w.toNat

/-- One burst of `k` words from the head stage into the ring (R418). -/
def State.nqBurst (s : State) (q k : Nat) : State :=
  let n := s.nq q
  let ws := n.head.take k
  let addr := s.objN Obj.NQ_RING_BASE q + 16 * n.ringWr
  let s1 := s.updNq q fun n => { n with head := n.head.drop k, ring := n.ring ++ ws, ringWait := n.ringWait + 1,
                                        ringWr := (n.ringWr + k) % max 1 (s.nqRing q) }
  s1.mpWriteReq (s.sharedPort addr) addr (ws.map wordBytes).flatten (.ring q)

/-- `k` words written into the ring, in two bursts where its end lies between them (R418). -/
def State.nqSpill (s : State) (q k : Nat) : State :=
  let here := min k (s.nqRing q - (s.nq q).ringWr)
  let s1 := if here = 0 then s else s.nqBurst q here
  if here < k then s1.nqBurst q (k - here) else s1

/-- Words move on: straight from head to tail while the ring and the path into it are empty; otherwise full bursts into
the ring, and the ring refills the tail whenever it has 16 free words (R418). -/
def State.nqAdvance (s : State) (q : Nat) : State :=
  let n := s.nq q
  let s1 := if n.ring.isEmpty && n.ringRead.isNone && n.ringWait == 0 then
      let k := min n.head.length (32 - n.tail.length)
      s.updNq q fun n => { n with tail := n.tail ++ n.head.take k, head := n.head.drop k, moved := n.moved + k }
    else s
  let n1 := s1.nq q
  let s2 := if 16 ≤ n1.head.length && n1.ring.length + 16 ≤ s1.nqRing q then s1.nqSpill q 16 else s1
  let n2 := s2.nq q
  if !n2.ring.isEmpty && n2.ringRead.isNone && n2.ringWait == 0 && n2.tail.length + 16 ≤ 32 then
    let k := min (min 16 n2.ring.length) (max 1 (s2.nqRing q - n2.ringRd))
    let addr := s2.objN Obj.NQ_RING_BASE q + 16 * n2.ringRd
    (s2.updNq q fun n => { n with ringRead := some k }).mpReadReq (s2.sharedPort addr) addr (16 * k) (.ring q)
  else s2

/-- Words enter the head stage. -/
def State.nqEnter (s : State) (q : Nat) (ws : List (BitVec 128)) : State :=
  (s.updNq q fun n => { n with head := n.head ++ ws, lastWord := s.now }).nqAdvance q

/-- A pending pennant enters as soon as one word is free, before any notice (R422). -/
def State.nqPennant (s : State) (q : Nat) : State :=
  match (s.nq q).pennant with
  | some (dropped, first, mask) =>
    if 1 ≤ s.nqFree q then
      (s.updNq q fun n => { n with pennant := none }).nqEnter q [pennantWord dropped first mask first]
    else s
  | none => s

/-- The next NSEQ of a queue, which every notice offered receives (R422). -/
def State.nqNextSeq (s : State) (q : Nat) : State :=
  s.updNq q fun n => { n with seq := (n.seq + 1) % 2 ^ 32 }

/-- A dropped notice counted; with `mark` the queue's pennant takes it in (R422, R423). -/
def State.nqDrop (s : State) (q nseq cls : Nat) (mark : Bool) : State :=
  let s1 := s.bump Obj.NQ_DROPPED q
  if mark then
    s1.updNq q fun n => { n with pennant := some (match n.pennant with
      | some (d, f, m) => (satAdd 0xFFFFFFFF d 1, f, setBits m cls 1 1)
      | none => (1, nseq, 2 ^ cls)) }
  else s1

/-- Whether a notice of `k` words can enter now (R422, R423). -/
def State.nqFits (s : State) (q k : Nat) : Bool :=
  s.nqEnabled q && k ≤ s.nqFree q && (s.nq q).pennant.isNone && (s.nq q).held.isEmpty

/-- What entering a queue settles: a command whose COMMAND_DONE is queued ends (R125, R133). -/
def State.noticeEntered (s : State) (n : Notice) : State :=
  match n.kind, n.cmd with
  | 1, some st => { s with cmds := s.cmds.filter fun c => c.stamp != st }
  | _, _ => s

/-- A notice taken by its queue: it enters, is held with its place in line, or is dropped (R422, R423). -/
def State.nqTake (s : State) (n : Notice) : State :=
  let q := n.queue
  let s0 := s.nqPennant q
  let nseq := (s0.nq q).seq
  let s1 := s0.nqNextSeq q
  if s1.nqFits q n.words then (s1.nqEnter q (n.frame nseq)).noticeEntered n
  else if n.held then s1.updNq q fun x => { x with held := x.held ++ [(nseq, n)] }
  else s1.nqDrop q nseq n.cls (s1.nqEnabled q)

/-- A waiting held notice enters when its words fit and no pennant is pending (R423). -/
def State.nqEnterHeld (s : State) (q : Nat) : State :=
  let s0 := s.nqPennant q
  match (s0.nq q).held with
  | (nseq, n) :: rest =>
    if s0.nqEnabled q && n.words ≤ s0.nqFree q && (s0.nq q).pennant.isNone then
      ((s0.updNq q fun x => { x with held := rest }).nqEnter q (n.frame nseq)).noticeEntered n
    else s0
  | [] => s0

end Sys2Proof.Machine
end

