-- ==== Sys2Proof/Machine/IntOps.lean ====
section
/-!
DEFINITION. Machine/IntOps.lean: the interrupt controller's shared operations: requests and item counts (R444), coalescing
groups (R455, R456), eligibility (R448) and the request lines (R449).
-/

namespace Sys2Proof.Machine

open Sys2Proof

/-- The key of source `id` as processor `p` names it: private sources 480 to 511 are banked (R445, R446). -/
def intKey (p id : Nat) : Nat := if id < 480 then id else 512 + 32 * p + (id - 480)

/-- The source ID of a key. -/
def keyId (k : Nat) : Nat := if k < 512 then k else 480 + (k - 512) % 32

/-- INT_CFG of a key, without its live bits (R446). -/
def State.intCfg (s : State) (k : Nat) : Nat := (mapGetD s.ints.cfg k 0).toNat

def State.intEnabled (s : State) (k : Nat) : Bool := tbit (s.intCfg k) 0
def State.intPrio (s : State) (k : Nat) : Nat := bits (s.intCfg k) 8 4
def State.intCoalesce (s : State) (k : Nat) : Bool := tbit (s.intCfg k) 23
def State.intGroup (s : State) (k : Nat) : Nat := bits (s.intCfg k) 18 5

/-- The processor a source targets; a private source its own (R445). -/
def State.intTarget (s : State) (k : Nat) : Nat := if k < 512 then bits (s.intCfg k) 13 3 else (k - 512) / 32 % 8

/-- Whether a copy-engine channel asserts its source (R436). -/
def CeChan.asserted (c : CeChan) : Bool := c.done || c.err || c.elem

/-- Whether a source's request is asserted (R444, R426, R436). -/
def State.intAsserted (s : State) (k : Nat) : Bool :=
  if k < 8 then s.nqLevel k ≤ (s.nq k).packets && 0 < (s.nq k).packets
  else if k < 16 then false
  else if k < 32 then (s.ceChan (k - 16)).asserted
  else if k = 34 then s.prot.pfail
  else s.ints.latches.contains k

/-- The item count of a source whose request is asserted (R444). -/
def State.intItems (s : State) (k : Nat) : Nat :=
  if s.intAsserted k then (if k < 8 then (s.nq k).packets else 1) else 0

/-- The member sources of a group (R446). -/
def State.groupSources (s : State) (g : Nat) : List Nat :=
  (s.ints.cfg.map (·.1)).filter fun k => s.intCoalesce k && s.intGroup k == g

/-- The items of a group (R455). -/
def State.groupItems (s : State) (g : Nat) : Nat := sumOf ((s.groupSources g).map s.intItems)

def State.coal (s : State) (g : Nat) : Coal := mapGetD s.ints.coal g {}

/-- INT_COAL of a group (R454). -/
def State.coalCfg (s : State) (g : Nat) : Nat := s.objN Obj.INT_COAL g
def State.coalTarget (s : State) (g : Nat) : Nat := bits (s.coalCfg g) 8 3

/-- Whether a group's running timer has expired: in ns, or in line boundaries after its start (R456). -/
def State.coalExpired (s : State) (g : Nat) : Bool :=
  match (s.coal g).timer with
  | some (t0, l0) =>
    let t := bits (s.coalCfg g) 32 32
    if tbit (s.coalCfg g) 16 then l0 + t ≤ s.raster.lineCount else t0 + t ≤ s.now
  | none => false

/-- One group brought up to date: its timer starts when its items rise from 0; it opens at COUNT or under SLEEP_IND; it
closes when its items fall to 0 (R456, R458). -/
def State.coalStep (s : State) (g : Nat) : Coal :=
  let c := s.coal g
  let n := s.groupItems g
  if n = 0 then {}
  else
    let timer := match c.timer with
      | some t => some t
      | none => some (s.now, s.raster.lineCount)
    let asleep := s.ints.sleep.getD (s.coalTarget g) false
    let reached := c.isOpen || decide (bits (s.coalCfg g) 0 8 ≤ n)
    { timer, isOpen := reached || asleep, flushed := c.flushed || (asleep && !reached) }

/-- The groups that have members or running state. -/
def State.liveGroups (s : State) : List Nat :=
  (List.range 32).filter fun g => !(s.groupSources g).isEmpty || (mapGet s.ints.coal g).isSome

/-- Every group brought up to date. -/
def State.coalAll (s : State) : NMap Coal :=
  s.liveGroups.filterMap fun g =>
    let c := s.coalStep g
    if c == ({} : Coal) then none else some (g, c)

/-- A group opened by R458 or R459, or by its timer. -/
def State.coalOpen (s : State) (g : Nat) (flushed : Bool) : State :=
  { s with ints := { s.ints with coal := mapUpd s.ints.coal g {} fun c => { c with isOpen := true, flushed := c.flushed || flushed } } }

/-- Every group with items opened and marked FLUSHED (R459). -/
def State.coalFlushAll (s : State) : State :=
  ((List.range 32).filter fun g => 1 ≤ s.groupItems g).foldl (fun a g => a.coalOpen g true) s

/-- The priority stack of a processor, top last; the idle entry is not listed (R451). -/
def State.intStack (s : State) (p : Nat) : List (Nat × Nat) := s.ints.handlers.getD p []

/-- The running priority (R451). -/
def State.runningPrio (s : State) (p : Nat) : Nat := match (s.intStack p).getLast? with
  | some e => e.2
  | none => 0

/-- Whether a source is active for a processor (R450). -/
def State.activeFor (s : State) (p k : Nat) : Bool := (s.intStack p).any fun e => intKey p e.1 == k

/-- Whether a source is active for any processor. -/
def State.intActive (s : State) (k : Nat) : Bool := (List.range 8).any fun p => s.activeFor p k

/-- Eligibility for a processor (R448). -/
def State.intEligible (s : State) (p k : Nat) : Bool :=
  s.intTarget k == p && s.intAsserted k && !(s.intActive k) && s.intEnabled k && s.runningPrio p < s.intPrio k
    && !(s.intCoalesce k && !(s.coal (s.intGroup k)).isOpen)

/-- The source a claim returns: the highest PRIORITY, then the lowest ID (R450). Only configured sources can be eligible:
an unconfigured one is disabled at priority 0. -/
def State.intBest (s : State) (p : Nat) : Option Nat :=
  minBy (fun k => (16 - s.intPrio k) * 512 + keyId k) ((s.ints.cfg.map (·.1)).filter fun k => s.intEligible p k)

/-- IRQ[p] (R449). -/
def State.irq (s : State) (p : Nat) : Bool := (s.intBest p).isSome

/-- A latch set; an event that finds it set merges (R444). -/
def State.setLatch (s : State) (k : Nat) : State :=
  if s.ints.latches.contains k then s else { s with ints := { s.ints with latches := s.ints.latches ++ [k] } }

def State.clearLatch (s : State) (k : Nat) : State :=
  { s with ints := { s.ints with latches := s.ints.latches.filter fun x => x != k } }

end Sys2Proof.Machine
end

