-- ==== Sys2Proof/Machine/LinkOps.lean ====
section
/-!
DEFINITION. Machine/LinkOps.lean: the form of outbound packets (R67 to R72, R81 to R87), which may leave next (R68, R74 to R76,
R133), whether its credit falls short (R77), and the credit the block returns (R74).
-/

namespace Sys2Proof.Machine

open Sys2Proof

/-- Whether a held notice of a command still waits to be queued (R421). -/
def State.heldNoticeOf (s : State) (stamp : Nat) : Bool :=
  let waits (n : Notice) : Bool := n.cmd == some stamp && n.kind != 1
  s.offered.any waits || s.offers.any waits || s.nqs.any fun q => q.2.held.any fun n => waits n.2

/-- Whether the completion of a command may be delivered: not before that of an earlier command that overlaps it, nor, for
a NATIVE READ, of an earlier writer of its queue and unit, nor before its held notices are queued (R133, R135, R421). -/
def State.deliverable (s : State) (c : Cmd) : Bool :=
  c.isEnded && !(s.heldNoticeOf c.stamp) &&
    !(s.cmds.any fun d => d.stamp < c.stamp &&
      (s.overlap d c || (c.opcode == 1 && !(s.queueKolile c.queue) && d.queue == c.queue && d.unit == c.unit
        && isWriter d.opcode)))

/-- Whether a packet is the RESP of a stamped command. -/
def OutPkt.isRespOf (st : Nat) : OutPkt → Bool
  | .resp _ _ _ _ _ x => x == st && st != 0
  | _ => false

/-- Whether a packet consumes credit (R70). -/
def OutPkt.consumes : OutPkt → Bool
  | .crdt _ _ => false
  | .link _ _ _ _ => false
  | _ => true

/-- Payload of an outbound packet: of a DATA its sectors, of an MRSP its Closa frame past the header's share (R82, R84). -/
def OutPkt.payload : OutPkt → List Byte
  | .data _ _ _ _ _ bs => bs
  | .mrsp _ f => f.drop 24
  | _ => []

def OutPkt.plen (p : OutPkt) : Nat := p.payload.length

/-- TYPE of an outbound packet (R70). -/
def OutPkt.type : OutPkt → Nat
  | .xrdy .. => 2
  | .data .. => 3
  | .resp .. => 4
  | .mrsp .. => 7
  | .crdt .. => 8
  | .link .. => 9
  | .qrst .. => 0xA

/-- The channel of an outbound packet: VC1 for DATA, VC0 for the rest (R68). -/
def OutPkt.vc : OutPkt → Nat
  | .data .. => 1
  | _ => 0

/-- A field of `w` bits at bit `lo` of a header. -/
def field (lo w v : Nat) : Nat := v % 2 ^ w * 2 ^ lo

/-- Header bits 255:32 of an outbound packet (R81 to R87). WINDOW_ID of an outbound DATA is 0xFFFF, DONE of the block's QRST 1. -/
def OutPkt.fields : OutPkt → Nat
  | .xrdy q cid w off wlen => field 32 16 cid + field 48 6 q + field 64 16 w + field 96 32 off + field 128 32 wlen
  | .data _ q cid off last _ => field 32 16 cid + field 48 6 q + field 64 16 0xFFFF + flag last 81 + field 96 32 off
  | .resp q cid status dup info stamp =>
    field 32 16 cid + field 48 6 q + field 64 8 status + flag dup 80 + field 96 64 info + field 160 64 stamp
  | .mrsp mtag frame => field 32 16 mtag + field 64 192 (leNat (frame.take 24))
  | .crdt a b => field 32 32 a + field 64 32 b
  | .link kind code crcEn detail => field 32 8 kind + flag crcEn 40 + field 64 8 code + field 96 32 detail
  | .qrst tag mask => field 32 16 tag + flag true 80 + field 96 64 mask

/-- The header of an outbound packet: TYPE, HVER 0, TRL with CRC active, PLEN (R69). -/
def OutPkt.header (crc : Bool) (p : OutPkt) : Header :=
  BitVec.ofNat 256 (p.type + flag crc 11 + field 16 16 p.plen + p.fields)

/-- The bytes of an outbound packet: header, payload, and the trailer with CRC active; before the link is UP the block's packets
carry none (R72; DESIGN CHOICE, log 232). -/
def OutPkt.wire (crc : Bool) (p : OutPkt) : List Byte :=
  let b := leBytes 32 (p.header crc).toNat ++ p.payload
  if crc then b ++ leBytes 4 (crc32c b) else b

/-- The beats that carry a packet's bytes (R67, R71). -/
def beatsOf (vc : Nat) (bs : List Byte) : List Beat :=
  let n := ceilDiv bs.length 256
  (List.range n).map fun i =>
    { sop := i == 0, eop := i + 1 == n, bytes := if i + 1 == n then some (bs.length % 256) else none, vc
      data := (bs.drop (256 * i)).take 256 }

/-- An outbound packet as HLO carries it. -/
def OutPkt.onHlo (crc : Bool) (p : OutPkt) : List Beat := beatsOf p.vc (p.wire crc)

/-- Beats of an outbound packet (R71, R72). -/
def LinkSt.beats (l : LinkSt) (p : OutPkt) : Nat := ceilDiv (32 + p.plen + (if l.crcActive then 4 else 0)) 256

/-- Whether a credit-free packet may start: 16 LCLK cycles after the one before, with LCLK at 1.0 GHz (R75; DESIGN CHOICE,
log 233). -/
def State.freeSpaced (s : State) : Bool := !(s.link.freeAt.any fun t => s.now < t + 16)

/-- Whether a VC0 packet may leave now, credit apart: before UP only CRDT and LINK, and LINK in DOWN too; a RESP once its
completion may be delivered; an XRDY while its window is open and power is good (R73, R76, R86, R133, R364). -/
def State.canSend (s : State) (p : OutPkt) : Bool :=
  match p with
  | .crdt _ _ => s.link.st != 0 && s.freeSpaced
  | .link _ _ _ _ => s.freeSpaced
  | .resp _ _ _ _ _ st => s.link.st == 3 && (st == 0 || (s.cmd? st).all s.deliverable)
  | .xrdy _ _ w _ _ => s.link.st == 3 && !s.prot.pfail && s.link.windows.any fun x => x.id == w && x.sentAt.isNone
  | _ => s.link.st == 3

/-- The first VC0 packet that credit allows. -/
def State.nextVc0 (s : State) : Option OutPkt :=
  s.link.out0.find? fun p => s.canSend p && (!p.consumes || 1 ≤ s.link.tx0)

/-- The rank of a DATA packet: class, then arrival stamp (R76). -/
def State.dataRank (s : State) : OutPkt → Nat
  | .data st q _ _ _ _ => s.queueClass q * 2 ^ 80 + st
  | _ => 2 ^ 90

/-- The DATA packet that goes first (R76). -/
def State.nextData (s : State) : Option OutPkt :=
  if s.link.st != 3 || s.prot.pfail then none else minBy s.dataRank s.link.out1

/-- The DATA packet, if credit allows it. -/
def State.nextVc1 (s : State) : Option OutPkt := s.nextData.filter fun p => s.link.beats p ≤ s.link.tx1

/-- The next packet to leave: VC0 first; after 16 VC0 packets in a row while DATA waits, one DATA packet (R76). -/
def State.nextPacket (s : State) : Option OutPkt :=
  if 16 ≤ s.link.vc0Run && s.nextVc1.isSome then s.nextVc1 else s.nextVc0.or s.nextVc1

/-- Whether the outbound counter of a virtual channel lies below the next waiting packet's beat count (R77). -/
def State.creditShort (s : State) (vc : Nat) : Bool :=
  if vc = 0 then s.link.tx0 = 0 && s.link.st == 3 && s.link.out0.any fun p => p.consumes && s.canSend p
  else match s.nextData with
    | some p => s.link.tx1 < s.link.beats p
    | none => false

/-- Credit that CRDT_RET has carried since it was last set, 15 beats an LCLK cycle, of what is owed: LCLK is taken at 1.0 GHz
(R74; DESIGN CHOICE, log 233). -/
def State.returned (s : State) (owed : Nat) : Nat := min owed (15 * (s.now - s.link.retAt))

/-- The link at the end of a cycle: since when each counter falls short (R77); CRDT_RET carries at most 15 beats of each channel
of the credit still owed (R74). -/
def State.linkWatch (s : State) : LinkSt :=
  let since (vc : Nat) (was : Option Nat) : Option Nat :=
    if s.creditShort vc then some (was.getD s.now) else none
  let b0 := s.returned s.link.owe0
  let b1 := s.returned s.link.owe1
  let r0 := min 15 (s.link.owe0 - b0)
  let r1 := min 15 (s.link.owe1 - b1)
  { s.link with
    short0 := since 0 s.link.short0, short1 := since 1 s.link.short1
    retAt := s.now, retVc0 := r0, retVc1 := r1
    rx0 := s.link.rx0 - b0 - r0, owe0 := s.link.owe0 - b0 - r0
    rx1 := s.link.rx1 - b1 - r1, owe1 := s.link.owe1 - b1 - r1 }

/-- An open window, in the span of R93. -/
def State.windowOpen (s : State) (w : Window) : Bool :=
  match w.sentAt with
  | some t => s.now < t + w.timeout
  | none => false

/-- Windows closed, with the XRDYs of theirs that have not left (R88, R93, R94). -/
def LinkSt.closeWindows (l : LinkSt) (f : Window → Bool) : LinkSt :=
  let gone := (l.windows.filter f).map fun w => w.id
  { l with
    windows := l.windows.filter fun w => !(f w)
    out0 := l.out0.filter fun p => match p with
      | .xrdy _ _ id _ _ => !(gone.contains id)
      | _ => true }

end Sys2Proof.Machine
end

