-- ==== Sys2Proof/Machine/Cycle.lean ====
section
/-!
DEFINITION. Machine/Cycle.lean: what stands around every meaning: time passes, the command takes effect in one core
cycle, and the cycle settles: the events it raised enter the event queue (R493), the notices it offered join the offers
(R422), interrupt groups, pool marks and short credit are brought up to date (R456, R421, R77), and memory is left in canonical form.
-/

namespace Sys2Proof.Machine

open Sys2Proof

/-- The order in which events of one core cycle enter the queue: class, KIND, SOURCE (R493). -/
def eventLe (a b : TlEvent) : Bool :=
  a.cls < b.cls || (a.cls == b.cls && (a.kind < b.kind || (a.kind == b.kind && a.source ≤ b.source)))

/-- Events enter the queue of 32; those that find it full are lost and counted (R493). -/
def TlogSt.enter (t : TlogSt) : TlogSt :=
  let all := t.queue ++ sortBy eventLe t.raised
  let lost := all.length - 32
  { t with queue := all.take 32, raised := [],
           lost := if lost = 0 then t.lost else satAdd 0xFFFFFFFF t.lost lost,
           lostBefore := t.lostBefore || lost != 0 }

/-- The order of notices offered in one core cycle: a command's held notices stand ahead of its own COMMAND_DONE;
COMMAND_DONE, then ascending KIND, then source (R421, R422). -/
def noticeLe (a b : Notice) : Bool :=
  let ra := if a.kind == 1 then 0 else 1
  let rb := if b.kind == 1 then 0 else 1
  ra < rb || (ra == rb && (a.kind < b.kind || (a.kind == b.kind && a.source ≤ b.source)))

/-- Memory in canonical form. Every memory operation keeps the form, so this changes nothing (Laws/Mem.lean). -/
def Memory.canon (m : List Host.Cell) : List Host.Cell :=
  if Memory.wf m then m else m.foldl (fun acc c => Memory.write acc c.1 [c.2]) []

/-- What the block watches at the end of a cycle: unit states (R214) and pool marks (R421). -/
def State.watch (before after : State) : State := (List.range 5).foldl State.poolWatch (State.unitWatch before after)

/-- The entries at the end of a core cycle, from the state `s` that the watchers left. The queue, the build, the straps and
the record of the last reset are no command's to change, nor is time, which `dt` alone moves (R510, R519, log 3). -/
def State.enterCycle (before s : State) : State :=
  { s with
    pending := before.pending
    build := before.build
    resetPor := before.resetPor
    porLow := before.porLow
    blkLow := before.blkLow
    lostAtReset := before.lostAtReset
    trefKhz := before.trefKhz
    fnclkSel := before.fnclkSel
    testMode := before.testMode
    mbistBusy := before.mbistBusy
    mbistDone := before.mbistDone
    mbistFail := before.mbistFail
    tref := before.tref
    mem := Memory.canon s.mem
    offers := s.offers ++ sortBy noticeLe s.offered
    offered := []
    deferred := s.deferred ++ s.deferNew
    deferNew := []
    tlog := s.tlog.enter
    link := s.linkWatch
    ints := { s.ints with coal := s.coalAll } }

/-- The end of a core cycle: `before` is the state the command was taken in, its time passed. -/
def State.settle (before after : State) : State := before.enterCycle (before.watch after)

/-- A command of the functional block: undefined while TEST_MODE is 1 (R510). While a reset is 0 and until initialization
ends it has no effect (R522, R524 to R526, R528); else it takes effect `dt` TREF cycles after the one before (log 3). -/
def State.functional (s : State) (dt : Nat) (f : State → State) : Host.Outcome State Fault Refusal :=
  if s.testMode then .fault .testModeUndefined
  else match s.phase with
    | .held => .next s
    | .clearing => .next (s.elapse dt)
    | _ => .next ((s.elapse dt).settle (f (s.elapse dt)))

/-- An input pin whose level the block takes at any time: before initialization ends only its level `pin` changes, while a reset
is 0 too; from then on the command is one of the functional block (R521; DEDUCED, log 255). -/
def State.onPin (s : State) (dt : Nat) (pin f : State → State) : Host.Outcome State Fault Refusal :=
  if s.testMode then .fault .testModeUndefined
  else match s.phase with
    | .held => .next (pin s)
    | .clearing => .next (pin (s.elapse dt))
    | _ => s.functional dt f

/-- An effect on the media side of the block. The raster, the notice queues, interrupts, processors' banks, dictionary transfers
and ports, frozen statistics and codes are no part of it. -/
def State.onMedia (s : State) (f : State → State) : State :=
  { f s with
    raster := s.raster
    nqs := s.nqs
    ints := s.ints
    procs := s.procs
    xfers := s.xfers
    cfg := s.cfg
    fn := s.fn
    frozen := s.frozen
    codes := s.codes
    codeErr := s.codeErr
    calSnapFrom := s.calSnapFrom
    offers := s.offers }

/-- A command that the block takes only once PROT_READY has risen: the host link runs, and commands are filed, only then
(R344, R524). -/
def State.ready (s : State) : Bool := s.phase == .running

end Sys2Proof.Machine
end

