-- ==== Sys2Proof/Machine/CommandOps.lean ====
section
/-!
DEFINITION. Machine/CommandOps.lean: how commands wait, start and end: the order rules (R130, R135 to R137), deferred
errors (R144, R145), completion and its delivery (R108, R125, R133).
-/

namespace Sys2Proof.Machine

open Sys2Proof

/-! ### Status codes (R106) -/

def stOk : Nat := 0x00
def stOkNotice : Nat := 0x01
def stDeferred : Nat := 0x02
def stAborted : Nat := 0x08
def stDataTimeout : Nat := 0x09
def stInvalidField : Nat := 0x10
def stInvalidOpcode : Nat := 0x11
def stRangeBoundary : Nat := 0x12
def stUnitReadOnly : Nat := 0x18
def stMediaFull : Nat := 0x19
def stMediaExhausted : Nat := 0x1A
def stUncorrectable : Nat := 0x20
def stWriteProtected : Nat := 0x28
def stProtectionLevel : Nat := 0x29
def stProgOrder : Nat := 0x2A
def stProgTwice : Nat := 0x2B
def stBootWindowBusy : Nat := 0x30
def stModeRefused : Nat := 0x31
def stMicrocodeBusy : Nat := 0x32
def stBudgetOverrun : Nat := 0x33

/-- INFO of INVALID_FIELD: the reason, and the header byte of the field or 0xFF (R106, R107). -/
def infoField (reason : Nat) (byte : Nat := 0xFF) : Nat := reason + 256 * byte

/-! ### Order -/

/-- Whether a FLUSH or FENCE covers a unit: its own, or all with UNIT 15 (R110, R137, R142). -/
def Cmd.covers (c : Cmd) (u : Nat) : Bool := c.unit == u || c.unit == 15

/-- Whether a command names a unit (R102, R137): every one but maintenance commands other than PURGE, and MODE and PARK. -/
def Cmd.namesUnit (c : Cmd) : Bool :=
  c.opcode == 0x28 || (!(isMaintenance c.opcode) && c.opcode != 0xA && c.opcode != 0xB)

/-- Whether a command counts as one of a unit (R120): a FLUSH or FENCE with UNIT 15 stands for all units and is none of unit 15's
(R110, R347; DESIGN CHOICE, log 53). -/
def Cmd.ofUnit (c : Cmd) (u : Nat) : Bool :=
  c.namesUnit && c.unit == u && !((c.opcode == 3 || c.opcode == 7) && c.unit == 15)

/-- Whether a FENCE's earlier commands of covered units have all completed (R137). -/
def State.fenceMet (s : State) (f : Cmd) : Bool :=
  s.cmds.all fun c => !(c.stamp < f.stamp) || c.isEnded || !c.namesUnit || !(f.covers c.unit)

/-- Whether an earlier command holds a command of any kind back: an ORDERED command, its own ORDERED flag, or a FENCE over
its unit (R136, R137). -/
def State.orderBlocked (s : State) (c : Cmd) : Bool :=
  s.cmds.any fun d => d.stamp < c.stamp && !d.isEnded &&
    ((d.queue == c.queue && (d.ordered || c.ordered)) || (d.opcode == 7 && c.namesUnit && d.covers c.unit))

/-- A READ in a NATIVE queue waits for the acceptance or completion of every earlier writer of its queue and unit
(R135). -/
def State.nativeBlocked (s : State) (c : Cmd) : Bool :=
  c.opcode == 1 && !(s.queueKolile c.queue) &&
    s.cmds.any fun d => d.stamp < c.stamp && d.queue == c.queue && d.unit == c.unit && isWriter d.opcode &&
      !(d.isEnded || d.phase == .accepted)

/-- Media work in progress anywhere: operations in die queues, block locks, tokens or started commands (R157). -/
def State.mediaBusy (s : State) : Bool :=
  !s.ops.isEmpty || !s.tokens.isEmpty || !s.blockLocks.isEmpty || s.cmds.any Cmd.isStarted

/-- Whether a global exclusive runs: a started REPLAY_SCAN or the sanitize sequence (R157). -/
def State.exclusiveRuns (s : State) : Bool :=
  s.prot.sanRunning || s.cmds.any fun c => c.opcode == 0x29 && c.isStarted

/-- Whether a global exclusive is at work, so that no other media operation starts (R157). -/
def State.exclusiveAtWork (s : State) : Bool :=
  s.prot.sanBegun || s.cmds.any fun c => c.opcode == 0x29 && c.isStarted

/-- Whether a started PARITY_REBUILD moves a die's granules away: placement then takes no block set of the die, whose blocks it
condemns (R200; DEDUCED, log 240). -/
def State.underRebuild (s : State) (d : Nat) : Bool :=
  s.cmds.any fun c => c.opcode == 0x2B && c.isStarted && !c.over && c.work.head?.any fun w => w.1 == d && w.2.1 != 0

/-- The commands RECORD-BURST holds in their queues (R23). -/
def burstHeld (opcode : Nat) : Bool := [0x20, 0x21, 0x24, 0x25, 0x26, 0x27, 0x28, 0x29].contains opcode

/-- Whether the rules let a waiting command start now (R23, R127, R130, R135 to R137, R157). -/
def State.mayStart (s : State) (c : Cmd) : Bool :=
  c.phase == .waiting && !c.heldB && !(s.lockBlocked c) && !(s.orderBlocked c) && !(s.nativeBlocked c)
    && !s.exclusiveRuns && !(c.opcode == 0x29 && s.mediaBusy)
    && !(s.modes.current == .recordBurst && burstHeld c.opcode)

/-! ### Deferred errors -/

/-- The counter of a deferred status (R160). -/
def deferObj (status : Nat) : Obj :=
  if status = stUncorrectable then Obj.UNIT_DEFER_UNC
  else if status = stMediaExhausted then Obj.UNIT_DEFER_EXH else Obj.UNIT_DEFER_FULL

/-- A deferred error raised against a WRITE: its counter, its notice, and its place among the pending ones (R144, R149). -/
def State.deferError (s : State) (unit status queue cid stamp lba sectors : Nat) (isLocal : Bool) : State :=
  let s1 := (s.bump (deferObj status) 0 unit).unitNotice 0x10 (some unit)
    [(1, unit), (1, status), (1, queue), (2, cid), (8, stamp), (8, lba), (4, sectors)]
  { s1 with deferNew := s1.deferNew ++ [{ unit, status, isLocal }] }

/-- UNCORRECTABLE is carried first, then MEDIA_EXHAUSTED, then MEDIA_FULL (R145). -/
def deferRank (status : Nat) : Nat :=
  if status = stUncorrectable then 0 else if status = stMediaExhausted then 1 else 2

/-- The opcodes whose completion carries a deferred error (R145). -/
def carriesDeferred (opcode : Nat) : Bool := [1, 2, 3, 4, 5, 7, 0x28].contains opcode

/-- The pending error a completion carries, if any (R145). -/
def State.deferredFor (s : State) (c : Cmd) : Option Deferred :=
  if !(carriesDeferred c.opcode) then none
  else
    minBy (fun d => d.unit * 4 + deferRank d.status) (s.deferred.filter fun d =>
      d.isLocal == c.isLocal && (d.unit == c.unit || ((c.opcode == 3 || c.opcode == 7) && c.unit == 15)))

/-- Pending deferred errors of a unit, all statuses (R145). -/
def State.deferSum (s : State) (u : Nat) : Nat :=
  s.objN Obj.UNIT_DEFER_UNC 0 u + s.objN Obj.UNIT_DEFER_EXH 0 u + s.objN Obj.UNIT_DEFER_FULL 0 u

/-- The status and INFO of a completion that would be OK or OK_WITH_NOTICE, with a pending error carried (R145). -/
def State.carryDeferred (s : State) (c : Cmd) (status info : Nat) : State × Nat × Nat :=
  if status = stOk ∨ status = stOkNotice then
    match s.deferredFor c with
    | some d =>
      let o := deferObj d.status
      let s1 := s.setObjN o (s.objN o 0 d.unit - 1) 0 d.unit
      let s2 := { s1 with deferred := s1.deferred.erase d }
      (s2, stDeferred, d.status + 256 * d.unit + 65536 * min 65535 (s2.deferSum d.unit))
    | none => (s, status, info)
  else (s, status, info)

/-! ### Completion and delivery -/

/-- The body of COMMAND_DONE (R125). -/
def commandDoneBody (cid queue status : Nat) (dup : Bool) (stamp info : Nat) : List Byte :=
  leBytes 2 cid ++ leBytes 1 (queue + flag dup 7) ++ leBytes 1 status ++ leBytes 4 0 ++ leBytes 8 stamp
    ++ leBytes 8 info ++ leBytes 8 0

/-- Completions of local commands that may be delivered are offered to their notice queues; those of host commands are
discarded while the link is not UP, and else wait for PACKET_SEND (R83, R90, R125). -/
def State.deliverStep (s : State) (c : Cmd) : State :=
  match c.phase with
  | .ended status info =>
    if !(s.deliverable c) then s
    else match c.path with
      | .lsw _ =>
        if c.notice then s
        else (s.updCmd c.stamp fun d => { d with notice := true }).offer 1 (s.queueNotice c.queue) 6 c.queue
          (commandDoneBody c.cid c.queue status false c.stamp info) true (some c.stamp)
      | .host =>
        if s.link.st = 3 && s.link.out0.any (fun p => p.isRespOf c.stamp) then s else { s with cmds := s.cmds.filter fun d => d.stamp != c.stamp }
  | _ => s

/-- Every completion that has become deliverable is delivered, oldest first. -/
def State.deliver (s : State) : State :=
  s.cmds.foldl (fun acc c => match acc.cmd? c.stamp with
    | some d => acc.deliverStep d
    | none => acc) s

/-- The command counts as completed in its class (R488). -/
def State.countDone (s : State) (c : Cmd) : State :=
  let k := s.queueClass c.queue
  (s.bump Obj.STAT_CMDS_C k).raiseTo Obj.STAT_LAT_MAX_C (s.now - c.time) k

/-- A command's completion decided: its range lock ends, its open windows close, its place in wait lists is given up, and
its RESP or notice waits to be delivered (R108, R131, R133). -/
def State.endCmd (s : State) (stamp status info : Nat) : State :=
  match s.cmd? stamp with
  | none => s
  | some c =>
    if c.isEnded then s
    else
      let r := s.carryDeferred c status info
      let s1 := r.1.countDone c
      let s2 := s1.updCmd stamp fun d => { d with phase := .ended r.2.1 r.2.2, locked := false, heldB := false }
      let s3 := { s2 with link := s2.link.closeWindows fun w => w.stamp == stamp }
      let s4 := s3.dropWaits fun u => match u with
        | .write st _ => st == stamp
        | .raw st _ => st == stamp
        | .stage st _ => st == stamp
        | _ => false
      match c.path with
      | .host =>
        if s4.link.st = 3 then
          { s4 with link := { s4.link with out0 := s4.link.out0 ++ [.resp c.queue c.cid r.2.1 false r.2.2 stamp] } }
        else s4
      | .lsw _ => s4

/-- FENCEs whose earlier commands have all completed end with OK, one after another (R137). -/
def State.sweepFences : Nat → State → State
  | 0, s => s
  | fuel + 1, s =>
    match s.cmds.find? fun c => c.opcode == 7 && !c.isEnded && !(s.orderBlocked c) && s.fenceMet c with
    | some f => State.sweepFences fuel (s.endCmd f.stamp stOk 0)
    | none => s

/-- A command ended, with everything that follows at once: FENCEs that waited for it, and deliveries. It reaches the
outstanding commands, deferred errors, counters, the link's queues, buffers waited for, and notices; nothing else. -/
def State.finish (s : State) (stamp status info : Nat) : State :=
  let s1 := s.endCmd stamp status info
  let t := (State.sweepFences s1.cmds.length s1).deliver
  { s with
    cmds := t.cmds, deferred := t.deferred, dict := t.dict, offered := t.offered, pools := t.pools
    link := { s.link with windows := t.link.windows, out0 := t.link.out0 } }

/-- A refusal at step 1 or 2 of R103: the command is not stamped and not filed; a local one stays outstanding until its
COMMAND_DONE is queued (R125). -/
def State.refuseUnstamped (s : State) (path : Path) (queue cid status info : Nat) (dup : Bool) : State :=
  match path with
  | .host =>
    if s.link.st = 3 then
      { s with link := { s.link with out0 := s.link.out0 ++ [.resp queue cid status dup info 0] } }
    else s
  | .lsw p => s.offer 1 (s.queueNotice queue) 6 queue (commandDoneBody cid queue status dup 0 info) true none (some p)

/-- The buffers a command holds and gives back without acceptance (R93, R104). -/
def State.giveBack (s : State) (c : Cmd) : State :=
  (s.releaseBufs (s.queueRequester c.queue) (c.bufs.map (·.2))).updCmd c.stamp fun d => { d with bufs := [] }

/-- A WRITE or raw transfer that ends without taking effect: buffers released, then its completion (R93, R104). -/
def State.failWrite (s : State) (stamp status info : Nat) : State :=
  match s.cmd? stamp with
  | some c => (s.giveBack c).finish stamp status info
  | none => s

end Sys2Proof.Machine
end

