-- ==== Sys2Proof/Machine/MapOps.lean ====
section
/-!
DEFINITION. Machine/MapOps.lean: changes of map entries and what they carry with them: valid counts (R185, R542), comet
discards (R251), releases of superblocks (R211); entries that are bad (R164); grown-bad blocks (R210, R541).
-/

namespace Sys2Proof.Machine

open Sys2Proof

/-- A buffer's reference dropped under its owner: the block's own release (R416). -/
def State.dropBuf (s : State) (h : Nat) : State := s.releaseBuf (s.bufDesc h).owner h

def State.dropBufs (s : State) (hs : List Nat) : State := hs.foldl State.dropBuf s

/-! ### Comet data -/

/-- The space of held run-ahead data returned (R250, R251). -/
def State.cometFree (s : State) (h : CometHeld) : State :=
  match h.handle with
  | some b => s.dropBuf b
  | none => { s with slotsUsed := mapUpd s.slotsUsed (dieCluster (ppaDie h.ppa)) 0 fun n => n - h.slots }

/-- Held and in-flight run-ahead data that `p` names discarded, with COMET_DISCARDED (R251). -/
def State.cometDiscard (s : State) (p : CometHeld → Bool) : State :=
  let gone := s.cometHeld.filter p
  let s1 := gone.foldl (fun a h => (a.cometFree h).bump Obj.COMET_DISCARDED 0 0 (4096 * h.need)) s
  { s with dict := s1.dict, mem := s1.mem, slotsUsed := s1.slotsUsed, tlog := s1.tlog
           cometHeld := s1.cometHeld.filter fun h => !(p h) }

/-! ### Superblock membership and release -/

/-- The blocks of a superblock that still belong to it: those its entry names whose ledger entry names it (R177, R211). -/
def State.sbBlocks (s : State) (i : Nat) : List BlockAddr :=
  let ds := s.sbDies i
  ((List.range ds.length).map fun m =>
    let d := ds.getD m 0
    (List.range (s.die d).planes).filterMap fun p =>
      let b : BlockAddr := { die := d, plane := p, block := s.sbBlock i m p }
      if !(s.sbZero i m) && s.sbBlock i m p != 0xFFFF && (s.ledger b).sb == i then some b else none).flatten

/-- A CLOSED or UNPROTECTED superblock whose blocks all have VALID 0 becomes RELEASED (R211). -/
def State.checkRelease (s : State) (i : Nat) : State :=
  if i < s.objN Obj.SB_COUNT && (s.sbState i == sbClosed || s.sbState i == sbUnprotected)
      && (s.sbBlocks i).all fun b => (s.ledger b).valid == 0 then
    (s.setSbField i 0 1 sbReleased).setSbField i 40 8 (s.objN Obj.ORD_WRITE_SEQ)
  else s

/-- A RELEASED superblock none of whose blocks belong to it any more becomes FREE (R211). -/
def State.checkFree (s : State) (i : Nat) : State :=
  if s.sbState i == sbReleased && (s.sbBlocks i).all fun b =>
      let e := s.ledger b
      e.state == lsFreeReady || e.state == lsFreeUnchecked || e.state == lsRetired then
    let s1 := (s.sbBlocks i).foldl (fun a b => a.updLedger b fun e => { e with sb := 0xFFFFFFFF }) s
    s1.setSbField i 0 1 sbFree
  else s

/-- The OPEN blocks of a superblock CLOSED in the ledger (R179, R186). -/
def State.closeBlocks (s : State) (i : Nat) : State :=
  (s.sbBlocks i).foldl (fun a x =>
    if (a.ledger x).state == lsOpen then a.updLedger x fun e => { e with state := lsClosed } else a) s

/-- A superblock that is OPEN in the table becomes CLOSED there with its blocks (R179, R208, R210). -/
def State.closeTable (s : State) (i : Nat) : State :=
  if i < s.objN Obj.SB_COUNT && s.sbState i == sbOpen then ((s.closeBlocks i).setSbField i 0 1 sbClosed).checkRelease i else s

/-! ### Map entries -/

/-- Whether a MEDIA entry of a unit names a block of the build that the ledger shows as holding the unit's data (R164). -/
def State.mediaGood (s : State) (u e : Nat) : Bool :=
  let p := entryLoc e
  let l := s.ledger (ppaBlk p)
  ppaDie p < s.build.dies && ppaPlane p < s.objN Obj.LEDGER_PLANES && ppaBlock p < s.objN Obj.LEDGER_BLOCKS
    && (l.state == lsOpen || l.state == lsClosed || l.state == lsGrownBad || l.state == lsErasing || l.state == lsSystem)
    && (l.unit == u || l.state == lsSystem)

/-- The version a BUFFER entry names: its HANDLE and TAG agree with one that is held (R164). -/
def State.versionOf (s : State) (u g e : Nat) : Option Version :=
  s.versions.find? fun v => v.unit == u && v.granule == g && v.moveFrom.isNone && v.handle == entryHandle e
    && v.stamp % 2 ^ 28 == entryTag e

/-- Whether an entry is bad (R164). -/
def State.entryBad (s : State) (u g e : Nat) : Bool :=
  match entryState e with
  | 0 => false
  | 1 => !(s.mediaGood u e)
  | 2 => (s.versionOf u g e).isNone
  | 3 => false
  | _ => true

/-- MAP_ENTRY_BAD raised for a bad entry met (R164). -/
def State.noteBad (s : State) (u g e : Nat) : State :=
  if s.entryBad u g e then s.event 0x12 u g 3 else s

/-- VALID of the block of a PPA raised or lowered by a granule's sectors (R185). -/
def State.addValid (s : State) (ppa n : Nat) (up : Bool) : State :=
  let s1 := s.updLedger (ppaBlk ppa) fun e => { e with valid := if up then e.valid + n else e.valid - n }
  if up then s1 else s1.checkRelease (s1.ledger (ppaBlk ppa)).sb

/-- Whether an entry is MEDIA or BUFFER. -/
def entryHeld (e : Nat) : Bool := entryState e == 1 || entryState e == 2

/-- One map entry changed: the entry as one 8-byte write (R165), UNIT_VALID_SECTORS (R542), the VALID counts of the blocks
it leaves and enters (R185), and run-ahead data for the granule discarded (R251). -/
def State.mapSet (s : State) (u g v : Nat) : State :=
  let old := s.mapEntry u g
  let n := s.unitSectors u
  let s1 := s.memSetNum (s.mapAddr u g) 8 v
  let c := s1.objN Obj.UNIT_VALID_SECTORS 0 u
  let s2 := if entryHeld v && !(entryHeld old) then s1.setObjN Obj.UNIT_VALID_SECTORS (c + n) 0 u
    else if !(entryHeld v) && entryHeld old then s1.setObjN Obj.UNIT_VALID_SECTORS (c - n) 0 u else s1
  let s3 := if entryState v == 1 then s2.addValid (entryLoc v) n true else s2
  let s4 := if entryState old == 1 && s.mediaGood u old then s3.addValid (entryLoc old) n false else s3
  s4.cometDiscard fun h => h.unit == u && h.granule == g

/-- A conditional update (R166): the new value is written only where the entry still holds `was`. -/
def State.mapCas (s : State) (u g was v : Nat) : State × Bool :=
  if s.mapEntry u g == was then (s.mapSet u g v, true) else (s, false)

/-! ### Blocks that fail -/

/-- A unit notice of R218 about a block, to the unit that its ledger entry names. -/
def State.blockNotice (s : State) (kind : Nat) (b : BlockAddr) : State :=
  let e := s.ledger b
  s.unitNotice kind (some e.unit) [(2, b.die), (1, b.plane), (2, b.block), (4, e.eraseCount), (1, e.cls)]

/-- A block made GROWN_BAD, counted and noticed (R210, R219, R541). -/
def State.growBad (s : State) (b : BlockAddr) : State :=
  if (s.ledger b).state == lsGrownBad then s
  else ((s.updLedger b fun e => { e with state := lsGrownBad }).bump Obj.GROWN_BAD_COUNT).blockNotice 0x23 b

/-- MIN_LBA and MAX_LBA widened at a granule program into a block (R185). -/
def LedgerEntry.widen (e : LedgerEntry) (lo hi : Nat) : LedgerEntry :=
  { e with minLba := min e.minLba lo, maxLba := max e.maxLba hi }

/-- The empty range of R185. -/
def lbaEmptyMin : Nat := 0xFFFFFFFFFF

/-! ### Pins and block locks (R132, R156) -/

/-- Sectors of a READ not yet issued that need the media. -/
def Cmd.toIssue (c : Cmd) : List (Nat × Nat) :=
  c.sources.filterMap fun x => match x.2 with
    | .media p => if c.issued.contains x.1 then none else some (x.1, p)
    | _ => none

/-- Whether a READ holds a pin on a block since it resolved a granule there: until its codeword is read, which then holds one
in `pins` (R131, R132). -/
def Cmd.holdsPin (c : Cmd) (b : BlockAddr) : Bool :=
  c.opcode == 1 && c.isStarted && !c.aborted && c.toIssue.any fun x => ppaBlk x.2 == b

/-- Whether an erase block carries a pin (R132). -/
def State.pinned (s : State) (b : BlockAddr) : Bool :=
  (s.pins.any fun p => p.1 == b && 0 < p.2) || s.cmds.any fun c => c.holdsPin b

def State.pin (s : State) (b : BlockAddr) : State :=
  if s.pins.any fun p => p.1 == b then
    { s with pins := s.pins.map fun p => if p.1 == b then (p.1, p.2 + 1) else p }
  else { s with pins := s.pins ++ [(b, 1)] }

def State.unpin (s : State) (b : BlockAddr) : State :=
  { s with pins := (s.pins.map fun p => if p.1 == b then (p.1, p.2 - 1) else p).filter fun p => 0 < p.2 }

def State.blockLocked (s : State) (b : BlockAddr) : Bool := s.blockLocks.any fun l => l.1 == b

/-- A block lock taken by a command (R156). -/
def State.lockBlock (s : State) (b : BlockAddr) (stamp : Nat) : State :=
  { s with blockLocks := s.blockLocks ++ [(b, stamp)] }

def State.unlockBlocks (s : State) (stamp : Nat) : State :=
  { s with blockLocks := s.blockLocks.filter fun l => l.2 != stamp }

/-! ### Die tokens (R155): the head of a die's list holds it -/

/-- Stamp 0 stands for a run the block triggers. -/
def State.tokenHolder (s : State) (d : Nat) : Option Nat :=
  match s.tokens.find? fun t => t.1 == d with
  | some t => t.2.head?
  | none => none

def State.askToken (s : State) (d who : Nat) : State :=
  if s.tokens.any fun t => t.1 == d then
    { s with tokens := s.tokens.map fun t => if t.1 == d && !(t.2.contains who) then (d, t.2 ++ [who]) else t }
  else { s with tokens := s.tokens ++ [(d, [who])] }

def State.dropToken (s : State) (d who : Nat) : State :=
  let l := s.tokens.map fun t => if t.1 == d then (d, t.2.filter fun w => w != who) else t
  { s with tokens := l.filter fun t => !t.2.isEmpty }

def State.dropTokens (s : State) (who : Nat) : State :=
  let l := s.tokens.map fun t => (t.1, t.2.filter fun w => w != who)
  { s with tokens := l.filter fun t => !t.2.isEmpty }

def State.holdsToken (s : State) (d who : Nat) : Bool := s.tokenHolder d == some who

/-- The member of a superblock that a block is, if the table names it so (R177, R185). -/
def State.sbMember (s : State) (b : BlockAddr) : Option Nat :=
  let i := (s.ledger b).sb
  (memberOf (s.sbDies i) b.die).filter fun m => s.sbBlock i m b.plane == b.block

/-- Whether a block is a member of a superblock that is OPEN in the table, on chip or since before a reset (R177, R210). -/
def State.openMember (s : State) (b : BlockAddr) : Bool := s.sbState (s.ledger b).sb == sbOpen && (s.sbMember b).isSome

end Sys2Proof.Machine
end

