-- ==== Sys2Proof/Machine/PlaceOps.lean ====
section
/-!
DEFINITION. Machine/PlaceOps.lean: where accepted data goes: the allocator's answers (R189 to R192), rows and lanes
(R172 to R174, R178, R179), accumulators (R180 to R182), FLUSH and FUA closing (R143), interim records (R183).
-/

namespace Sys2Proof.Machine

open Sys2Proof

/-! ### Superblocks on chip -/

def State.updSb (s : State) (i : Nat) (f : OpenSb → OpenSb) : State :=
  { s with sbs := s.sbs.map fun b => if b.sb == i then f b else b }

def State.openSb? (s : State) (i : Nat) : Option OpenSb := s.sbs.find? fun b => b.sb == i

/-- The parity members of the open row. -/
def OpenSb.rowParity (b : OpenSb) (r : Row) : List Nat := parityMembers b.profile r.present r.wl

/-- The data members of the open row that are not lost in it. -/
def OpenSb.rowData (b : OpenSb) (r : Row) : List Nat :=
  r.present.filter fun m => !((b.rowParity r).contains m) && !(r.failed.contains m)

/-- Places of one lane in one row. -/
def State.perRow (s : State) (b : OpenSb) : Nat := s.sbPerRow b

/-- Bytes of an accumulator (R181). -/
def State.accBytes (s : State) (b : OpenSb) : Nat := stripeParity b.profile * b.planes * s.perRow b * 4112

/-- Whether a row's parity program units have been transferred to their dies, each confirmed or at its end, so that its accumulator
has been released (R181). -/
def State.parityMoved (s : State) (b : OpenSb) (r : Row) : Bool :=
  ((b.rowData r).all fun m => r.contributed.contains m) && (b.rowParity r).all fun m =>
    r.failed.contains m || r.parityDone.contains m || s.ops.any fun o => o.confirmed && (match o.kind with
      | .parity i _ x _ => i == b.sb && x == m
      | _ => false)

/-- Whether the parity store holds the accumulator of a superblock's open row: neither spilled nor released (R181, R182). -/
def State.accHeld (s : State) (b : OpenSb) : Bool :=
  match b.row with
  | some r => r.spilled.isEmpty && !(s.parityMoved b r)
  | none => false

/-- PAR_IN_USE: accumulators held in the store (R181, R182). -/
def State.parInUse (s : State) : Nat := sumOf (s.sbs.map fun b => if s.accHeld b then s.accBytes b else 0)

/-- PAR_STORE_BYTES of the build (R4): 512 KiB for each cluster. -/
def State.parStore (s : State) : Nat := 524288 * s.build.clusters

/-- Pool-4 buffers that a spill of a superblock's accumulator needs (R182). -/
def State.spillBufs (s : State) (b : OpenSb) : Nat := ceilDiv (s.accBytes b) 1048576

/-- `n` buffers of a pool granted to a requester together, or none of them (R182). -/
def State.grantMany (s : State) (r p : Nat) : Nat → Option (State × List Nat)
  | 0 => some (s, [])
  | n + 1 =>
    if s.canGrant r p then
      let g := s.grantBuf r p
      match State.grantMany g.1 r p n with
      | some (s2, hs) => some (s2, g.2 :: hs)
      | none => none
    else none

/-- A row's accumulator spilled, when all of its buffers can be held; PAR_SPILLS rises (R182). -/
def State.spillRow (s : State) (i : Nat) : State × Bool :=
  match s.openSb? i with
  | some b =>
    match b.row with
    | some _ =>
      if !(s.accHeld b) || s.accBytes b == 0 then (s, false)
      else match s.grantMany 18 4 (s.spillBufs b) with
        | some (s1, hs) =>
          ((s1.updSb i fun b => { b with row := b.row.map fun r => { r with spilled := hs } }).bump Obj.PAR_SPILLS, true)
        | none => (s, false)
    | none => (s, false)
  | none => (s, false)

/-- The oldest idle accumulator in the store, other than that of superblock `but`. -/
def State.oldestAcc (s : State) (but : Nat) : Option OpenSb :=
  minBy (fun b => match b.row with
    | some r => r.accAt
    | none => 0) (s.sbs.filter fun b => b.sb != but && s.accBytes b != 0 && s.accHeld b)

/-- Store space for `need` bytes: found free, or made by spilling the oldest idle accumulator (R182). -/
def State.makeRoom (s : State) (but need : Nat) : Nat → State × Bool
  | 0 => (s, s.parInUse + need ≤ s.parStore)
  | fuel + 1 =>
    if s.parInUse + need ≤ s.parStore then (s, true)
    else match s.oldestAcc but with
      | some b =>
        let r := s.spillRow b.sb
        if r.2 then State.makeRoom r.1 but need fuel else (s, false)
      | none => (s, false)

/-! ### The allocator -/

/-- The classes a request asks, in order (R190): in RECORD-BURST RASTER writes ask class 0 first; COPY and FOLD targets
ask TCLASS first; a FOLD takes no class 0 from the list. -/
def State.classAsk (s : State) (u tclass : Nat) (raster fold : Bool) : List Nat :=
  let prim := s.unitClass u
  let strong := if prim = 1 then [2] else if prim = 3 then [4] else []
  let mask := s.unitClasses u
  let base := prim :: (strong.filter fun c => mask.contains c) ++ mask
  let base := if fold then base.filter fun c => c != 0 else base
  distinct (if tclass != 255 then tclass :: base
    else if raster && s.modes.current == .recordBurst then 0 :: base else base)

/-- The block sets of a group's members for a class, none where a member becomes a zero member; none at all where the
group needs more than SB_ZERO_MAX zero members (R191). -/
def State.groupSets (s : State) (all : List BlockAddr) (prof g cls : Nat) : Option (List Nat × List (Option (List Nat))) :=
  if !(s.codeFits cls) then none
  else match s.groupMembers prof g with
    | some ms =>
      let sets := ms.map fun d => if s.diePresent d && s.dieRuns d cls && !(s.underRebuild d) then s.pickSet all d cls else none
      let zeros := (sets.filter Option.isNone).length
      if zeros ≤ s.objN Obj.SB_ZERO_MAX && zeros < ms.length then some (ms, sets) else none
    | none => none

/-- A list turned left by `n`. -/
def rotate {α : Type} (l : List α) (n : Nat) : List α :=
  if l.isEmpty then l else l.drop (n % l.length) ++ l.take (n % l.length)

/-- The groups a request may use, in the order they are tried: the slot's group, or all of its profile in an order that
the spec leaves open (log 8). -/
def State.requestGroups (s : State) (r : AllocReq) : List Nat :=
  match r.group with
  | some g => [g]
  | none => rotate (s.groups (s.unitStripe r.unit)) s.freePick

/-- What the allocator answers a request for a superblock: class, group, members and their sets (R190, R191). -/
def State.allocAnswer (s : State) (r : AllocReq) : Option (Nat × Nat × List Nat × List (Option (List Nat))) :=
  let all := s.ledgerBlocks
  let gs := s.requestGroups r
  (s.classAsk r.unit r.tclass (r.prio == 1) r.fold).findSome? fun c =>
    gs.findSome? fun g => (s.groupSets all (s.unitStripe r.unit) g c).map fun x => (c, g, x.1, x.2)

/-- The COPY or FOLD that takes the blocks of a maintenance superblock as its targets: the one of the oldest granule that waits
for it (R156). -/
def State.takerOf (s : State) (r : AllocReq) : Option Nat :=
  (s.versions.find? fun v => v.maint && r.maint && v.unit == r.unit && v.tclass == r.tclass && v.fold == r.fold && v.placed == 0).bind
    fun v => v.moveCmd.filter fun st => (s.cmd? st).any fun c => !c.isEnded && (c.opcode == 0x20 || c.opcode == 0x26)

/-- A superblock opened on a FREE entry: its entry and its blocks' ledger entries written (R176, R177, R186); a COPY or FOLD locks
its target blocks, fresh from the allocator, as it takes them (R156). -/
def State.openSuperblock (s : State) (r : AllocReq) (i cls g : Nat) (ms : List Nat) (sets : List (Option (List Nat))) :
    State :=
  let prof := s.unitStripe r.unit
  let code := s.classCode cls
  let zero := (List.range ms.length).filter fun m => (sets.getD m none).isNone
  let live := (List.range ms.length).filter fun m => !(zero.contains m)
  let d0 := ms.getD (live.headD 0) 0
  let planes := (s.die d0).planes
  let mask := sumOf (zero.map fun m => 2 ^ m)
  let blocks := ((List.range ms.length).map fun m => (List.range 8).map fun p => match sets.getD m none with
    | some l => l.getD p 0xFFFF
    | none => 0xFFFF)
  let entry := leBytes 1 sbOpen ++ leBytes 1 (r.unit + flag r.maint 4) ++ leBytes 1 prof ++ leBytes 1 (cls + 8 * code)
    ++ leBytes 2 g ++ leBytes 1 ms.length ++ leBytes 1 0 ++ leBytes 4 mask ++ leBytes 2 0 ++ leBytes 2 0
    ++ leBytes 1 255 ++ leBytes 1 255 ++ leBytes 2 0 ++ leBytes 2 0 ++ leBytes 2 0 ++ leBytes 8 0 ++ leBytes 4 0
    ++ leBytes 4 0 ++ leBytes 8 0 ++ leBytes 16 0
    ++ (blocks.map fun l => (l.map fun b => leBytes 2 b).flatten).flatten
  let s1 := s.memWrite (s.sbAddr i) (padTo 576 entry)
  let s2 := (live.map fun m => ((sets.getD m none).getD []).zipIdx.map fun x =>
      ({ die := ms.getD m 0, plane := x.2, block := x.1 } : BlockAddr)).flatten.foldl
    (fun a b => a.updLedger b fun e => { e with state := lsOpen, unit := r.unit, sb := i, cls := cls, code := code }) s1
  let s2 : State := match s.takerOf r with
    | some st => (s2.ledgerBlocks.filter fun b => (s2.ledger b).sb == i && (s2.ledger b).state == lsOpen).foldl
        (fun (a : State) b => a.lockBlock b st) s2
    | none => s2
  { s2 with zeroFrom := s2.zeroFrom.filter fun x => x.1 != i
            sbs := s2.sbs ++
      [{ sb := i, unit := r.unit, maint := r.maint, group := g, profile := prof, cls,
         members := ms, zero, wls := s.classRows d0 cls, planes,
         lanes := (live.map fun m => (List.range planes).map fun p => { member := m, plane := p }).flatten }] }

/-- A request made once (R192). -/
def State.askAlloc (s : State) (r : AllocReq) : State :=
  if s.allocReqs.contains r then s else { s with allocReqs := s.allocReqs ++ [r] }

/-! ### Versions -/

def State.version? (s : State) (id : Nat) : Option Version := s.versions.find? fun v => v.id == id

def State.updVersion (s : State) (id : Nat) (f : Version → Version) : State :=
  { s with versions := s.versions.map fun v => if v.id == id then f v else v }

/-- Codewords of a version: one for each sector of its granule. -/
def Version.size (v : Version) : Nat := v.wseqs.length

/-- The lane a version has codewords in. -/
def Lane.holds (l : Lane) (id : Nat) : Bool := l.queue.any fun c => match c with
  | .ver i _ => i == id
  | .pad => false

def CwRef.isVer (id : Nat) : CwRef → Bool
  | .ver i _ => i == id
  | .pad => false

/-- A version's codewords taken out of the lanes it waits in: where its program unit is already queued their places become
pads, else they are removed (R167). -/
def State.unlane (s : State) (id : Nat) : State :=
  { s with sbs := s.sbs.map fun b =>
      let per := s.perRow b
      { b with lanes := b.lanes.map fun l =>
          let k := match b.row with
            | some r => if r.queued.contains l.member || r.contributed.contains l.member then per else 0
            | none => 0
          { l with queue := ((l.queue.take k).map fun c => if c.isVer id then .pad else c)
              ++ (l.queue.drop k).filter fun c => !(c.isVer id) } } }

/-- A version placed again whole (R196, R541). -/
def State.replace (s : State) (id : Nat) : State :=
  (s.unlane id).updVersion id fun v => { v with placed := 0, prog := 0, started := false, loc := none }

/-- A piece of durability work of FLUSH and FUA commands done (R141, R142). -/
def State.workDone (s : State) (p : Nat × Nat × Nat → Bool) : State :=
  { s with cmds := s.cmds.map fun c =>
      if c.opcode == 2 || c.opcode == 3 then { c with work := c.work.filter fun w => !(p w) } else c }

/-- A version ended: out of its lanes, its buffer dropped, no command waits for it. -/
def State.dropVersion (s : State) (id : Nat) : State :=
  match s.version? id with
  | none => s
  | some v =>
    let s0 := (s.jobs.filter fun j => match j.purpose with
      | .merge i _ => i == id
      | _ => false).foldl (fun a j => a.unpin (ppaBlk j.ppa)) s
    let s1 := (s0.unlane id).dropBuf v.handle
    { s1.workDone (fun w => w.1 == 0 && w.2.1 == id) with
      versions := s1.versions.filter fun x => x.id != id
      jobs := s1.jobs.filter fun j => match j.purpose with
        | .merge i _ => i != id
        | _ => true }

/-- Older versions of a granule whose program has not started are superseded: never programmed (R167). -/
def State.supersede (s : State) (u g newer : Nat) : State :=
  (s.versions.filter fun v => v.unit == u && v.granule == g && v.id != newer && !v.started && v.moveFrom.isNone).foldl
    (fun a v => a.dropVersion v.id) s

/-- Whether a codeword of a version waits in a superblock for a program unit that is not yet queued. -/
def State.waitsIn (s : State) (b : OpenSb) (id : Nat) : Bool :=
  b.lanes.any fun l =>
    let begun := match b.row with
      | some r => r.queued.contains l.member || r.contributed.contains l.member
      | none => false
    (l.queue.drop (if begun then s.perRow b else 0)).any fun c => c.isVer id

/-- Whether codewords of a version wait unprogrammed: without a place, or in a program unit that is not yet queued (R144). -/
def State.waits (s : State) (v : Version) : Bool := v.placed == 0 || s.sbs.any fun b => s.waitsIn b v.id

/-- The status of the failure that holds a version's codewords back under R144, if one does: its unit is READ_ONLY, or no block of
a usable class remained for it. -/
def State.heldBack (s : State) (v : Version) : Option Nat :=
  if v.maint then none
  else if s.unitState v.unit == 5 && s.waits v then some stMediaExhausted
  else if v.placed == 0 && v.raised.contains stMediaFull then some stMediaFull
  else none

/-- The failure that holds back a piece of durability work, with the unit (R144). -/
def State.heldWork (s : State) (w : Nat × Nat × Nat) : Option (Nat × Nat) :=
  if w.1 != 0 then none
  else (s.version? w.2.1).bind fun v => (s.heldBack v).map fun st => (st, v.unit)

/-- FLUSH commands, and accepted FUA WRITEs, whose durability work is not done. -/
def State.flushers (s : State) : List Cmd :=
  s.cmds.filter fun c => !c.isEnded && !c.work.isEmpty &&
    ((c.opcode == 3 && c.isStarted) || (c.opcode == 2 && c.fua && c.phase == .accepted))

/-- The versions and the rows' members that some FLUSH or FUA WRITE waits for; none waits for codewords held back (R144). -/
def State.wanted (s : State) : List (Nat × Nat × Nat) :=
  (s.flushers.map fun c => c.work).flatten.filter fun w => (s.heldWork w).isNone

/-- PARK entry holds new media operations back: no command that restarts the entry is at work (R33 step 2, R153). -/
def State.parkHolds (s : State) : Bool := s.modes.parkEntry && !s.modes.parkRestarted

/-- Whether PARK entry lets a version be placed: during it only what a restarting command needs is programmed; the data of a
plain WRITE stays in its buffers until the block wakes (R153). -/
def State.parkLets (s : State) (v : Version) : Bool :=
  !s.modes.parkEntry || (s.modes.parkRestarted && (v.maint || s.wanted.any fun w => w.1 == 0 && w.2.1 == v.id))

/-- Whether a version may be given places: its merge is done (R168), it has none yet, and its unit is not READ_ONLY (R216);
in PARK and SANITIZE, from a power failure on and while a global exclusive is at work (R157), nothing is placed, and in PARK entry
only what R153 lets. -/
def State.placeable (s : State) (v : Version) : Bool :=
  v.placed == 0 && !s.exclusiveAtWork && v.merge.isEmpty && (v.maint || s.unitState v.unit != 5)
    && s.modes.current != .park && s.modes.current != .sanitize && !s.prot.pfail && s.parkLets v

/-- Whether a version is RASTER data that waits for orbit slots: slots serve the units of the open streams (R53). -/
def State.slotOnly (s : State) (v : Version) : Bool :=
  v.raster && !v.maint && s.orbitTable.isSome && s.streams.any fun x => x.isOpen && x.unit == v.unit

/-! ### Lanes -/

/-- Data places of a lane from row `wl` to the end of the superblock (R173). -/
def State.laneLeft (s : State) (b : OpenSb) (m wl : Nat) : Nat :=
  ((List.range b.wls).filter fun w => wl ≤ w && s.rowHoldsData b.sb w m).length * s.perRow b

/-- The lanes of the open row with room, fewest places used first, ties to the lowest member and plane (R173). -/
def State.openLanes (s : State) (b : OpenSb) (r : Row) : List Lane :=
  let per := s.perRow b
  sortBy (fun x y => x.queue.length < y.queue.length || (x.queue.length == y.queue.length &&
      (x.member < y.member || (x.member == y.member && x.plane ≤ y.plane))))
    (b.lanes.filter fun l => (b.rowData r).contains l.member && l.queue.length < per
      && !(r.queued.contains l.member) && !(r.contributed.contains l.member))

def OpenSb.updLane (b : OpenSb) (m p : Nat) (f : Lane → Lane) : OpenSb :=
  { b with lanes := b.lanes.map fun l => if l.member == m && l.plane == p then f l else l }

/-- A granule of `n` codewords put into a lane of the open row; a lane with too few places left to the block's end is
filled with pads (R173, R174). -/
def State.putInLane (s : State) (b : OpenSb) (r : Row) (id n : Nat) : List Lane → OpenSb × Bool
  | [] => (b, false)
  | l :: rest =>
    let left := s.laneLeft b l.member r.wl - l.queue.length
    if left < n then
      s.putInLane (b.updLane l.member l.plane fun x => { x with queue := x.queue ++ List.replicate left .pad }) r id n rest
    else
      (b.updLane l.member l.plane fun x => { x with queue := x.queue ++ (List.range n).map fun i => .ver id i }, true)

/-! ### Rows -/

/-- The accumulator bytes that slots still due need: their groups' RASTER superblocks of the open streams' units, which take
precedence for the next free space (R182). -/
def State.dueNeed (s : State) : Nat :=
  sumOf ((distinct (s.orbit.due.map fun x => x.1)).map fun g =>
    ((s.sbs.filter fun b => b.group == g && !b.maint && b.row.isNone && s.streams.any fun x => x.isOpen && x.unit == b.unit).map
      s.accBytes).foldl max 0)

/-- The next row of a superblock opened when store space is free or can be made, a row that no slot opens leaving what due slots need:
its accumulator is taken and NEXT_WL moves on (R179, R181, R182). -/
def State.openRow (s : State) (i : Nat) (tick : Option Nat) : State × Bool :=
  match s.openSb? i with
  | none => (s, false)
  | some b =>
    if b.row.isSome || b.wls ≤ b.nextWl then (s, b.row.isSome)
    else
      let room := s.makeRoom i (s.accBytes b + (if tick.isNone then s.dueNeed else 0)) (s.sbs.length + 1)
      if !room.2 then (room.1, false)
      else
        let s1 := room.1
        let row : Row := { wl := b.nextWl, present := s1.rowPresent i b.nextWl, accAt := s1.now, tickNo := tick }
        let s2 := s1.updSb i fun b => { b with row := some row, nextWl := b.nextWl + 1 }
        (s2.setSbField i 12 2 (b.nextWl + 1), true)

/-- Whether a superblock serves a version: its unit and stream, and the class it asks first, unless none of that class can
be had; never class 0 for a FOLD target (R176, R190). -/
def State.serves (s : State) (v : Version) (b : OpenSb) : Bool :=
  b.unit == v.unit && b.maint == v.maint && !(v.fold && b.cls == 0) &&
    (let ask := if v.tclass != 255 then some v.tclass
        else if v.raster && !v.maint && s.modes.current == .recordBurst then some 0 else none
     match ask with
     | none => true
     | some c => b.cls == c || !((s.allocAnswer
         { prio := if v.maint then 3 else 1, unit := v.unit, maint := v.maint, tclass := v.tclass, fold := v.fold }).any
           fun x => x.1 == c))

/-- One version given places, if an open row has room, or a row may open for it; otherwise the allocator is asked. -/
def State.placeOne (s : State) (v : Version) : State :=
  let mine := rotate (s.sbs.filter fun b => s.serves v b && !(match b.row with
    | some r => r.closeAfter
    | none => false)) s.freePick
  let s0 := if mine.length ≤ 1 then s else s.drawFree
  let tryIn (a : State) (i : Nat) : State × Bool :=
    match a.openSb? i with
    | some b => match b.row with
      | some r =>
        let p := a.putInLane b r v.id v.size (a.openLanes b r)
        let a1 := a.updSb i fun _ => p.1
        if p.2 then (a1.updVersion v.id fun x => { x with placed := x.size }, true) else (a1, false)
      | none => (a, false)
    | none => (a, false)
  let withRow := mine.filter fun b => b.row.isSome
  let r1 := withRow.foldl (fun acc b => if acc.2 then acc else tryIn acc.1 b.sb) (s0, false)
  if r1.2 then r1.1
  else if s.slotOnly v then r1.1
  else
    let bare := mine.filter fun b => b.row.isNone && b.nextWl < b.wls
    let r2 := bare.foldl (fun acc b =>
      if acc.2 then acc
      else
        let o := acc.1.openRow b.sb none
        if o.2 then tryIn o.1 b.sb else (o.1, false)) (r1.1, false)
    if r2.2 then r2.1
    else if withRow.isEmpty && bare.isEmpty then
      r2.1.askAlloc { prio := if v.maint then 3 else if v.raster then 1 else 2, unit := v.unit, maint := v.maint,
                      tclass := v.tclass, fold := v.fold }
    else r2.1

/-- Every waiting version, in order of stamp (R53, R196). -/
def State.placeAll (s : State) : State :=
  (sortBy (fun a b => a.stamp ≤ b.stamp) s.versions).foldl (fun a v => match a.version? v.id with
    | some x => if a.placeable x then a.placeOne x else a
    | none => a) s

/-! ### Die operations -/

/-- The entries of a die's queue (R236). -/
def State.queueLen (s : State) (d : Nat) : Nat := (s.ops.filter fun o => o.die == d && o.queued).length

/-- An operation joins its die's queue, or waits in the dispatch stage while the queue is full (R236). -/
def State.addOp (s : State) (die : Nat) (kind : OpKind) (stamp cls : Nat) (due : Bool := false) : State :=
  { s with ops := s.ops ++ [{ id := s.nextOp, die, kind, stamp, cls, due, since := s.now, queued := s.queueLen die < 48 }]
           nextOp := s.nextOp + 1 }

/-- The codewords of member m's program unit of the open row: the first places of its lanes, plane by plane. -/
def OpenSb.unitCws (b : OpenSb) (m per : Nat) : List (Nat × List CwRef) :=
  (b.lanes.filter fun l => l.member == m).map fun l => (l.plane, l.queue.take per)

/-- Versions with a codeword in a program unit. -/
def unitVersions (u : List (Nat × List CwRef)) : List Nat :=
  distinct ((u.map fun p => p.2.filterMap fun c => match c with
    | .ver i _ => some i
    | .pad => none).flatten)

/-- Whether an operation writes a half of an interim record of superblock i. -/
def OpKind.interimIn (i : Nat) : OpKind → Bool
  | .interim sb _ _ => sb == i
  | _ => false

/-- Whether an operation programs for superblock i. -/
def OpKind.inSb (i : Nat) : OpKind → Bool
  | .program sb _ _ => sb == i
  | .parity sb _ _ _ => sb == i
  | k => k.interimIn i

/-- Whether a program of member m's unit of superblock i is queued or in flight. -/
def State.unitBusy (s : State) (i m : Nat) : Bool :=
  s.ops.any fun o => match o.kind with
    | .program sb _ x => sb == i && x == m
    | _ => false

/-- Data members whose units are programmed. -/
def State.programmed (s : State) (b : OpenSb) (r : Row) : List Nat :=
  r.contributed.filter fun m => !(s.unitBusy b.sb m)

/-- The durability work of a FLUSH: accepted versions of its scope not yet durable, and programmed members whose rows lack
parity (R141, R142). -/
def State.flushWork (s : State) (c : Cmd) : List (Nat × Nat × Nat) :=
  let vs := (s.versions.filter fun v => c.covers v.unit && v.moveFrom.isNone).map fun v => (0, v.id, 0)
  let rows := (s.sbs.map fun b => match b.row with
    | some r =>
      if c.covers b.unit && !b.maint && stripeParity b.profile != 0 then
        ((s.programmed b r).filter fun m => !(r.intDone.contains m)).map fun m => (1 + m, b.sb, r.wl)
      else []
    | none => []).flatten
  vs ++ rows

/-- Program units that have become full are queued (R179). -/
def State.queueUnits (s : State) (i : Nat) : State :=
  match s.openSb? i with
  | some b => match b.row with
    | some r =>
      let per := s.perRow b
      let full := (b.rowData r).filter fun m => !(r.queued.contains m) && !(r.contributed.contains m)
        && b.lanes.all fun l => l.member != m || per ≤ l.queue.length
      full.foldl (fun a m =>
        let vs := (unitVersions (b.unitCws m per)).filterMap a.version?
        let stamp := (vs.map fun v => v.stamp).foldl min (2 ^ 64)
        let cls := if vs.any fun v => v.raster then 0 else if b.maint then 3 else 2
        (a.updSb i fun b => { b with row := b.row.map fun r => { r with queued := r.queued ++ [m] } }).addOp
          (b.members.getD m 0) (.program i r.wl m) stamp cls r.tickNo.isSome) s
    | none => s
  | none => s

/-- The parity programs of a row, once every data member has contributed (R179). -/
def State.queueParity (s : State) (i : Nat) : State :=
  match s.openSb? i with
  | some b => match b.row with
    | some r =>
      if !((b.rowData r).all fun m => r.contributed.contains m) then s
      else
        ((b.rowParity r).filter fun m => !(r.parityQueued.contains m) && !(r.failed.contains m)).foldl (fun a m =>
          let q := b.profile == 4 && (b.rowParity r).getD 1 256 == m
          (a.updSb i fun b => { b with row := b.row.map fun r => { r with parityQueued := r.parityQueued ++ [m] } }).addOp
            (b.members.getD m 0) (.parity i r.wl m q) 0 (if b.maint then 3 else if r.tickNo.isSome then 0 else 2)
            r.tickNo.isSome) s
    | none => s
  | none => s

/-! ### Closing -/

/-- An OPEN superblock on chip ends: its blocks and its entry become CLOSED (R179); granules with places left in it are placed
again. -/
def State.closeSb (s : State) (i : Nat) : State :=
  match s.openSb? i with
  | none => s
  | some b =>
    let ids := distinct ((b.lanes.map fun l => unitVersions [(l.plane, l.queue)]).flatten)
    let held := match b.row with
      | some r => r.spilled
      | none => []
    let s1 := s.dropBufs held
    let s2 := { s1 with sbs := s1.sbs.filter fun x => x.sb != i }
    (ids.foldl State.replace s2).closeTable i

/-- The open row ends when its data and parity units are all programmed: the accumulator is released and rows no longer
wait for its parity; after the last row, or one marked so, the superblock closes (R179, R181). -/
def State.closeRow (s : State) (i : Nat) : State :=
  match s.openSb? i with
  | some b => match b.row with
    | some r =>
      let done := (b.rowData r).all (fun m => r.contributed.contains m)
        && (b.rowParity r).all (fun m => r.parityDone.contains m || r.failed.contains m)
        && !(s.ops.any fun o => o.kind.inSb i)
      if !done then s
      else
        let s1 := s.dropBufs r.spilled
        let s2 := (s1.updSb i fun b => { b with row := none }).workDone fun w => 1 ≤ w.1 && w.2.1 == i && w.2.2 == r.wl
        if b.wls ≤ b.nextWl || r.closeAfter then s2.closeSb i else s2
    | none => s
  | none => s

/-- The lanes of member m filled up with pad codewords (R143). -/
def State.padMember (s : State) (i m : Nat) : State :=
  match s.openSb? i with
  | some b =>
    let per := s.perRow b
    s.updSb i fun b => { b with lanes := b.lanes.map fun l =>
      if l.member == m then { l with queue := l.queue ++ List.replicate (per - l.queue.length) .pad } else l }
  | none => s

/-- Every data member of the open row filled up, so that the row completes. -/
def State.padRow (s : State) (i : Nat) : State :=
  match s.openSb? i with
  | some b => match b.row with
    | some r => (b.rowData r).foldl (fun a m => if r.queued.contains m || r.contributed.contains m then a else a.padMember i m) s
    | none => s
  | none => s

/-- A superblock closed on request: its open row is filled up and completes first; with no row open, or left OPEN in the table by a
reset, it closes at once (R179, R196, R208, R210). -/
def State.requestClose (s : State) (i : Nat) : State :=
  match s.openSb? i with
  | some b =>
    if b.row.isNone then s.closeSb i
    else (s.padRow i).updSb i fun b => { b with row := b.row.map fun r => { r with closeAfter := true } }
  | none => s.closeTable i

/-! ### FLUSH and FUA (R141 to R143, R183) -/

/-- The incomplete program unit that holds a covered version is closed: its member, or, where the granule runs on into a
later row or waits behind this one, every data member of the row (R143). -/
def State.closeFor (s : State) (id : Nat) : State :=
  match s.sbs.find? fun b => b.row.isSome && b.lanes.any fun l => l.holds id with
  | some b => match b.row, b.lanes.find? (fun l => l.holds id) with
    | some r, some l =>
      let per := s.perRow b
      let last := (l.queue.zipIdx.filter fun c => c.1.isVer id).foldl (fun m c => max m c.2) 0
      if (b.rowData r).contains l.member && last < per then
        if r.queued.contains l.member || r.contributed.contains l.member then s else s.padMember b.sb l.member
      else s.padRow b.sb
    | _, _ => s
  | none => s

/-- The interim block of a die with `n` pages left, if one is kept. -/
def State.interimOf (s : State) (d n : Nat) : Option (BlockAddr × Nat) :=
  (s.interimBlocks.find? fun x => x.1 == d && x.2.2 + n ≤ s.classPages d 0).map fun x => x.2

/-- Pages of an interim record: its header and the P or Q codewords (R183). -/
def State.interimPages (s : State) (b : OpenSb) : Nat := ceilDiv (1 + b.planes * s.perRow b) 4

/-! ### Codeword payloads -/

/-- The payload of a codeword place: a pad, or a sector of a version's buffer with its metadata (R143, R270). -/
def State.cwPayload (s : State) (c : CwRef) : List Byte :=
  match c with
  | .pad => payloadOf [] metaPad
  | .ver id i => match s.version? id with
    | some v =>
      let user := s.memRead (s.bufAddr v.handle + 4096 * i) 4096
      let m := match v.metas[i]? with
        | some m => m
        | none => metaOf v.unit (v.lbas.getD i 0) (v.wseqs.getD i 0) v.atomic (v.poison.contains i) (v.remain0 - i)
      payloadOf user m
    | none => payloadOf [] metaPad

/-- The places of a member's program unit of row `wl`: (key of the place in its unit, place PPA, codeword). -/
def State.unitPlaces (s : State) (b : OpenSb) (m wl : Nat) : List (Nat × Nat × CwRef) :=
  let per := s.perRow b
  ((b.unitCws m per).map fun x => x.2.zipIdx.map fun c =>
    (x.1 * per + c.2, s.placePpa b.sb m x.1 (wl * per + c.2), c.1)).flatten

/-- A payload added to one place of an accumulator. -/
def accAdd (acc : List (Nat × List Byte)) (key : Nat) (p : List Byte) : List (Nat × List Byte) :=
  if acc.any fun a => a.1 == key then acc.map fun a => if a.1 == key then (key, xorBytes a.2 p) else a
  else acc ++ [(key, p)]

/-- A member's payloads added to the row's P and Q, or, once there, taken out of them again (R180). -/
def Row.contribute (r : Row) (m : Nat) (hasQ : Bool) (ps : List (Nat × List Byte)) : Row :=
  { r with
    accP := ps.foldl (fun a x => accAdd a x.1 x.2) r.accP
    accQ := if hasQ then ps.foldl (fun a x => accAdd a x.1 (gfScale (gfGen m) x.2)) r.accQ else r.accQ }

/-! ### Interim records (R183) -/

/-- No interim record is being written. -/
def Row.clearInterim (r : Row) : Row := { r with interim := [], interimLeft := [], intP := [], intQ := [], intSeq := 0, intPpa := 0 }

/-- An interim record of the members `done` begins: their P and Q, what members in flight have contributed taken out, and their
highest write sequence; `ps` are the parity members its halves go to (R183). -/
def State.beginInterim (s : State) (b : OpenSb) (r : Row) (done ps : List Nat) : Row :=
  let late := r.contributed.filter fun m => !(done.contains m)
  let acc := late.foldl (fun a m => a.contribute m (b.profile == 4) ((s.unitPlaces b m r.wl).map fun x => (x.1, s.cwPayload x.2.2))) r
  let seq := ((r.high.filter fun h => done.contains h.1).map fun h => h.2).foldl max 0
  { r with interim := done, interimLeft := ps, intP := acc.accP, intQ := acc.accQ, intSeq := seq, intPpa := 0 }

/-- The halves of an interim record that are not yet on media are queued, each on its parity member's die; where the die has no
interim block with room, the allocator is asked for one (R183). -/
def State.queueHalves (s : State) (i : Nat) : State :=
  match s.openSb? i with
  | some b => match b.row with
    | some r =>
      r.interimLeft.foldl (fun a m =>
        let d := b.members.getD m 0
        if a.ops.any fun o => o.kind == .interim i r.wl m then a
        else if (a.interimOf d (s.interimPages b)).isSome then a.addOp d (.interim i r.wl m) 0 2
        else a.askAlloc { prio := 4, unit := b.unit, maint := b.maint, die := d }) s
    | none => s
  | none => s

/-- An interim record none of whose halves is left to write: INTERIM_PPA, where the P half is on media, and INTERIM_MASK are
written, and the members it covers count as having parity on media (R141, R183). -/
def State.interimEnd (s : State) (i : Nat) : State :=
  match (s.openSb? i).bind fun b => b.row with
  | some r =>
    if r.interim.isEmpty || !r.interimLeft.isEmpty then s
    else
      let s1 := if r.intPpa = 0 then s
        else ((s.setSbField i 24 8 r.intPpa).setSbField i 32 4 (sumOf (r.interim.map fun x => 2 ^ x))).bump Obj.PAR_INTERIM
      (s1.workDone fun w => 1 ≤ w.1 && w.2.1 == i && w.2.2 == r.wl && r.interim.contains (w.1 - 1)).updSb i fun b =>
        { b with row := b.row.map fun r => { r.clearInterim with intDone := distinct (r.intDone ++ r.interim) } }
  | none => s

/-- An interim record not yet begun on the media given up: the row's final parity supersedes it (R183). -/
def State.dropInterim (s : State) (i : Nat) : State :=
  let s1 := { s with ops := s.ops.filter fun o => o.started || !(o.kind.interimIn i) }
  if s1.ops.any fun o => o.kind.interimIn i then s1
  else s1.updSb i fun b => { b with row := b.row.map Row.clearInterim }

/-- An interim record begun for a row that some FLUSH or FUA WRITE waits for, and its halves queued (R183); none once every data
member has contributed. With every parity member of the row lost there is nothing to wait for: the parity counts as on media
(R141). -/
def State.queueInterim (s : State) (i : Nat) : State :=
  match s.openSb? i with
  | some b => match b.row with
    | some r =>
      let done := s.programmed b r
      let mine (w : Nat × Nat × Nat) : Bool := 1 ≤ w.1 && w.2.1 == i && w.2.2 == r.wl && done.contains (w.1 - 1)
      if (b.rowData r).all fun m => r.contributed.contains m then s.dropInterim i
      else if !r.interim.isEmpty then s.queueHalves i
      else if !(s.wanted.any mine) then s
      else
        let ps := (b.rowParity r).filter fun m => !(r.failed.contains m)
        if ps.isEmpty then s.workDone mine
        else
          let s1 := s.updSb i fun b => { b with row := b.row.map fun r => s.beginInterim b r done ps }
          s1.queueHalves i
    | none => s
  | none => s

/-! ### The whole -/

/-- Rows that codewords already assigned wait for are opened, outside the orbit (R173). -/
def State.openWaiting (s : State) : State :=
  s.sbs.foldl (fun a b =>
    let ids := distinct ((b.lanes.map fun l => unitVersions [(l.plane, l.queue)]).flatten)
    if b.row.isNone && !ids.isEmpty && !(ids.any fun id => match a.version? id with
        | some v => a.slotOnly v
        | none => false)
    then (a.openRow b.sb none).1 else a) s

/-- Placement brought up to date: finished rows end, waiting versions take places, units that are full or must be closed
are queued, then parity and interim records. While the block drains for SANITIZE every unit that holds accepted data is closed,
so that the accepted writes run to completion (R31). -/
def State.pump (s : State) : State :=
  let s1 := s.sbs.foldl (fun a b => a.closeRow b.sb) s
  let s2 := s1.openWaiting.placeAll
  let s3 := (if s2.modes.draining then s2.versions.map fun v => v.id
    else (s2.wanted.filter fun w => w.1 == 0).map fun w => w.2.1).foldl State.closeFor s2
  s3.sbs.foldl (fun a b => ((a.queueUnits b.sb).queueParity b.sb).queueInterim b.sb) s3

end Sys2Proof.Machine
end

