-- ==== Sys2Proof/Machine/ProgOps.lean ====
section
/-!
DEFINITION. Machine/ProgOps.lean: program units on their way to the media: their start and parity contribution (R180),
their good and failed status (R141, R166, R541), the loss of a die (R196), waiting after MEDIA_FULL and MEDIA_EXHAUSTED
(R144), and the end of durability waits (R141, R142).
-/

namespace Sys2Proof.Machine

open Sys2Proof

/-! ### Starting a unit -/

/-- A spilled accumulator reloaded (R182): it waits while the store has no room. -/
def State.reload (s : State) (i : Nat) : State × Bool :=
  match s.openSb? i with
  | some b => match b.row with
    | some r =>
      if r.spilled.isEmpty then (s, true)
      else
        let m := s.makeRoom i (s.accBytes b) (s.sbs.length + 1)
        if m.2 then
          ((m.1.dropBufs r.spilled).updSb i fun b => { b with row := b.row.map fun r => { r with spilled := [] } }, true)
        else (m.1, false)
    | none => (s, false)
  | none => (s, false)

/-- The write sequence of a codeword; 0 for a pad. -/
def State.cwSeq (s : State) (c : CwRef) : Nat :=
  match c with
  | .ver id k => ((s.version? id).map fun v => v.wseqs.getD k 0).getD 0
  | .pad => 0

/-- A data unit starts: its versions' programs have started, their first places are fixed, its payloads go into the row's
parity (R167, R179, R180). False where it must wait for its accumulator. -/
def State.startUnit (s : State) (i m : Nat) : State × Bool :=
  let l := s.reload i
  if !l.2 then l
  else match l.1.openSb? i with
    | some b => match b.row with
      | some r =>
        let places := l.1.unitPlaces b m r.wl
        let ps := if stripeParity b.profile = 0 then [] else places.map fun x => (x.1, l.1.cwPayload x.2.2)
        let s1 := places.foldl (fun a x => match x.2.2 with
          | .ver id k => a.updVersion id fun v => { v with started := true, loc := if k = 0 then some x.2.1 else v.loc }
          | .pad => a) l.1
        let now := s1.now
        (s1.updSb i fun b => { b with row := b.row.map fun r =>
          { r.contribute m (b.profile == 4) ps with
            high := r.high ++ [(m, (places.map fun x => l.1.cwSeq x.2.2).foldl max 0)]
            contributed := r.contributed ++ [m], queued := r.queued.filter (fun x => x != m), accAt := now } }, true)
      | none => (l.1, false)
    | none => (l.1, false)

/-! ### Durability -/

/-- The first WRITE of a unit to complete OK after an entry into SPARE_LOW or SPARE_CRITICAL carries OK_WITH_NOTICE
(R214). -/
def State.okStatus (s : State) (c : Cmd) : State × Nat :=
  if c.opcode == 2 && s.slcOkOnce.contains c.unit then
    ({ s with slcOkOnce := s.slcOkOnce.filter fun u => u != c.unit }, stOkNotice)
  else (s, stOk)

/-- A command that did what its opcode defines completes. -/
def State.finishOk (s : State) (c : Cmd) (info : Nat := 0) : State :=
  let r := s.okStatus c
  r.1.finish c.stamp r.2 info

/-- A FLUSH ends: OK where all its work is done; where only codewords held back are left, with the pending deferred error, or,
when none is pending, with the status of the failure that holds them back (R142, R144). -/
def State.endFlush (s : State) (c : Cmd) : State :=
  match c.work.findSome? s.heldWork with
  | some h => if (s.deferredFor c).isSome then s.finishOk c else s.finish c.stamp h.1 h.2
  | none => s.finishOk c

/-- FUA WRITEs whose durability work is done complete with OK, and FLUSHes that wait for nothing but codewords held back complete
(R141, R142, R144). -/
def State.sweepDurable (s : State) : State :=
  (s.cmds.filter fun c => !c.isEnded && ((c.opcode == 3 && c.isStarted && c.work.all fun w => (s.heldWork w).isSome)
    || (c.opcode == 2 && c.fua && c.phase == .accepted && c.work.isEmpty))).foldl
    (fun a c => if c.opcode == 3 then a.endFlush c else a.finishOk c) s

/-- Work that waited for a version's program now waits for its row's parity, while the row is open and has parity
(R141). -/
def State.versionToRow (s : State) (id i m wl : Nat) : State :=
  let open_ := match s.openSb? i with
    | some b => b.row.isSome && stripeParity b.profile != 0
    | none => false
  { s with cmds := s.cmds.map fun c =>
      if (c.opcode == 2 || c.opcode == 3) && c.work.any fun w => w.1 == 0 && w.2.1 == id then
        { c with work := (c.work.filter fun w => !(w.1 == 0 && w.2.1 == id))
            ++ if open_ && !(c.work.contains (1 + m, i, wl)) then [(1 + m, i, wl)] else [] }
      else c }

/-! ### Good status -/

/-- A move counted for its command: the target block it went to, or left in place (R201). -/
def State.countMove (s : State) (stamp : Nat) (loc : Nat) (moved : Bool) : State :=
  s.updCmd stamp fun c =>
    if moved && (c.opcode == 5 || c.opcode == 0x28 || c.opcode == 0x2B) then { c with moved := c.moved + 1 }
    else if moved then
      let b := ppaBlk loc
      { c with moved := c.moved + 1,
               targets := if c.targets.any fun t => t.1 == b then
                   c.targets.map fun t => if t.1 == b then (t.1, t.2.1, t.2.2 + 1) else t
                 else c.targets ++ [(b, loc, 1)] }
    else { c with left := c.left + 1 }

/-- A programmed granule keeps the WRITE it came from; a moved one keeps that of its source (R144). -/
def State.noteOrigin (s : State) (v : Version) (entry i m wl : Nat) : State :=
  let rows := distinct (v.rows ++ [wl])
  let others := s.origins.filter fun o => !(o.unit == v.unit && o.granule == v.granule)
  if v.moveFrom.isSome then
    let mine := s.origins.filter fun o => o.unit == v.unit && o.granule == v.granule
    { s with origins := others ++ mine.map fun (o : Origin) => { o with entry := entry, sb := i, member := m, rows := rows } }
  else
    let loc := match v.path with
      | .lsw _ => true
      | .host => false
    let o : Origin :=
      { unit := v.unit, granule := v.granule, stamp := v.stamp, queue := v.queue, cid := v.cid, isLocal := loc,
        fua := v.fua, sectors := v.size, entry, sb := i, member := m, rows }
    { s with origins := others ++ [o] }

/-- A version whose codewords all have good status: its entry turns to MEDIA if it still holds what the work started from, its
buffer returns; newer versions of the granule, over which no newer one has been programmed, now lie over it (R166, R170, R185). -/
def State.versionDone (s : State) (v : Version) (i m wl : Nat) : State :=
  let loc := v.loc.getD 0
  let was := match v.moveFrom with
    | some e => e.toNat
    | none => entryBuffer v.stamp v.handle
  let r := s.mapCas v.unit v.granule was (entryMedia loc)
  let s2 := match v.moveCmd with
    | some st => r.1.countMove st loc r.2
    | none => r.1
  let s3 := (s2.versionToRow v.id i m wl).dropBuf v.handle
  let s4 := if r.2 then s3.noteOrigin v (entryMedia loc) i m wl else s3
  let under (x : Version) : Version :=
    if x.unit == v.unit && x.granule == v.granule && v.moveFrom.isNone && v.stamp < x.stamp && x.underStamp ≤ v.stamp then
      { x with under := w64 (entryMedia loc), underStamp := v.stamp } else x
  { s4 with versions := (s4.versions.filter fun x => x.id != v.id).map under }

/-- One codeword counted (R488). -/
def State.countCw (s : State) (c : CwRef) : State :=
  match c with
  | .pad => s.bump Obj.STAT_PAD_CW
  | .ver id _ => match s.version? id with
    | some v => if v.moveFrom.isSome then (s.bump Obj.STAT_PROG_CW).bump Obj.STAT_MOVE_CW else s.bump Obj.STAT_PROG_CW
    | none => s.bump Obj.STAT_PROG_CW

/-- The LBA range of a block widened, and its unit set, by the granule codewords programmed into it (R185). -/
def State.widenBlock (s : State) (b : BlockAddr) (u : Nat) (cws : List CwRef) : State :=
  let lbas := cws.filterMap fun c => match c with
    | .ver id k => (s.version? id).map fun v => v.lbas.getD k 0
    | .pad => none
  if lbas.isEmpty then s
  else s.updLedger b fun e => { e.widen (lbas.foldl min lbaEmptyMin) (lbas.foldl max 0) with unit := u }

/-- A data unit has good status: its codewords widen their blocks' ranges, leave their lanes and count; versions that are whole are
done. -/
def State.unitGood (s : State) (i wl m : Nat) : State :=
  match s.openSb? i with
  | none => s
  | some b =>
    let per := s.perRow b
    let cws := b.unitCws m per
    let refs := (cws.map fun x => x.2).flatten
    let s0 := cws.foldl (fun a x => a.widenBlock { die := b.members.getD m 0, plane := x.1, block := s.sbBlock i m x.1 } b.unit x.2) s
    let s1 := refs.foldl State.countCw s0
    let s2 := s1.updSb i fun b => { b with lanes := b.lanes.map fun l =>
      if l.member == m then { l with queue := l.queue.drop per } else l }
    let s3 := refs.foldl (fun a c => match c with
      | .ver id _ => a.updVersion id fun v => { v with prog := v.prog + 1, rows := distinct (v.rows ++ [wl]) }
      | .pad => a) s2
    (unitVersions cws).foldl (fun a id => match a.version? id with
      | some v => if v.size ≤ v.prog then a.versionDone v i m wl else a
      | none => a) s3

/-- A parity unit has good status. -/
def State.parityGood (s : State) (i m : Nat) : State :=
  s.updSb i fun b => { b with row := b.row.map fun r => { r with parityDone := r.parityDone ++ [m] } }

/-- A half of an interim record has good status: its block's next page moves on; the P half tells the record's first page
(R183). -/
def State.interimGood (s : State) (i wl m d : Nat) : State :=
  match s.openSb? i with
  | none => s
  | some b =>
    let n := s.interimPages b
    match s.interimOf d n with
    | none => s
    | some (blk, page) =>
      let s1 : State := { s with interimBlocks := s.interimBlocks.map fun (x : Nat × BlockAddr × Nat) =>
        if x.1 == d && x.2.1 == blk then (x.1, x.2.1, page + n) else x }
      let first := ppaOf d blk.plane blk.block page 0 0 (s.ledger blk).code
      (s1.updSb i fun b => { b with row := b.row.map fun (r : Row) =>
        if r.wl != wl then r
        else { r with interimLeft := r.interimLeft.filter (fun x => x != m)
                      intPpa := if (b.rowParity r).head? == some m then first else r.intPpa } }).interimEnd i

/-! ### Failed status (R541) and lost members (R196) -/

/-- Whether a superblock's entry names a member as lost. -/
def State.knownLost (s : State) (i m : Nat) : Bool := s.sbLostA i == m || s.sbLostB i == m

/-- A lost member recorded with its first lost row; true where no place for it is left (R196, R541). -/
def State.recordLost (s : State) (i m wl : Nat) : State × Bool :=
  if s.knownLost i m then (s, false)
  else if s.sbLostA i == 255 then ((s.setSbField i 16 1 m).setSbField i 18 2 wl, false)
  else if s.sbLostB i == 255 then ((s.setSbField i 17 1 m).setSbField i 20 2 wl, false)
  else (s, true)

/-- Member m leaves an OPEN superblock from its open row, or from NEXT_WL, on: in the open row it is an erasure, rows opened later have
it as a zero member, its granules that are not yet programmed are placed again, and a third lost member closes the superblock
(R178, R196, R541). -/
def State.loseMember (s : State) (i m : Nat) : State :=
  match s.openSb? i with
  | none => s
  | some b =>
    let wl := match b.row with
      | some r => r.wl
      | none => b.nextWl
    let rec0 := s.recordLost i m wl
    let fresh := b.row.isNone && !rec0.2 && !(s.knownLost i m)
    let rec_ := (if fresh then { rec0.1 with zeroFrom := rec0.1.zeroFrom ++ [(i, m)] } else rec0.1, rec0.2)
    let ids := distinct (((b.lanes.filter fun l => l.member == m).map fun l => unitVersions [(l.plane, l.queue)]).flatten)
    let s1 := { rec_.1 with ops := rec_.1.ops.filter fun o => match o.kind with
      | .program sb _ x => !(sb == i && x == m)
      | .parity sb _ x _ => !(sb == i && x == m)
      | .interim sb _ x => !(sb == i && x == m)
      | _ => true }
    let s2 := s1.updSb i fun b =>
      { b with row := b.row.map fun r => { r with failed := distinct (r.failed ++ [m]), queued := r.queued.filter (fun x => x != m),
                                                  interimLeft := r.interimLeft.filter (fun x => x != m) },
               lanes := b.lanes.filter fun l => l.member != m }
    let s3 := (ids.foldl State.replace s2).interimEnd i
    if rec_.2 then s3.requestClose i else s3

/-- A program unit of a member whose die stays PRESENT has failed status (R541): its block set is GROWN_BAD, the member
leaves the superblock, its granules are placed again; a move counts a failed target (R202). -/
def State.unitFailed (s : State) (i m : Nat) : State :=
  match s.openSb? i with
  | none => s
  | some b =>
    let per := s.perRow b
    let d := b.members.getD m 0
    let blocks := (List.range b.planes).map fun p => ({ die := d, plane := p, block := s.sbBlock i m p } : BlockAddr)
    let s1 := blocks.foldl State.growBad s
    let moves := (unitVersions (b.unitCws m per)).filterMap fun id => (s.version? id).bind fun v => v.moveCmd
    let s2 := moves.foldl (fun a st => a.updCmd st fun c => { c with counted := c.counted + 1 }) s1
    s2.loseMember i m

/-- The superblocks of the table that have a die as a present member (R196). -/
def State.sbsWith (s : State) (d : Nat) : List (Nat × Nat) :=
  s.sbUsed.filterMap fun i => match memberOf (s.sbDies i) d with
    | some m => if s.sbZero i m || s.sbState i == sbFree then none else some (i, m)
    | none => none

/-- Every superblock loses a failed die's member; how many are affected (R196). -/
def State.loseDieMembers (s : State) (d : Nat) : State × Nat :=
  let l := s.sbsWith d
  (l.foldl (fun a x =>
    if (a.openSb? x.1).isSome then a.loseMember x.1 x.2
    else (a.recordLost x.1 x.2 (a.sbNextWl x.1)).1) s, l.length)

/-- The members of row `wl` whose contents are lost, and whether they exceed the row's parity (R199). A lost member is an
erasure in its first lost row, and in every row when its die is FAILED. -/
def State.rowErasures (s : State) (i wl : Nat) : List Nat :=
  let ds := s.sbDies i
  (s.rowPresent i wl).filter fun m => s.dieState (ds.getD m 0) == 3
    || (s.sbLostA i == m && s.sbLostAWl i == wl) || (s.sbLostB i == m && s.sbLostBWl i == wl)

def State.rowLost (s : State) (i wl : Nat) : Bool := stripeParity (s.sbProfile i) < (s.rowErasures i wl).length

/-- A FUA WRITE not yet completed ends with the status of its failure (R141). -/
def State.failFua (s : State) (st status info : Nat) : State :=
  if (s.cmd? st).any fun c => c.opcode == 2 && !c.isEnded then s.finish st status info else s

/-- Programmed data of WRITEs lost beyond its rows' parity: a completed WRITE raises UNCORRECTABLE, once; a FUA WRITE not yet
completed completes with it (R141, R144, R199). -/
def State.judgeLost (s : State) : State :=
  let hurt := s.origins.filter fun o => s.mapEntry o.unit o.granule == o.entry
    && o.rows.any fun w => s.rowLost o.sb w && (s.rowErasures o.sb w).contains o.member
  (distinct (hurt.map fun o => o.stamp)).foldl (fun a st =>
    let mine := hurt.filter fun o => o.stamp == st
    match mine with
    | [] => a
    | o :: _ =>
      let lba := (mine.map fun x => x.granule * a.unitSectors x.unit).foldl min lbaEmptyMin
      let a1 := if o.fua then a.failFua st stUncorrectable (lba % 2 ^ 40 + min (2 ^ 24 - 1) mine.length * 2 ^ 40)
        else a.deferError o.unit stUncorrectable o.queue o.cid st lba (sumOf (mine.map fun x => x.sectors)) o.isLocal
      { a1 with origins := a1.origins.filter fun x => x.stamp != st }) s

/-! ### Codewords that wait (R144) -/

/-- Versions of a unit that wait unprogrammed, as `waits` tells, raise their WRITE's deferred error, at most one for each status; a
FUA WRITE completes with the status instead (R141, R144). -/
def State.raiseWaiting (s : State) (u status : Nat) (waits : Version → Bool) : State :=
  let late := s.versions.filter fun v => v.unit == u && waits v && !v.maint
  (distinct (late.map fun v => v.stamp)).foldl (fun a st =>
    let mine := a.versions.filter fun v => v.stamp == st && waits v && !v.maint
    match mine with
    | [] => a
    | v :: _ =>
      if v.raised.contains status then a
      else
        let a1 := { a with versions := a.versions.map fun (x : Version) =>
          if x.stamp == st then ({ x with raised := status :: x.raised } : Version) else x }
        if v.fua then a1.failFua st status u
        else
          let loc := match v.path with
            | .lsw _ => true
            | .host => false
          a1.deferError u status v.queue v.cid st ((mine.map fun (x : Version) => x.lbas.headD 0).foldl min lbaEmptyMin)
            (sumOf (mine.map Version.size)) loc) s

/-- No block of a usable class remains for a unit's codewords without a place (R144). -/
def State.holdFull (s : State) (u : Nat) : State := s.raiseWaiting u stMediaFull fun v => v.placed == 0

/-- Units that are READ_ONLY while codewords wait unprogrammed (R144, R216). -/
def State.holdReadOnly (s : State) : State :=
  (distinct ((s.versions.filter fun v => s.waits v && !v.maint).map fun v => v.unit)).foldl (fun a u =>
    if a.unitState u == 5 then a.raiseWaiting u stMediaExhausted a.waits else a) s

/-- Placement and the completions that follow from it, brought up to date. It reaches the fields named here; nothing else. -/
def State.advance (s : State) : State :=
  let t := s.pump.holdReadOnly.sweepDurable
  { s with
    dict := t.dict, mem := t.mem, cmds := t.cmds, link := { s.link with windows := t.link.windows, out0 := t.link.out0 }
    deferred := t.deferred, deferNew := t.deferNew
    versions := t.versions, sbs := t.sbs, allocReqs := t.allocReqs, ops := t.ops, nextOp := t.nextOp, pools := t.pools
    freeN := t.freeN, offered := t.offered, slcOkOnce := t.slcOkOnce, tlog := t.tlog }

end Sys2Proof.Machine
end

