-- ==== Sys2Proof/Machine/CalOps.lean ====
section
/-!
DEFINITION. Machine/CalOps.lean: the read-level tables (R312, R313), the end of a run (R323, R335 to R337), and how its results
are armed and come into force at a hand-over (R327, R328, R330).
-/

namespace Sys2Proof.Machine

open Sys2Proof

/-! ### Tables -/

def State.calBase (s : State) : Nat := s.objN Obj.CAL_TABLE_BASE

/-- The region of a die (R312). -/
def State.calRegion (s : State) (d : Nat) : Nat := s.calBase + 8192 * d

/-- Entry `i` of the live copy; 0 where there is no table (R313). -/
def State.liveLevel (s : State) (d i : Nat) : Int :=
  if s.calBase = 0 then 0 else signedOf 8 (s.memNum (s.calRegion d + 2048 * (1 + (s.calDie d).gen % 2) + i) 1)

/-- The live copy. -/
def State.liveCopy (s : State) (d : Nat) : List Byte :=
  if s.calBase = 0 then List.replicate 2048 0 else s.memRead (s.calRegion d + 2048 * (1 + (s.calDie d).gen % 2)) 2048

/-- The header of a region (R313). -/
def CalDie.head (c : CalDie) : List Byte :=
  leBytes 4 c.gen ++ leBytes 1 (unsignedOf 8 c.tempLast) ++ leBytes 1 (unsignedOf 8 c.tempTrim) ++ leBytes 2 0
    ++ leBytes 8 c.timeLast ++ leBytes 4 c.runs ++ leBytes 4 c.rejects

def State.writeCalHead (s : State) (d : Nat) : State :=
  if s.calBase = 0 then s else s.memWrite (s.calRegion d) (s.calDie d).head

/-- A region as enumeration leaves it (R313). -/
def State.enumCal (s : State) (d : Nat) (t : Int) : State :=
  let c : CalDie := { tempLast := t, tempTrim := t, tempNow := t, polledAt := s.now, timeLast := s.now }
  let s1 := (s.updCal d fun _ => c).writeCalHead d
  if s.calBase = 0 then s1 else s1.memWrite (s.calRegion d + 2048) (List.replicate 4096 0)

/-! ### Temperature triggers (R315 to R317) -/

/-- CAL_CTRL (R334). -/
def State.calCtrl (s : State) (i : Nat) : Bool := tbit (s.objN Obj.CAL_CTRL) i

/-- Whether temperature `t` lies CAL_TEMP_DELTA or more from `last`; −128 is no temperature (R315, R316). -/
def tempMoved (t last : Int) (delta : Nat) : Bool := t != -128 && delta ≤ (t - last).natAbs

/-- The temperature triggers of a die whose temperature is now `t` (R316, R317). -/
def State.tempTriggers (s : State) (d : Nat) (t : Int) : State :=
  let c := s.calDie d
  let delta := s.objN Obj.CAL_TEMP_DELTA
  let s1 := if s.calCtrl 0 && s.calCtrl 2 && tempMoved t c.tempLast delta then s.updCal d fun x => { x with trigRl := true } else s
  if s.calCtrl 1 && s.calCtrl 2 && tempMoved t c.tempTrim delta then s1.updChan (dieChannel d) fun x => { x with trigTrim := true }
  else s1

/-! ### Ends of runs -/

/-- A run or restore ends: CAL_LAST_RUN, the die's last cause, the counts; a rejected one is noticed (R323, R336, R337). -/
def State.endRun (s : State) (kind d changed cause : Nat) : State :=
  let rejected := decide (2 ≤ cause ∧ cause ≤ 7)
  let s1 := (s.updCal d fun c => { c with lastCause := cause, rejects := (c.rejects + (if rejected then 1 else 0)) % 2 ^ 32 })
  let s2 := { s1 with calLast := w64 (d * 2 ^ 32 + changed % 2 ^ 16 * 2 ^ 16 + cause * 2 ^ 8 + kind * 2 + flag rejected 0) }
  let s3 := if kind < 3 then s2.bump Obj.CAL_RUNS else s2
  if rejected then
    (((s3.writeCalHead d).bump Obj.CAL_REJECTS).classNotice 0x45 1 d [(2, d), (1, kind), (1, cause)]).event 0x40 d
      (cause + 256 * kind) 1
  else s3

/-- A part of a CALIBRATE is done: 0 its read levels, 1 its trims; with the last part it completes (R117, R330). -/
def State.calPart (s : State) (cmd : Option Nat) (part : Nat) (rejected : Bool) : State :=
  match cmd.bind s.cmd? with
  | none => s
  | some c =>
    if c.isEnded || c.aborted then s
    else
      let left := c.work.filter fun w => w.2.1 != part
      let moved := c.moved + (if rejected then 1 else 0)
      if left.isEmpty then
        let d := ppaDie c.ppa
        let n := if tbit c.subop 0 then (s.calDie d).gen else s.objN Obj.MB_GENERATION 0 (dieChannel d)
        (s.dropTokens c.stamp).finish c.stamp stOk (n % 2 ^ 32 + flag (moved != 0) 32)
      else s.updCmd c.stamp fun x => { x with work := left, moved }

/-- Read-level results of a die given up, with the cause. -/
def State.dropLevels (s : State) (d cause : Nat) : State :=
  let c := s.calDie d
  ((s.updCal d fun x => { x with hold := none, result := [] }).endRun c.kind d 0 cause).calPart c.cmd 0 (2 ≤ cause && cause ≤ 7)

/-- The lowest PRESENT die of a channel, or its slot 0: the die of its trim runs (R336). -/
def State.trimDie (s : State) (n : Nat) : Nat := ((s.channelDies n).head?).getD (16 * n)

/-- Trim results of a channel given up, with the cause. -/
def State.dropTrims (s : State) (n cause : Nat) : State :=
  let c := s.chan n
  ((s.updChan n fun x => { x with trimHold := none, trimResult := [] }).endRun 2 (s.trimDie n) 0 cause).calPart c.trimCmd 1
    (2 ≤ cause && cause ≤ 7)

/-- A CALIBRATE reset before step 3 of R327: its results end without a switch, with cause 8 (R330). -/
def State.dropCalOf (s : State) (st : Nat) : State :=
  let ds := (s.cal.filter fun x => x.2.cmd == some st && x.2.hold.isSome).map fun x => x.1
  let ns := (s.chans.filter fun x => x.2.trimCmd == some st && x.2.trimHold.isSome).map fun x => x.1
  ns.foldl (fun a n => a.dropTrims n 8) (ds.foldl (fun a d => a.dropLevels d 8) s)

/-- Block-triggered runs whose results are not armed are abandoned, their triggers recorded (R317). -/
def State.abandonCal (s : State) : State :=
  let die (c : CalDie) : CalDie :=
    if c.hold.isSome && c.cmd.isNone && c.kind == 1 then { c with hold := none, result := [], trigRl := true } else c
  let chan (c : Chan) : Chan :=
    if c.trimHold.isSome && c.trimCmd.isNone then { c with trimHold := none, trimResult := [], trigTrim := true } else c
  { s with cal := s.cal.map fun x => (x.1, die x.2), chans := s.chans.map fun x => (x.1, chan x.2) }

/-! ### Arming (R327, step 3) -/

/-- Whether a read issued under the die's inactive copy remains. -/
def State.oldReads (s : State) (d : Nat) : Bool :=
  s.ops.any fun o => o.die == d && o.started && (match o.kind with
    | .read js => js.any fun i => s.jobs.any fun j => j.id == i && j.gen != (s.calDie d).gen
    | _ => false)

/-- A die's results are armed: the inactive copy is written, the bank names it. -/
def State.armDie (s : State) (d : Nat) : State :=
  let c := s.calDie d
  let next := (c.gen + 1) % 2
  let table := c.result.foldl (fun t e => t.set e.1 (BitVec.ofNat 8 (unsignedOf 8 e.2))) (s.liveCopy d)
  let s1 := s.memWrite (s.calRegion d + 2048 * (1 + next)) table
  (s1.setObjN Obj.MB_RL_GEN next (dieSlot d) (dieChannel d)).updCal d fun x =>
    { x with hold := none, result := [], switchPending := true, pend := (c.kind, c.newTemp, c.newTime, c.changed, c.cmd) }

/-- A channel's trim results are armed. -/
def State.armTrims (s : State) (n : Nat) : State :=
  let put (a : State) (x : Nat × W64 × W32) : State :=
    (a.setObj Obj.MB_DQ_TRIM x.2.1 x.1 n).setObjN Obj.MB_STROBE_TRIM x.2.2.toNat x.1 n
  (((s.chan n).trimResult.foldl put s).updChan n fun x => { x with trimHold := none, trimResult := [], trimPending := true })

/-- Trim results of a CALIBRATE whose read levels are still to run wait for them: they share one hand-over (R327). -/
def State.trimsWait (s : State) (n : Nat) : Bool :=
  match (s.chan n).trimCmd.bind s.cmd? with
  | some c => !c.isEnded && !c.aborted && c.work.any (fun w => w.2.1 == 0) && (s.calDie (ppaDie c.ppa)).hold.isNone
  | none => false

/-- What waits to be armed on a channel: rejected with cause 4 where the die or the channel is lost, else armed while LOCK and
ARM are both 0 and no snapshot is being read (R323, R326 to R328, R331). -/
def State.armChannel (s : State) (n : Nat) : State :=
  let mine := (List.range 16).map fun k => 16 * n + k
  let up := (s.chan n).st == 3
  let gone := mine.filter fun d => (s.calDie d).hold.isSome && !(up && s.diePresent d)
  let s1 := gone.foldl (fun a d => a.dropLevels d 4) s
  let c := s1.chan n
  let lost := c.trimHold.isSome && !(up && c.trimResult.all fun x => s1.diePresent (16 * n + x.1))
  let s2 := if lost then s1.dropTrims n 4 else s1
  let ctrl := s2.objN Obj.MB_CTRL 0 n
  let ds := mine.filter fun d => (s2.calDie d).hold.isSome && !(s2.calDie d).switchPending && !(s2.oldReads d)
  let trims := (s2.chan n).trimHold.isSome && !(s2.chan n).trimPending && !(s2.trimsWait n)
  if s2.calSnapFrom.isSome || tbit ctrl 0 || tbit ctrl 3 || (ds.isEmpty && !trims) then s2
  else
    let s3 := ds.foldl State.armDie s2
    let s4 := if trims then s3.armTrims n else s3
    (s4.setObjN Obj.MB_CTRL (ctrl + 1) 0 n).updChan n fun x => { x with tickSince := false }

/-- Channels on which results wait. -/
def State.armAll (s : State) : State :=
  let ns := distinct (((s.cal.filter fun x => x.2.hold.isSome).map fun x => dieChannel x.1)
    ++ (s.chans.filter fun x => x.2.trimHold.isSome).map fun x => x.1)
  ns.foldl State.armChannel s

/-! ### The switch (R327, step 4) -/

/-- A die's new generation is in force (R327, R330); after a restore the temperature trigger is judged at once (R332). -/
def State.switchDie (s : State) (d : Nat) : State :=
  let (kind, newTemp, newTime, changed, cmd) := (s.calDie d).pend
  let t := if kind = 3 then newTemp else s.dieTemp d
  let at_ := if kind = 3 then newTime else s.now
  let s1 := (s.updCal d fun x => { x with gen := (x.gen + 1) % 2 ^ 32, tempLast := t, timeLast := at_, runs := (x.runs + 1) % 2 ^ 32,
                                          stats := [], hints := [], switchPending := false }).writeCalHead d
  let s2 := if kind = 3 then s1.tempTriggers d (s.dieTemp d) else s1
  (s2.endRun kind d changed 0).calPart cmd 0 false

/-- A channel's new trims are in force. -/
def State.switchTrims (s : State) (n : Nat) : State :=
  let c := s.chan n
  let s1 := (s.channelDies n).foldl (fun a d => (a.updCal d fun x => { x with tempTrim := s.dieTemp d }).writeCalHead d)
    (s.updChan n fun x => { x with trimPending := false })
  (s1.endRun 2 (s.trimDie n) c.trimChanged 0).calPart c.trimCmd 1 false

end Sys2Proof.Machine
end

