-- ==== Sys2Proof/Machine/PlanOps.lean ====
section
/-!
DEFINITION. Machine/PlanOps.lean: the orbit: planning and admission (R55 to R58, R60, R198), tables (R51, R52, R57), ticks
(R50), slots that come due (R53, R64) and budgets (R59).
-/

namespace Sys2Proof.Machine

open Sys2Proof

/-! ### Planning -/

/-- A stream as a plan sees it: number, unit, budget B and declared period. -/
structure PlanStream where
  s : Nat
  unit : Nat
  bytes : Nat
  period : Nat
  deriving DecidableEq, Repr

/-- What a plan gives: the table without its generation, and the rows of each stream. -/
structure Plan where
  table : OrbitTable
  rows : List (Nat × Nat)
  deriving DecidableEq, Repr

/-- The class a plan uses for a unit (R55). -/
def State.planClass (s : State) (m : Mode) (u : Nat) : Nat := if m == .recordBurst then 0 else s.unitClass u

/-- A PRESENT member die of some group of a profile, for its geometry. -/
def State.planDie (s : State) (prof : Nat) : Nat :=
  ((s.groups prof).findSome? fun g => ((s.groupMembers prof g).getD []).find? fun d => s.diePresent d).getD 0

/-- u: codewords per die program (R55). -/
def State.unitCodewords (s : State) (prof cls : Nat) : Nat :=
  let d := s.planDie prof
  (s.die d).planes * s.rowPlaces d cls

/-- z: the most members of one group that are not PRESENT (R198). -/
def State.lostInGroup (s : State) (prof : Nat) : Nat :=
  ((s.groups prof).map fun g => (((s.groupMembers prof g).getD []).filter fun d => !(s.diePresent d)).length).foldl max 0

/-- Transfer time of `n` bytes at a channel's rate: 4.3 GB/s at 4,800 MT/s, in proportion (R55, log 24). -/
def xferNs (n rate : Nat) : Nat := if rate = 0 then 0 else ceilDiv (n * 48000) (43 * rate)

/-- The slowest rate among the channels that carry members of a profile's groups (R55). -/
def State.slowestRate (s : State) (prof : Nat) : Nat :=
  let chans := distinct (((s.groups prof).map fun g => ((s.groupMembers prof g).getD []).map dieChannel).flatten)
  match (chans.map fun c => (s.chan c).rate).filter fun r => r != 0 with
  | [] => 0
  | r :: rs => rs.foldl min r

/-- F: the smallest of 1, 2, 4, 8 for which F × q is whole for every stream, 8 when none is; q = cws / per (R55). -/
def planFrames (per : Nat) (cws : List Nat) : Nat :=
  ([1, 2, 4, 8].find? fun f => cws.all fun c => per != 0 && f * c % per == 0).getD 8

/-- Condition 3 of R56 for a slot count. -/
def waitFits (tick tx limit n : Nat) : Bool := 0 < n && ceilDiv 256 n * tick + tx ≤ limit

/-- The slots of a planned table: slot i in tick floor(i × 256 / S') on the (i mod G)-th existing group (R57). -/
def planMasks (groups : List Nat) (slots : Nat) : List Nat :=
  (List.range slots).foldl (fun acc i =>
    listUpd acc (i * 256 / slots) fun m => setBits m (groups.getD (i % groups.length) 0) 1 1) (List.replicate 256 0)

/-- A plan for a list of streams under a mode: the table, or the first of R56's conditions that fails, condition 5 first
since it answers otherwise (R58). With ORBIT_MANUAL the slots are those of the table firmware supplied (R52). -/
def State.plan (s : State) (m : Mode) (l : List PlanStream) : Sum Nat Plan :=
  match l with
  | [] => .inl 0
  | x :: _ =>
    let prof := s.unitStripe x.unit
    let cls := s.planClass m x.unit
    if prof == 0 || l.any fun y => s.unitStripe y.unit != prof || s.planClass m y.unit != cls then .inl 5
    else
      let u := s.unitCodewords prof cls
      let d := stripeData prof - s.lostInGroup prof
      let per := d * u
      let cws := l.map fun y => ceilDiv y.bytes 4096
      let groups := s.groups prof
      let g := groups.length
      let manual := s.objN Obj.ORBIT_MANUAL == 1
      let given := if s.orbit.standby.isSome then s.orbit.standby else s.orbit.active
      let f := if manual then (given.map fun t => t.frames).getD 1 else planFrames per cws
      let pf := (l.map fun y => y.period).foldl min x.period
      let p := f * pf
      let tick := p / 256
      let tp := s.objN Obj.ORBIT_TPROG_C cls
      let tx := xferNs ((s.die (s.planDie prof)).planes * s.diePpp (s.planDie prof) cls * (s.die (s.planDie prof)).pageBytes)
        (s.slowestRate prof)
      let rows := (l.zip cws).map fun y => (y.1.s, if per = 0 then 0 else ceilDiv (f * y.2) per)
      let sum := sumOf (rows.map fun r => r.2)
      let limit := s.objN Obj.ORBIT_WAIT_MAX_NS
      let sw := ((List.range 257).find? fun n => waitFits tick tx limit n).getD 0
      let slots := if manual then (given.map fun t => t.slots).getD 0 else max sum sw
      let cap := if tp = 0 then 0 else g * p * s.objN Obj.ORBIT_UTIL_MAX / (256 * tp)
      let rateFits := s.objN Obj.RASTER_RATE_CAP
      -- Condition 4 over exact sums: B / period in bytes per ns, the cap in MB/s = bytes per 1,000 ns.
      let den := (l.map fun y => y.period).foldl (· * ·) 1
      let rate := sumOf (l.map fun y => if y.period = 0 then 0 else y.bytes * (den / y.period))
      if g == 0 || per == 0 || slots == 0 || cap < slots then .inl 1
      else if g * 256 / slots * tick < tp then .inl 2
      else if !(waitFits tick tx limit slots) then .inl 3
      else if rateFits * den < rate * 1000 then .inl 4
      else .inr { table := { generation := 0, frames := f, cls, slots, groups := g, tprogNs := tp, periodNs := p,
                             masks := planMasks groups slots }, rows }

/-- Open streams, in the order in which they were opened, as a plan sees them (R58, R60); a demoted stream has no budget to
plan for until firmware closes it. -/
def State.planStreams (s : State) : List PlanStream :=
  (sortBy (fun a b => a.2.order ≤ b.2.order)
      ((s.streams.zipIdx.filter fun x => x.1.isOpen && !x.1.closing && !x.1.demoted).map fun x => (x.2, x.1))).map
    fun x => { s := x.1, unit := x.2.unit, bytes := x.2.bytes, period := x.2.period }

def State.updStream (s : State) (i : Nat) (f : Stream → Stream) : State := { s with streams := listUpd s.streams i f }
def State.stream (s : State) (i : Nat) : Stream := s.streams.getD i {}

/-- STREAM_INFO (R114). -/
def Stream.info (x : Stream) : Nat :=
  if x.isOpen then x.bytes % 2 ^ 32 * 2 ^ 32 + flag true 31 + flag x.demoted 30 + x.queue * 2 ^ 24 + x.unit * 2 ^ 20
  else 0

/-- INFO of BUDGET_OVERRUN (R106). -/
def State.overrunInfo (s : State) (i cause : Nat) : Nat := i + 16 * cause + (s.stream i).admitted * 2 ^ 32

/-- RASTER WRITEs held under R59 for a stream, in arrival order. -/
def State.heldWrites (s : State) (i : Nat) : List Cmd :=
  let x := s.stream i
  s.cmds.filter fun c => c.heldB && !c.isEnded && c.queue == x.queue

/-- A stream demoted: its admitted B becomes 0, its held WRITEs end, STREAM_DEMOTED (R60, R108). -/
def State.demote (s : State) (i : Nat) : State :=
  if (s.stream i).demoted then s
  else
    let s1 := s.updStream i fun x => { x with admitted := 0, demoted := true, rows := 0 }
    let s2 := (s1.heldWrites i).foldl (fun a c => a.finish c.stamp 0x33 (a.overrunInfo i 3)) s1
    s2.classNotice 0x52 2 i [(1, i), (8, (s2.stream i).info)]

/-- Streams re-admitted one by one in the order in which they were opened (R60): the plan over those that fit, and those
that do not. -/
def State.readmit (s : State) (m : Mode) (l : List PlanStream) : Option Plan × List Nat :=
  let r := l.foldl (fun (acc : List PlanStream × Option Plan × List Nat) x =>
    match s.plan m (acc.1 ++ [x]) with
    | .inr p => (acc.1 ++ [x], some p, acc.2.2)
    | .inl _ => (acc.1, acc.2.1, acc.2.2 ++ [x.s])) ([], none, [])
  (r.2.1, r.2.2)

/-- The streams' rows set from a plan. -/
def State.setRows (s : State) (p : Plan) : State :=
  p.rows.foldl (fun a r => a.updStream r.1 fun x => { x with rows := r.2, admitted := x.bytes }) s

/-- The objects from 0x1300:13 on that act outside the planning arithmetic, as a plan takes them (R65). -/
def State.notePlan (s : State) : State :=
  { s with orbit := { s.orbit with tbersNs := some (s.objN Obj.ORBIT_TBERS_NS)
                                   holdFrames := some (s.objN Obj.BUDGET_HOLD_FRAMES) } }

/-- A re-plan for a mode (R58, R60, R198): what the standby table becomes, and the streams that no longer fit. With
ORBIT_MANUAL the table is firmware's and only admission is judged. Where no stream fits there is no new table: none waits in
standby, and the table in force runs on (DESIGN CHOICE, log 227). -/
def State.replanned (s : State) (m : Mode) : State × List Nat :=
  let r := s.readmit m s.planStreams
  let s1 := (match r.1 with
    | some p => s.setRows p
    | none => s).notePlan
  (if s.objN Obj.ORBIT_MANUAL == 1 then s1
   else { s1 with orbit := { s1.orbit with standby := r.1.map fun p => p.table } }, r.2)

/-- A re-plan that takes effect now: streams that no longer fit are demoted (R60, R198). -/
def State.replan (s : State) (m : Mode) : State :=
  let r := s.replanned m
  r.2.foldl State.demote { r.1 with orbit := { r.1.orbit with demotes := [] } }

/-- A re-plan that takes effect at the next frame boundary: streams that no longer fit are demoted there (R58). -/
def State.replanLater (s : State) (m : Mode) : State :=
  let r := s.replanned m
  { r.1 with orbit := { r.1.orbit with demotes := r.2 } }

/-! ### Tables -/

/-- The DOMAIN image of a table (R51). PERIOD_NS has 4 bytes: of a longer period the image shows the low 32 bits, while the
block runs on the full value (DESIGN CHOICE, log 228). -/
def OrbitTable.image (t : OrbitTable) : List Byte :=
  let head := leBytes 4 t.generation ++ leBytes 1 t.frames ++ leBytes 1 t.cls ++ leBytes 2 t.slots ++ leBytes 2 t.groups
    ++ leBytes 2 0 ++ leBytes 4 t.tprogNs ++ leBytes 4 t.periodNs ++ leBytes 8 0
  let body := ((List.range 256).map fun k => leBytes 16 (t.masks.getD k 0)).flatten
  head ++ leBytes 4 (crc32c (head ++ body)) ++ body

/-- A table read from an image. -/
def OrbitTable.ofImage (b : List Byte) : OrbitTable :=
  { generation := leAt b 0 4, frames := leAt b 4 1, cls := leAt b 5 1, slots := leAt b 6 2, groups := leAt b 8 2,
    tprogNs := leAt b 12 4, periodNs := leAt b 16 4, masks := (List.range 256).map fun k => leAt b (32 + 16 * k) 16 }

/-- The ticks of a table in which a group has a slot, ascending. -/
def OrbitTable.slotTicks (t : OrbitTable) (g : Nat) : List Nat := (List.range 256).filter fun k => tbit (t.masks.getD k 0) g

/-- Whether two slots of one group lie closer than `tprog`, round the end of the period too (R52). -/
def OrbitTable.tooClose (t : OrbitTable) (g : Nat) : Bool :=
  let ks := t.slotTicks g
  let tick := t.periodNs / 256
  match ks with
  | [] => false
  | k0 :: _ => ((ks.zip (ks.drop 1 ++ [k0 + 256])).any fun p => (p.2 - p.1) * tick < t.tprogNs)

/-- The checks of R52 on a written image: length, CRC, FRAMES, existing groups, and slot spacing. -/
def State.tableOk (s : State) (b : List Byte) : Bool :=
  let t := OrbitTable.ofImage b
  let exist := distinct ((([1, 2, 3, 4].map fun p => s.groups p)).flatten)
  b.length == 4128 && leAt b 28 4 == crc32c (b.take 28 ++ b.drop 32) && [1, 2, 4, 8].contains t.frames
    && (List.range 128).all (fun g => (t.slotTicks g).isEmpty || (exist.contains g && !(t.tooClose g)))

/-! ### Ticks -/

/-- Pf as the time source takes it (R50). -/
def State.tickPeriod (s : State) : Nat :=
  if s.raster.present then
    let f := match s.raster.intervals with
      | [] => 0
      | l => sumOf l / l.length
    if f != 0 then f else match s.orbit.active with
      | some t => t.periodNs / max 1 t.frames
      | none => 0
  else s.raster.vPeriod

/-- Whether R50 selects time for a frame, from TICK_SOURCE and the last frame. -/
def State.ticksByTime (s : State) : Bool :=
  let src := s.objN Obj.TICK_SOURCE
  src == 2 || (src == 0 && (s.raster.lines == 0 || !s.raster.prevHadLines))

/-- T: ticks of a frame (R50). -/
def OrbitTable.ticks (t : OrbitTable) : Nat := 256 / max 1 t.frames

/-- Whether tick k of the current frame has begun by its own source (R50). -/
def State.tickDue (s : State) (t : OrbitTable) (k : Nat) : Bool :=
  if s.orbit.fromTime then s.raster.boundaryAt + k * s.tickPeriod / t.ticks ≤ s.now
  else k * s.raster.lines / t.ticks ≤ s.pos.line.toNat

/-- The time at which a tick of the period begins, as if ticks were timed (R54): `ahead` ticks after the tick last begun. -/
def State.tickNs (s : State) (t : OrbitTable) (k : Nat) : Nat := s.raster.boundaryAt + k * s.tickPeriod / t.ticks

/-- The index of tick k of the current frame in its period (R50). -/
def State.tickIndex (s : State) (t : OrbitTable) (k : Nat) : Nat := s.orbit.frameIdx * t.ticks + k

/-! ### Slots (R53) -/

/-- The codewords in a superblock's lanes whose program unit has not been queued yet. -/
def State.laneWaiting (s : State) (b : OpenSb) : List CwRef :=
  let per := s.perRow b
  (b.lanes.map fun l =>
    let out := match b.row with
      | some r => r.queued.contains l.member || r.contributed.contains l.member
      | none => false
    (l.queue.drop (if out then per else 0)).filter fun c => c != CwRef.pad).flatten

/-- The host superblocks of a unit on a group (R176). -/
def State.hostSbs (s : State) (u g : Nat) : List OpenSb := s.sbs.filter fun b => b.unit == u && !b.maint && b.group == g

/-- The RASTER versions of a unit with codewords that wait for a row on a group: those without places, and those in lanes of
the unit's superblock there whose program unit is not queued. -/
def State.rasterVersions (s : State) (u g : Nat) : List Version :=
  let ids := unitVersions [(0, ((s.hostSbs u g).map s.laneWaiting).flatten)]
  s.versions.filter fun v => v.unit == u && v.raster && (s.placeable v || ids.contains v.id)

/-- How many RASTER codewords of a unit wait for a row on a group. -/
def State.rasterWaiting (s : State) (u g : Nat) : Nat :=
  sumOf ((s.versions.filter fun v => v.unit == u && v.raster && s.placeable v).map Version.size)
    + sumOf ((s.hostSbs u g).map fun b => (s.laneWaiting b).length)

/-- Whether a RASTER program unit of a unit waits: enough codewords for one, or some that a FLUSH or FUA WRITE covers. -/
def State.unitWaits (s : State) (u g : Nat) : Bool :=
  let n := s.rasterWaiting u g
  let need := s.unitCodewords (s.unitStripe u) (s.planClass s.modes.current u)
  (0 < n && need ≤ n) || (s.rasterVersions u g).any fun v => s.wanted.any fun w => w.1 == 0 && w.2.1 == v.id

/-- The oldest stamp among a unit's RASTER versions that wait for a row on a group. -/
def State.oldestRaster (s : State) (g u : Nat) : Nat :=
  ((s.rasterVersions u g).map fun v => v.stamp).foldl min (2 ^ 64)

/-- The units of the open streams. -/
def State.streamUnits (s : State) : List Nat := distinct ((s.streams.filter fun x => x.isOpen).map fun x => x.unit)

/-- The unit a slot on group g takes: the one that holds the waiting RASTER program unit with the oldest stamp (R53). -/
def State.slotUnit (s : State) (g : Nat) : Option Nat :=
  minBy (s.oldestRaster g) (s.streamUnits.filter fun u => s.unitWaits u g)

/-- A due slot, its group and its tick: it opens the next row of the chosen unit's superblock on its group, late once a later
tick has begun (R64); where the superblock or store space is missing, the slot stays due; with no unit waiting it lapses, and
a row that is still open takes what waits (R53, R181). -/
def State.slotDue (s : State) (x : Nat × Nat) : State :=
  match s.slotUnit x.1 with
  | none => s
  | some u =>
    match (s.hostSbs u x.1).head? with
    | some b =>
      if b.row.isSome then s
      else
        let o := s.openRow b.sb (some x.2)
        if o.2 then (if x.2 < o.1.orbit.tickNo then o.1.bump Obj.ORBIT_LATE else o.1)
        else { o.1 with orbit := { o.1.orbit with due := o.1.orbit.due ++ [x] } }
    | none =>
      let s1 := s.askAlloc { prio := 1, unit := u, maint := false, group := some x.1 }
      { s1 with orbit := { s1.orbit with due := s1.orbit.due ++ [x] } }

/-- Slots that are still due are tried again, oldest first (R53, R64). -/
def State.retryDue (s : State) : State :=
  let t := s.orbit.due.foldl State.slotDue { s with orbit := { s.orbit with due := [] } }
  { t with orbit := { s.orbit with due := t.orbit.due } }

/-- The next tick of the frame begins: slots still due are tried before its own come due, the suspended-time budgets of their dies start anew (R243), and armed moon banks that wait for a tick may hand over
(R53, R255). -/
def State.beginTick (s : State) : State :=
  match s.orbitTable with
  | none => s
  | some t =>
    let idx := s.tickIndex t s.orbit.tick
    let no := s.orbit.tickNo + 1
    let s1 := State.retryDue { s with
                       orbit := { s.orbit with tick := s.orbit.tick + 1, tickNo := no },
                       chans := s.chans.map fun (c : Nat × Chan) => (c.1, { c.2 with tickSince := true }) }
    let prof := (s.streamUnits.head?.map s.unitStripe).getD 0
    let s2 := ((List.range 128).filter fun g => tbit (t.masks.getD idx 0) g).foldl (fun (a : State) g =>
      (((a.groupMembers prof g).getD []).foldl (fun (b : State) d => b.updDie d fun i => { i with suspBudget := 0, slotOpen := true, slotAt := b.now }) a).slotDue (g, no)) s1
    { s2 with orbit := { s.orbit with tick := s.orbit.tick + 1, tickNo := no, due := s2.orbit.due } }

/-- The ticks that a frame has not reached when it ends begin together, in order (R50). -/
def State.finishTicks : Nat → State → State
  | 0, s => s
  | fuel + 1, s =>
    match s.orbitTable with
    | some t => if s.orbit.tick < t.ticks then State.finishTicks fuel s.beginTick else s
    | none => s

/-! ### Budgets (R59) -/

/-- Charge a WRITE's length to its stream's window, if it fits. -/
def State.tryCharge (s : State) (i : Nat) (c : Cmd) : Option State :=
  let x := s.stream i
  let n := c.nsect * 4096
  if x.charged + n ≤ x.admitted then
    some ((s.updStream i fun x => { x with charged := x.charged + n }).updCmd c.stamp fun d =>
      { d with heldB := false })
  else none

/-- A window opens: the charge restarts, held commands are charged in arrival order until one does not fit, and those held
for BUDGET_HOLD_FRAMES windows, as the latest plan took it, end (R59, R65). -/
def State.openWindow (s : State) (i : Nat) : State :=
  let s1 := s.updStream i fun x => { x with charged := 0 }
  let r := (s1.heldWrites i).foldl (fun (acc : State × Bool) c =>
    if acc.2 then acc
    else match acc.1.tryCharge i c with
      | some a => (a, false)
      | none => (acc.1, true)) (s1, false)
  (r.1.heldWrites i).foldl (fun a c =>
    let a1 := a.updCmd c.stamp fun d => { d with heldWindows := d.heldWindows + 1 }
    if a.orbit.holdFrames.getD (a.objN Obj.BUDGET_HOLD_FRAMES) ≤ c.heldWindows + 1 then a1.finish c.stamp 0x33 (a1.overrunInfo i 2) else a1) r.1

end Sys2Proof.Machine
end

