-- ==== Sys2Proof/Machine/ModeOps.lean ====
section
/-!
DEFINITION. Machine/ModeOps.lean: mode requests and mode changes (R24, R28 to R36, R153), and what opens with a frame: the
epoch (R41), the pending change, the standby table, budget windows and ticks (R45, R50, R52, R58, R59).
-/

namespace Sys2Proof.Machine

open Sys2Proof

/-! ### Views -/

/-- MODE_STATUS (R27). -/
def State.modeStatus (s : State) : Nat :=
  let m := s.modes
  m.current.num + flag m.parkEntry 9 + flag m.draining 10 + m.lastRefusal * 2 ^ 16 +
    (match m.pending with
     | some r => flag r.byBlock 11 + r.mode.num * 2 ^ 12 + flag true 15
     | none => 0)

/-- RAS_FRAME_NS (R61). -/
def RasterSt.frameNs (r : RasterSt) : Nat :=
  match r.intervals with
  | [] => 0
  | l => sumOf l / l.length

/-- RAS_STATUS (R66). TICK_FROM_TIME has no last frame to go by until one has ended, and then reads its default 0 (R65, log 229). -/
def State.rasStatus (s : State) : Nat :=
  let r := s.raster
  let byTime := if s.orbitTable.isSome then s.orbit.fromTime
    else (r.framed || s.objN Obj.TICK_SOURCE == 2) && s.ticksByTime
  flag r.validIn 0 + flag (!r.present) 1 + flag r.lost 2 + flag r.newTake 3 + flag byTime 4 + flag r.periodShort 5
    + r.lastCause * 256

/-! ### Changes -/

/-- A mode takes effect: the mode objects (R26), run-ahead data discarded (R251), the optional MODE_CHANGE event (R494); in a mode
that runs no orbit table its slots lapse (R22). -/
def State.changeMode (s : State) (m : Mode) : State :=
  let was := s.modeStatus
  let s1 := { s with modes := { s.modes with
    current := m
    before := if m == Mode.park then s.modes.current else s.modes.before
    changePos := s.pos, changeTime := s.now, changeCount := (s.modes.changeCount + 1) % 2 ^ 32
    slcLow := false } }
  let s2 := if tbit (s1.objN Obj.TLOG_CTRL) 1 then s1.event 0x05 m.num was else s1
  let s3 := s2.cometDiscard fun _ => true
  let s4 := if m.orbit then s3 else { s3 with orbit := { s3.orbit with due := [] } }
  if m == .recordBurst then
    let s4 := s4.abandonCal
    { s4 with modes := { s4.modes with slcLow := decide (s4.slcPoolFree < s4.objN Obj.BURST_EXIT_FREE) } }
  else s4

/-- The command of a request answered with MODE_REFUSED (R34, R106). -/
def State.refuseMode (s : State) (cmd : Option Nat) (why : Nat) : State :=
  let s1 := { s with modes := { s.modes with lastRefusal := why } }
  match cmd with
  | some st => s1.finish st stModeRefused (why + 256 * s1.modes.current.num)
  | none => s1

/-- The command of a request answered with OK. -/
def State.grantMode (s : State) (cmd : Option Nat) : State :=
  match cmd with
  | some st => s.finish st stOk 0
  | none => s

/-- The pending request superseded: its command ends, and an entry in progress is abandoned (R29, R31, R153). -/
def State.supersedeRequest (s : State) : State :=
  match s.modes.pending with
  | some r =>
    ({ s with modes := { s.modes with pending := none, parkEntry := false, draining := false } }).refuseMode r.cmd 4
  | none => s

/-- Whether any RASTER stream is open, from its admission on (R30). -/
def State.streamOpen (s : State) : Bool := s.streams.any fun x => x.isOpen

/-- The mode is MODE_BEFORE_PARK again (R33), and the dies leave deep power-down by DPD_EXIT; WP_N is 1 again (R226); each die is polled
before a run (R315). -/
def State.wake (s : State) : State :=
  let s1 := s.changeMode s.modes.before
  ({ s1 with modes := { s1.modes with poweredDown := false, parkEntry := false },
             dies := s1.dies.map fun (d : Nat × DieInfo) => (d.1, { d.2 with mustPoll := true })
             chans := s1.chans.map fun (c : Nat × Chan) => (c.1, { c.2 with wpN := c.2.enumerated && !s1.prot.pfailDone }) }).advance

/-- A request becomes the pending one (R29). -/
def State.placeRequest (s : State) (m : Mode) (byBlock : Bool) (cmd : Option Nat) (park drain : Bool) : State :=
  let s := if park then s.abandonCal else s
  { s with modes := { s.modes with pending := some { mode := m, byBlock, cmd }, parkEntry := park, parkRestarted := false
                                   parkFlushed := false, draining := drain } }

/-- A request under the row of a mode other than PARK (R28 to R31). -/
def State.requestFrom (s : State) (m : Mode) (byBlock : Bool) (cmd : Option Nat) : State :=
  let cur := s.modes.current
  let blockWaits := match s.modes.pending with
    | some r => r.byBlock
    | none => false
  if m == cur then
    if cur == .recordBurst && blockWaits then s.refuseMode cmd 3
    else s.supersedeRequest.grantMode cmd
  else if cur == .sanitize then
    if m != .openMode then s.refuseMode cmd 6
    else if s.prot.sanRunning then s.refuseMode cmd 2
    else (s.supersedeRequest.changeMode .openMode).grantMode cmd
  else if cur.orbit && !m.orbit && s.streamOpen then s.refuseMode cmd 1
  else if m == .recordBurst && s.slcPoolFree < s.objN Obj.BURST_ENTRY_FREE then s.refuseMode cmd 3
  else if m == .sanitize then s.supersedeRequest.placeRequest m byBlock cmd false true
  else if cur.orbit || m.orbit then s.supersedeRequest.placeRequest m byBlock cmd false false
  else if m == .park then s.supersedeRequest.placeRequest m byBlock cmd true false
  else (s.supersedeRequest.changeMode m).grantMode cmd

/-- A mode request (R28): from PARK it wakes the block and then follows the row of MODE_BEFORE_PARK; from a power failure on
it is refused (R33, R35). -/
def State.requestMode (s : State) (m : Mode) (cmd : Option Nat) : State :=
  if s.prot.pfail then s.refuseMode cmd 5
  else if s.modes.current == .park then
    if m == .park then s.grantMode cmd else s.wake.requestFrom m false cmd
  else s.requestFrom m false cmd

/-- RECORD-BURST watches the SLC pool: each fall below BURST_EXIT_FREE raises SLC_POOL_LOW and places a request for RECORD
(R24). The block judges at the end of every command that can change the pool, and where BURST_EXIT_FREE is raised above the
capacity that counts as a fall (DESIGN CHOICE, log 226). -/
def State.burstWatch (s : State) : State :=
  if s.modes.current != .recordBurst then s
  else
    let free := s.slcPoolFree
    let low := decide (free < s.objN Obj.BURST_EXIT_FREE)
    if low == s.modes.slcLow then s
    else
      let s1 := { s with modes := { s.modes with slcLow := low } }
      if low then
        let s2 := s1.classNotice 0x54 2 0 [(4, free)]
        if s2.prot.pfail then s2 else s2.requestFrom .record true none
      else s1

/-- A command that needs a media operation restarts PARK entry; the restart is counted (R153). -/
def State.noteRestart (s : State) : State :=
  if s.modes.parkEntry then
    ({ s with modes := { s.modes with parkRestarted := true, parkFlushed := false } }).bump Obj.PARK_RESTARTS
  else s

/-! ### The frame boundary -/

/-- The pending change that waits for a boundary takes effect (R30, R32): S is tested again; PARK entry starts, and
block-triggered runs not yet armed are abandoned (R317). -/
def State.boundaryChange (s : State) : State :=
  match s.modes.pending with
  | none => s
  | some r =>
    if s.modes.parkEntry || s.modes.draining then s
    else if !r.mode.orbit && s.streamOpen then
      ({ s with modes := { s.modes with pending := none } }).refuseMode r.cmd 1
    else if r.mode == .park then
      let a := s.abandonCal
      { a with modes := { a.modes with parkEntry := true, parkRestarted := false, parkFlushed := false } }
    else
      let s1 := ({ s with modes := { s.modes with pending := none } }).changeMode r.mode
      let s2 := if r.mode.orbit && s1.planStreams != [] then s1.replan r.mode else s1
      s2.grantMode r.cmd

/-- The streams that a close's plan left out are demoted (R58); the standby table becomes active at a boundary, and the STREAM_OPENs that wait for it complete with their rows and its
GENERATION (R52, R58, R112). A boundary at which the last stream closes leaves no table. -/
def State.switchTable (s : State) : State :=
  let closes := s.orbit.closes
  let s1 := closes.foldl (fun a st => match a.cmd? st with
    | some c =>
      let i := hbits c.hdr 96 3
      let a1 := (a.heldWrites i).foldl (fun b w => b.finish w.stamp 0x33 (b.overrunInfo i 2)) a
      (a1.updStream i fun _ => {}).finish st stOk 0
    | none => a) { s with orbit := { s.orbit with closes := [] } }
  let s1 := s1.orbit.demotes.foldl State.demote { s1 with orbit := { s1.orbit with demotes := [] } }
  let s2 := match s1.orbit.standby with
    | some t =>
      let gen := (s1.orbit.generation + 1) % 2 ^ 32
      { s1 with orbit := { s1.orbit with active := some { t with generation := gen }, standby := none, generation := gen,
                                         frameIdx := 0, fresh := true } }
    | none =>
      if !closes.isEmpty && s1.planStreams == [] && s1.objN Obj.ORBIT_MANUAL == 0 then
        { s1 with orbit := { s1.orbit with active := none, due := [] } }
      else s1
  if s1.orbit.standby.isNone && !(s1.objN Obj.ORBIT_MANUAL == 1 && s2.orbit.active.isSome) then s2
  else s2.orbit.opens.foldl (fun a st => match a.cmd? st with
    | some c =>
      let i := hbits c.hdr 96 3
      let a1 := a.updStream i fun x => { x with completed := true }
      a1.finish st stOk ((a1.stream i).rows % 2 ^ 16 + a1.orbit.generation * 2 ^ 32)
    | none => a) { s2 with orbit := { s2.orbit with opens := [] } }

/-- A frame opens (R41, R45, R50, R52, R58, R59): the old frame's ticks end, the position moves on, a pending change and the
standby table take effect, budget windows open, and tick 0 begins. -/
def State.openFrame (s : State) (p : RPos) (cause : Nat) : State :=
  let s1 := State.finishTicks 256 s
  let r := s.raster
  let hadLines := decide (0 < r.frameHigh)
  let opened : RasterSt := { r with
    pos := p
    newTake := false
    lastCause := if cause = 0 then r.lastCause else cause
    lastFrameAt := r.lastFrameAt
    boundaryAt := s.now
    lines := if hadLines then min 65535 (r.frameHigh + 1) else 0
    prevHadLines := hadLines
    frameHigh := 0
    framed := true
    lineCount := r.lineCount + 1 }
  let s2 := { s1 with raster := opened }
  let s3 := if cause = 0 then s2 else s2.bump Obj.RAS_EPOCH_COUNT
  let fresh := { s3 with orbit := { s3.orbit with fresh := false } }
  let s4 := fresh.boundaryChange.switchTable
  let s5 := match s4.orbit.active with
    | some t => { s4 with orbit := { s4.orbit with
        frameIdx := if s4.orbit.fresh then 0 else (s4.orbit.frameIdx + 1) % max 1 t.frames
        tick := 0, fromTime := s4.ticksByTime } }
    | none => s4
  let s6 := if s5.orbitTable.isSome then s5
    else { s5 with chans := s5.chans.map fun (c : Nat × Chan) => (c.1, { c.2 with tickSince := true }) }
  let s7 := (List.range 8).foldl (fun a i => if (a.stream i).isOpen && (a.stream i).completed then a.openWindow i else a) s6
  { s7.beginTick.advance.retryDue.advance.burstWatch with raster := opened }

/-- The position a boundary opens: the epoch rises when a cause applies (R41). -/
def nextPos (p : RPos) (frame : Nat) (cause : Nat) : RPos :=
  { epoch := if cause = 0 then p.epoch else p.epoch + 1, frame := BitVec.ofNat 32 frame, line := 0 }

end Sys2Proof.Machine
end

