-- ==== Sys2Proof/Machine/Views.lean ====
section
/-!
DEFINITION. Machine/Views.lean: what a read of each object returns (R462 to R464, R489): the stored value, or the view of
the block's state that the owning chapter gives. Reads with a side effect (claims, pops, buffer requests) stand with
their families.
-/

namespace Sys2Proof.Machine

open Sys2Proof

/-! ### The drain estimate (R366) -/

/-- Bytes of accepted versions not yet programmed, each granule whole. -/
def State.versionBytes (s : State) : Nat :=
  sumOf ((s.versions.filter fun v => v.moveFrom.isNone).map fun v => 4096 * v.size)

/-- The declared maximum time of an operation's kind and class. -/
def State.opMaxNs (s : State) (o : DieOp) : Nat :=
  match o.kind with
  | .read _ => s.profile o.die 36 4
  | .program sb _ _ | .parity sb _ _ _ => s.profile o.die (60 + 4 * s.sbClass sb) 4
  | .interim _ _ _ | .rawProgram _ | .zeroFill _ _ _ | .rescue _ _ _ _ => s.profile o.die 60 4
  | .erase _ _ => s.profile o.die 84 4

/-- Whether the profile lets an operation be suspended (R242). -/
def State.maySuspend (s : State) (o : DieOp) : Bool :=
  match o.kind with
  | .program _ _ _ | .parity _ _ _ _ | .interim _ _ _ | .rawProgram _ | .zeroFill _ _ _ | .rescue _ _ _ _ => s.dieFlag o.die 3
  | .erase _ _ => s.dieFlag o.die 4
  | _ => false

def maxOf (l : List Nat) : Nat := l.foldl max 0

/-- DRAIN_BUDGET_NS. With no rescue die the number of rounds is not stated: a free value (log 8). -/
def State.drainBudget (s : State) : Nat :=
  let dies := distinct ((s.prot.rescueDir.filter fun r => !r.spent).map fun r => r.die)
  let busy := maxOf ((s.ops.filter fun o => o.started && !(s.maySuspend o)).map s.opMaxNs)
  let b := s.versionBytes
  let d0 := s.die (dies.headD 0)
  let u := d0.planes * 4
  let n := dies.length
  let k := if b = 0 then 0 else if n * u = 0 then s.freePick else ceilDiv (b * 16) (n * u * 4096 * 15)
  let ts := maxOf (dies.map fun d => s.profile d 60 4)
  let tx := maxOf (dies.map fun d => xferNs ((s.die d).planes * (s.die d).pageBytes) (s.chan (dieChannel d)).rate)
  let per := maxOf (dies.map fun d => (dies.filter fun e => dieChannel e == dieChannel d).length)
  let sys := ([0, 16].filter fun d => s.diePresent d).headD 0
  let tp := xferNs (s.die sys).pageBytes (s.chan (dieChannel sys)).rate
  let tm := if s.versions.any fun v => !v.merge.isEmpty then maxOf (s.presentDies.map fun d => s.profile d 36 4) else 0
  min 0xFFFFFFFF (20000 + busy + k * max (ts + tx) (per * tx) + ts + tp + tm)

/-- OVER_BUDGET. -/
def State.overBudget (s : State) : Bool :=
  let l := s.objN Obj.DRAIN_LIMIT_NS
  l != 0 && l < s.drainBudget

/-! ### Microcode banks (R394, R397, R401, R405) -/

def imageVer (img : List Byte) : Nat := leAt img 8 4

/-- The profile an image has for a die: the index of the first directory entry that matches its ID bytes, and its word
address (R394). -/
def imageProfile (img : List Byte) (idBytes : Nat) : Option (Nat × Nat) :=
  ((List.range (leAt img 18 2)).find? fun i =>
    let m := leAt img (64 + 16 * i + 6) 6
    (idBytes % 2 ^ 48).land m == leAt img (64 + 16 * i) 6).map fun i => (i, leAt img (64 + 16 * i + 12) 2)

/-- COVER: the standby image has a profile for every PRESENT die of the cluster (R401). -/
def State.covers (s : State) (k : Nat) : Bool :=
  match (mapGetD s.clusters k {}).standby with
  | none => false
  | some img => (s.presentDies.filter fun d => dieCluster d == k).all fun d =>
      (imageProfile img (s.objN Obj.DIE_ID (dieSlot d) (dieChannel d))).isSome

def clusterVer (b : Option (List Byte)) : Nat := match b with
  | some i => imageVer i
  | none => 0

def State.clVersion (s : State) (k : Nat) : Nat :=
  let c := mapGetD s.clusters k {}
  clusterVer c.standby * 2 ^ 32 + clusterVer c.active

/-- UCODE_LOAD_MASK: all clusters of the build until it is written (R404). -/
def State.loadMaskValue (s : State) : Nat := match mapGet s.dict Obj.UCODE_LOAD_MASK.key with
  | some v => v.toNat
  | none => 2 ^ s.build.clusters - 1

def State.ucodeState (s : State) : Nat :=
  sumOf ((List.range s.build.clusters).map fun k =>
    let c := mapGetD s.clusters k {}
    flag c.active.isSome (4 * k) + flag c.standby.isSome (4 * k + 1) + flag (s.covers k) (4 * k + 2)
      + flag c.quiescing (4 * k + 3))

/-- The sequencer of a die and its context there: a die's context is its slot on its channel's sequencer. -/
def State.ctxOf (s : State) (d : Nat) : Option Ctx := s.ctxs.find? fun c => c.seq == dieChannel d && c.ctx == dieSlot d

def State.ucodeDieInfo (s : State) : Nat :=
  let d := s.objN Obj.UCODE_DIE_SELECT
  let i := s.die d
  let base := s.profile d 0 2 * 2 ^ 48 + (match i.profile with
    | some _ => i.dirIndex
    | none => if (s.chan (dieChannel d)).st = 1 then 0xFE else 0xFF) * 2 ^ 40
  match s.ctxOf d with
  | some c => base + c.run * 2 ^ 37 + c.kind * 2 ^ 32 + c.stack.length * 2 ^ 13 + c.pc
  | none => base

/-! ### Calibration -/

def State.calDieInfo (s : State) : Nat :=
  let d := s.objN Obj.CAL_DIE_SELECT
  let c := s.calDie d
  c.gen % 2 ^ 32 * 2 ^ 32 + unsignedOf 8 c.tempLast * 2 ^ 24 + unsignedOf 8 c.tempNow * 2 ^ 16 + c.lastCause * 2 ^ 8
    + flag (s.dieFlag d 5) 4 + flag c.switchPending 3 + flag c.trigRl 2 + flag (s.chan (dieChannel d)).trigTrim 1
    + flag (s.cmds.any fun x => x.opcode == 0x25 && x.isStarted && s.holdsToken d x.stamp) 0

/-! ### Codes (R282, R310) -/

def State.codeStatus (s : State) : Nat :=
  sumOf ((List.range 4).map fun c =>
    let mapped := (List.range 5).filter fun k => s.classCode k == c
    let known := s.refDie.isSome
    let fits := mapped.any s.codeFits
    let misfit := mapped.any fun k => !(s.codeFits k)
    (1 + flag (mapGet s.codes c).isNone 1 + flag (known && fits) 2 + flag (known && misfit) 3
      + mapGetD s.codeErr c 0 * 16) * 2 ^ (8 * c))

/-- Free reorder slots: 256 in each cluster (R301). -/
def State.slotsFree (s : State) : Nat :=
  sumOf ((List.range s.build.clusters).map fun k => 256 - mapGetD s.slotsUsed k 0)

/-! ### Views by chapter -/

/-- Mode, raster, orbit and stream objects (R26, R65, R114). -/
def State.viewTime (s : State) (o : Obj) (i : Nat) : Option Nat :=
  let k := o.key
  let m := s.modes
  let st := s.stream i
  if k == Obj.MODE_CURRENT.key then some m.current.num
  else if k == Obj.MODE_REQUEST.key then some m.request
  else if k == Obj.MODE_STATUS.key then some s.modeStatus
  else if k == Obj.MODE_BEFORE_PARK.key then some m.before.num
  else if k == Obj.MODE_CHANGE_POS.key then some m.changePos.pack
  else if k == Obj.MODE_CHANGE_TIME.key then some m.changeTime
  else if k == Obj.MODE_CHANGE_COUNT.key then some m.changeCount
  else if k == Obj.RAS_POSITION.key then some s.pos.pack
  else if k == Obj.RAS_STATUS.key then some s.rasStatus
  else if k == Obj.RAS_FRAME_NS.key then some s.raster.frameNs
  else if k == Obj.RAS_LINES.key then some s.raster.lines
  else if k == Obj.ORBIT_GENERATION.key then some ((s.orbit.active.map fun t => t.generation).getD 0)
  else if k == Obj.STREAM_ROWS.key then some (if st.isOpen && !st.demoted then st.rows else 0)
  else if k == Obj.STREAM_CHARGED.key then some st.charged
  else if k == Obj.STREAM_INFO.key then some st.info
  else none

/-- Commands of a queue, a unit or a processor that are filed and not completed (R99, R118, R122). -/
def State.countCmds (s : State) (p : Cmd → Bool) : Nat := (s.cmds.filter p).length

/-- Processors whose local submissions were refused without being filed, one for each whose COMMAND_DONE is not yet queued: such a
command is outstanding until then (R122, R125). -/
def State.refusedSenders (s : State) : List Nat :=
  (s.offered ++ s.offers ++ (s.nqs.map fun q => q.2.held.map fun n => n.2).flatten).filterMap fun n => n.sender

/-- Outstanding commands (R79, R123). -/
def State.outstanding (s : State) : Nat := s.cmds.length + s.refusedSenders.length

/-- Host-link, queue, unit, local-window and ordering objects (R95, R99, R118, R122, R160, R221). -/
def State.viewCmd (s : State) (p : Nat) (o : Obj) (i r : Nat) : Option Nat :=
  let k := o.key
  let l := s.link
  let x := s.proc p
  if k == Obj.HL_STATUS.key then some (l.st + flag l.crcActive 2 + flag (l.stall0 || l.stall1) 3 + l.lastError * 2 ^ 16)
  else if k == Obj.HL_TX_VC0.key then some l.tx0
  else if k == Obj.HL_TX_VC1.key then some l.tx1
  else if k == Obj.HL_WINDOWS_OPEN.key then some (l.windows.filter s.windowOpen).length
  else if k == Obj.QUEUE_DEPTH.key then some (s.countCmds fun c => c.queue == i)
  else if k == Obj.UNIT_STATE.key then some (s.unitState r)
  else if k == Obj.UNIT_OUTSTANDING.key then some (s.countCmds fun c => c.ofUnit r)
  else if k == Obj.UNIT_FREE_MIB.key then some (s.unitFreeMib r)
  else if k == Obj.UNIT_OPEN_SB.key then some (s.sbUsed.filter fun b => s.sbState b == sbOpen && s.sbUnit b == r).length
  else if k == Obj.UNIT_UNPROTECTED_SB.key then
    some (s.sbUsed.filter fun b => s.sbState b == sbUnprotected && s.sbUnit b == r).length
  else if k == Obj.LSW_HDR.key then some (bits x.lswHdr.toNat (64 * i) 64)
  else if k == Obj.LSW_PAY.key then some (mapGetD x.lswPay i 0).toNat
  else if k == Obj.LSW_STATUS.key then some (x.lswResult + x.lswSeq % 2 ^ 16 * 2 ^ 16)
  else if k == Obj.LSW_OUTSTANDING.key then some (s.countCmds (fun c => c.path == .lsw p) + (s.refusedSenders.filter fun x => x == p).length)
  else if k == Obj.ORD_STAMP_NEXT.key then some s.stampNext
  else if k == Obj.ORD_LOCKS_USED.key then some (s.countCmds fun c => c.locked)
  else none

/-- MAP_SAFE_SEQ (R169): map changes are written in the step that makes them, so the value read is always safe. -/
def State.mapSafeSeq (s : State) : Nat :=
  match (s.versions.filter fun v => v.moveFrom.isNone).map fun v => v.wseqs.foldl min (2 ^ 56) with
  | [] => s.objN Obj.ORD_WRITE_SEQ
  | w :: ws => ws.foldl min w

/-- Placement, parity and comet objects (R219, R220, R253). -/
def State.viewPlace (s : State) (o : Obj) (i : Nat) : Option Nat :=
  let k := o.key
  if k == Obj.ALLOC_STATUS.key then some (flag s.running 0 + flag s.walking 1)
  else if k == Obj.MAP_SAFE_SEQ.key then some s.mapSafeSeq
  else if k == Obj.SPARE_PM_F.key then some (s.sparePm i)
  else if k == Obj.SLC_POOL_FREE.key then some s.slcPoolFree
  else if k == Obj.PAR_STORE_BYTES.key then some s.parStore
  else if k == Obj.PAR_IN_USE.key then some s.parInUse
  else if k == Obj.COMET_STREAMS.key then some (s.comet.filter fun x => x.running).length
  else if k == Obj.COMET_HELD_BYTES.key then some (sumOf (s.cometHeld.map fun h => 4096 * h.need))
  else none

/-- A channel's STATE (R267). -/
def State.chStatus (s : State) (n : Nat) : Nat :=
  let c := s.chan n
  c.st + flag (s.ops.any fun o => dieChannel o.die == n && o.suspended) 3 + c.phy * 16 + c.lastFault * 2 ^ 8
    + (s.channelDies n).length * 2 ^ 16

/-- MB_STATUS (R255). -/
def State.mbStatus (s : State) (n : Nat) : Nat :=
  let late := (s.chan n).shadowLate
  flag late 0 + flag (tbit (s.objN Obj.MB_CTRL 0 n) 0 && !late) 1

/-- Channel, moon-bank, code, read-path and calibration objects (R254, R266, R309, R334). The bus occupancy of a channel is
no state of this model: a free value of at most 1,000 (log 8). -/
def State.viewMedia (s : State) (o : Obj) (i r : Nat) : Option Nat :=
  let k := o.key
  if k == Obj.CH_STATUS.key then some (s.chStatus r)
  else if k == Obj.CH_RATE_MT.key then some (s.chan r).rate
  else if k == Obj.DIE_QDEPTH.key then some (s.queueLen (r * 16 + i))
  else if k == Obj.CH_BUS_BUSY_PM.key then some (s.freePick % 1001)
  else if k == Obj.MB_STATUS.key then some (s.mbStatus r)
  else if k == Obj.MB_HANDOVER_POS.key then some (s.chan r).handPos.pack
  else if k == Obj.CODE_STATUS.key then some s.codeStatus
  else if k == Obj.RO_SLOTS_FREE.key then some s.slotsFree
  else if k == Obj.CAL_DIE_INFO.key then some s.calDieInfo
  else if k == Obj.CAL_LAST_RUN.key then some s.calLast.toNat
  else none

/-- Whether a path's arm holds now (R354). -/
def State.armHolds (s : State) (p : Nat) : Bool :=
  s.prot.arms.any fun a => a.path == p && (match a.armed with
    | some t => s.now ≤ t + s.objN Obj.RMP_ARM_NS
    | none => false)

/-- The highest ERASES among the pool's block headers (R341, R372). -/
def State.psaveWear (s : State) : Nat := maxOf (s.prot.pool.map fun b => b.erases)

/-- Whether the boot reader serves fetches: the channel of the system die they go to has never been enumerated (R340). -/
def State.bootReader (s : State) : Bool :=
  let free (w : Nat) : Bool := (s.chan w).st == 0 && !(s.chan w).enumerated
  if s.prot.usable0 then free 0 else s.prot.usable1 && free 1

/-- Protection and raw-path objects (R372 to R374). -/
def State.viewProt (s : State) (o : Obj) : Option Nat :=
  let k := o.key
  let p := s.prot
  if k == Obj.SEAL.key then some (if p.sealed then 0x5EA1 else 0)
  else if k == Obj.PROT_LEVEL.key then some p.level
  else if k == Obj.PROT_STATUS.key then
    some (p.level + flag p.noSystemDie 2 + flag p.sealed 3 + flag p.ready 4 + flag p.poolBlank 5
      + flag p.sanInterrupted 6 + flag p.recordLost 7)
  else if k == Obj.BOOT_REGION.key then some (p.bootCount + p.bootFirst * 2 ^ 16)
  else if k == Obj.BW_CTRL.key then some (flag p.bwOpen 0)
  else if k == Obj.BW_STATUS.key then
    some (flag p.bwOpen 0 + flag s.bootReader 1 + flag (p.bwPending.isSome && p.ready) 2 + flag p.bwFallback 3)
  else if k == Obj.PSAVE_STATUS.key then some (p.psaveResult * 16)
  else if k == Obj.PSAVE_WEAR.key then some s.psaveWear
  else if k == Obj.SAN_STATUS.key then some (p.sanOp + p.sanResult * 2 ^ 8)
  else if k == Obj.SAN_REMAINING.key then some p.sanBlocks.length
  else if k == Obj.DRAIN_BUDGET_NS.key then some s.drainBudget
  else if k == Obj.DRAIN_STATUS.key then some (flag p.draining 0 + flag s.overBudget 1 + p.lastEnd * 16)
  else if k == Obj.RESCUE_DIES.key then some (distinct (p.rescueDir.map fun r => r.die)).length
  else if k == Obj.RMP_STATUS.key then
    some (sumOf ((List.range 8).map fun q => flag (s.armHolds q) q) + flag (s.armHolds 8) 8 + p.rmpLastErr * 2 ^ 16)
  else if k == Obj.RAW_AREA.key then some (p.rawCount + p.rawFirst * 2 ^ 16)
  else none

/-- Microcode, buffer, notice-queue and copy-engine objects (R404, R438, R440, R442). -/
def State.viewQueues (s : State) (p : Nat) (o : Obj) (i r : Nat) : Option Nat :=
  let k := o.key
  let n := s.nq i
  let c := s.ceChan r
  if k == Obj.UCODE_VERSION.key then some (s.clVersion 0)
  else if k == Obj.UCODE_LOAD_MASK.key then some s.loadMaskValue
  else if k == Obj.UCODE_STATE.key then some s.ucodeState
  else if k == Obj.UCODE_CL_VERSION.key then some (s.clVersion i)
  else if k == Obj.UCODE_DIE_INFO.key then some s.ucodeDieInfo
  else if k == Obj.POOL_STATUS.key then some (sumOf ((List.range 5).map fun q => flag (s.pool q).ready q))
  else if k == Obj.POOL_FREE.key then some (s.poolFree i)
  else if k == Obj.BUF_QUERY_INFO.key then
    let h := s.objN Obj.BUF_QUERY
    some (if handlePool h < 5 && (s.pool (handlePool h)).ready && handleIndex h < s.objN Obj.POOL_COUNT (handlePool h)
      then s.memNum (s.descAddr h) 8 else 0)
  else if k == Obj.BUF_HELD.key then
    some (sumOf ((List.range 5).map fun q => min 4095 (s.bufHeld i q) * 2 ^ (12 * q)))
  else if k == Obj.NQ_LATCH_HI.key then some ((s.proc p).nqLatch.toNat / 2 ^ 64)
  else if k == Obj.NQ_STATUS.key then
    some (flag (!n.ring.isEmpty) 0 + flag (!n.held.isEmpty) 1 + flag n.pennant.isSome 2 + flag n.ringErr 3)
  else if k == Obj.NQ_WORDS.key then some n.readable
  else if k == Obj.NQ_PACKETS.key then some n.packets
  else if k == Obj.NQ_SEQ.key then some n.seq
  else if k == Obj.CE_CTRL.key then some (c.ctrl - bits c.ctrl 0 1 - bits c.ctrl 2 1 * 4 + flag c.busy 0)
  else if k == Obj.CE_STATUS.key then
    some (flag c.busy 0 + flag c.done 1 + flag c.err 2 + flag c.elem 3 + c.cause * 2 ^ 16)
  else if k == Obj.CE_DONE_BYTES.key then some c.doneBytes
  else if k == Obj.CE_ERR_ADDR.key then some c.errAddr
  else if k == Obj.CE_ELEMENTS.key then some c.elements
  else none

/-- INT_CFG of the selected source, with its live bits (R446). -/
def State.intCfgView (s : State) (p : Nat) : Nat :=
  let id := (s.proc p).intSel
  let k := intKey p id
  let cfg := s.intCfg k
  let t := if id < 480 then cfg else setBits cfg 13 3 p
  t + flag (s.intAsserted k) 2 + flag (s.intActive k) 3

/-- One 64-bit map over sources 64k to 64k + 63, as a processor sees them (R461). -/
def sourceMap (p k : Nat) (f : Nat → Bool) : Nat := sumOf ((List.range 64).map fun j => flag (f (intKey p (64 * k + j))) j)

/-- Interrupt objects (R457, R461). -/
def State.viewInts (s : State) (p : Nat) (o : Obj) (i : Nat) : Option Nat :=
  let k := o.key
  let x := s.proc p
  let st := s.intStack p
  if k == Obj.INT_RUNNING.key then
    some (match st.getLast? with
      | some e => e.1 + e.2 * 2 ^ 12 + st.length * 2 ^ 16
      | none => 2 ^ 31)
  else if k == Obj.INT_SEL.key then some x.intSel
  else if k == Obj.INT_CFG.key then some (s.intCfgView p)
  else if k == Obj.EOI_STRAY.key then some x.stray
  else if k == Obj.INT_SLEEP.key then some (sumOf ((List.range 8).map fun q => flag (s.ints.sleep.getD q false) q))
  else if k == Obj.INT_IRQ.key then some (sumOf ((List.range 8).map fun q => flag (s.irq q) q))
  else if k == Obj.INT_EMPTY.key then some x.empty
  else if k == Obj.INT_COAL_STAT.key then
    let c := s.coal i
    some (min 65535 (s.groupItems i) + flag c.flushed 30 + flag c.isOpen 31)
  else if k == Obj.INT_PEND.key then some (sourceMap p i s.intAsserted)
  else if k == Obj.INT_ACTIVE.key then some (sourceMap p i (s.activeFor p))
  else none

/-- Temperatures known of the PRESENT dies. -/
def State.temps (s : State) : List Int := (s.presentDies.map s.dieTemp).filter fun t => t != -128

def State.tempMax (s : State) : Int := match s.temps with
  | [] => -128
  | t :: ts => ts.foldl max t

def State.tempMin (s : State) : Int := match s.temps with
  | [] => -128
  | t :: ts => ts.foldl min t

/-- Identity, statistics, field-network and trouble-log objects (R487, R488, R490, R504, R505). The error counters and the
transmitter delay that FN_STATUS shows come from bus traffic outside this model: free values while the port is on (log 8). -/
def State.viewMisc (s : State) (p : Nat) (o : Obj) (_i : Nat) : Option Nat :=
  let k := o.key
  let t := s.tlog
  if k == Obj.BLOCK_BUILD.key then some s.build.channels
  else if k == Obj.BLOCK_CLUSTERS.key then some s.build.clusters
  else if k == Obj.TIME_NOW.key then some (s.now % 2 ^ 64)
  else if k == Obj.DICT_LAST_ERR.key then some (s.proc p).lastErr.toNat
  else if k == Obj.STAT_WA_PM.key then
    some (if s.hostCws = 0 then 0 else min 0xFFFFFFFF (s.objN Obj.STAT_PROG_CW * 1000 / s.hostCws))
  else if k == Obj.STAT_TEMP_MAX.key then some (unsignedOf 8 s.tempMax)
  else if k == Obj.STAT_TEMP_MIN.key then some (unsignedOf 8 s.tempMin)
  else if k == Obj.STAT_FREE_MIB.key then some (sumOf (s.enabledUnits.map s.unitFreeMib))
  else if k == Obj.FN_STATUS.key then some (if s.fn.st = 0 then 0 else s.fn.st + s.freePick % 2 ^ 24 * 2 ^ 8)
  else if k == Obj.TLOG_STATUS.key then
    some (flag (0 < t.size && t.size ≤ t.first.length) 0 + flag t.wrapped 1
      + flag (s.xfers.any fun x => x.key == Obj.TLOG_IMAGE.key && x.upload && !x.timedOut) 2 + t.queue.length * 2 ^ 8 + t.size * 2 ^ 16)
  else if k == Obj.TLOG_NEXT_SEQ.key then some t.nextSeq
  else if k == Obj.TLOG_LOST.key then some t.lost
  else if k == Obj.TLOG_OVERWRITTEN.key then some t.overwritten
  else none

/-- The live value of an object as processor `p` reads it. -/
def State.live (s : State) (p : Nat) (o : Obj) (i r : Nat) : Nat :=
  let v := (s.viewTime o i).or <| (s.viewCmd p o i r).or <| (s.viewPlace o i).or <| (s.viewMedia o i r).or <|
    (s.viewProt o).or <| (s.viewQueues p o i r).or <| (s.viewInts p o i).or (s.viewMisc p o i)
  match v with
  | some n => n
  | none => s.objN o i r

/-- The keys that FREEZE holds (R489): 0x3000:10 to 0x3000:47. -/
def freezeKey (k : Nat) : Bool := 0x300010 ≤ k && k ≤ 0x300047

/-- The value a read returns: frozen statistics while FREEZE is 1 (R489), else the live value. -/
def State.readObj (s : State) (p : Nat) (o : Obj) (i r : Nat) : Nat :=
  if freezeKey (o.at i r) && tbit (s.objN Obj.STAT_CTRL) 0 then (mapGetD s.frozen (o.at i r) 0).toNat
  else s.live p o i r

end Sys2Proof.Machine
end

