-- ==== Sys2Proof/Machine/DictOps.lean ====
section
/-!
DEFINITION. Machine/DictOps.lean: what every dictionary access shares: existence (R7, R486), the checks of R540 in their
order, values and ranges (R462, R463), result codes (R467) and their recording (R469, R487, R490), and the write of a plain
object. Objects whose write has an effect stand with their families; Machine/Dict.lean joins them.
-/

namespace Sys2Proof.Machine

open Sys2Proof

/-! ### Result codes (R467) -/

def rcOk : Nat := 0
def rcNoObject : Nat := 1
def rcReadOnly : Nat := 2
def rcWriteOnly : Nat := 3
def rcRange : Nat := 4
def rcPath : Nat := 5
def rcNoData : Nat := 6
def rcBusy : Nat := 7
def rcLength : Nat := 8
def rcSequence : Nat := 9
def rcTimeout : Nat := 10
def rcRefused : Nat := 11
def rcService : Nat := 12
def rcAlign : Nat := 13

/-- The processor a configuration-port access names; other paths have none, and banked objects are not open to them. -/
def pathProc : DictPath → Nat
  | .cfg p => p
  | _ => 0

/-- The raw path's number of a path (R354). -/
def pathArm : DictPath → Nat
  | .cfg p => p
  | _ => 8

/-! ### Existence, area and path -/

/-- Whether an address exists in this build: objects of channels, moon banks and clusters that it lacks do not (R7). -/
def State.objAt (s : State) (key : Nat) : Option (Obj × Nat × Nat) :=
  match objFind key with
  | none => none
  | some (o, i, r) =>
    if (o.key / 65536 == 0x20 || o.key / 65536 == 0x21) && s.build.channels ≤ r then none
    else if o.key == Obj.UCODE_CL_VERSION.key && s.build.clusters ≤ i then none
    else some (o, i, r)

/-- The area of an index (R486). -/
def areaOf (idx : Nat) : Nat :=
  if idx == 0x1000 then 0 else if idx == 0x1100 then 1 else if idx == 0x1200 then 2 else if idx == 0x1300 then 3
  else if idx / 256 == 0x14 then 4 else if idx == 0x1500 then 5 else if idx == 0x1600 then 6 else if idx == 0x1700 then 7
  else if idx / 256 == 0x20 then 8 else if idx / 256 == 0x21 then 9 else if idx == 0x2200 then 10
  else if idx == 0x2300 then 11 else if idx == 0x2400 then 12 else if idx == 0x2500 then 13 else if idx == 0x2600 then 14
  else if idx / 256 == 0x27 then 15 else if idx == 0x2800 then 16 else if idx == 0x2900 then 17
  else if idx == 0x2A00 then 18 else if idx / 256 == 0x30 then 19 else 20

/-- Whether a read of an object pops a notice queue (R424). -/
def Obj.pops (o : Obj) : Bool := o.key == Obj.NQ_POP.key || o.key == Obj.NQ_TRY.key

/-- Check 4 of R540: the path, the processor and the operation may use the object (R424, R465). -/
def State.pathAllows (s : State) (path : DictPath) (o : Obj) (i r : Nat) (write : Bool) : Bool :=
  let guarded := o.key == Obj.PSAVE_DATA.key && !write && 1 ≤ s.prot.level
  match path with
  | .cfg p => !(o.pops && !write && s.nqReader i != p)
  | .mreq => !o.loc && !guarded
  | .fn =>
    if write then o.fnw && tbit (s.objN Obj.FN_CTRL) 1
    else !o.loc && !guarded && tbit (s.objN Obj.FN_READ_AREAS) (areaOf (o.at i r / 256))

/-- Check 5 of R540: the attribute allows the operation; ORBIT_STANDBY is read-only while ORBIT_MANUAL is 0 (R52). -/
def State.attrCheck (s : State) (o : Obj) (write : Bool) : Nat :=
  if write then
    if (o.acc == .ro && !o.w1c) || (o.acc == .rwb && s.prot.sealed) || !s.prot.ready
      || (o.key == Obj.ORBIT_STANDBY.key && s.objN Obj.ORBIT_MANUAL == 0)
    then rcReadOnly else rcOk
  else if o.acc == .wo then rcWriteOnly else rcOk

/-! ### Values -/

/-- Whether a value in a container of `w` bits is one of the object's type (R462, R463). -/
def Obj.fits (o : Obj) (w v : Nat) : Bool :=
  let n := 8 * o.ty.bytes
  if o.ty == .bool then v < 2
  else if o.ty.signed then v < 2 ^ n ∧ (w = n ∨ v < 2 ^ (n - 1)) ∨ 2 ^ w - 2 ^ (n - 1) ≤ v ∧ v < 2 ^ w
  else v < 2 ^ n

/-- A value cut to its type, reserved bits dropped (R12). -/
def Obj.keep (o : Obj) (v : Nat) : Nat := (v % 2 ^ (8 * o.ty.bytes)).land o.mask.toNat

/-- The range of the object's table row. -/
def Obj.inRange (o : Obj) (v : Nat) : Bool := o.lo ≤ v && v ≤ o.hi && v % o.mult == 0

/-- The checks of R540 that every expedited write makes, 4, 5 and 7, but for the object's own rule. -/
def State.writeCheck (s : State) (path : DictPath) (o : Obj) (i r w v : Nat) : Nat :=
  if !(s.pathAllows path o i r true) then rcPath
  else
    let a := s.attrCheck o true
    if a != rcOk then a
    else if !(o.fits w v) || !(o.inRange (o.keep v)) then rcRange
    else rcOk

/-! ### Recording -/

/-- Which access counter a path has (R487). -/
def pathIndex : DictPath → Nat
  | .cfg _ => 0
  | .mreq => 1
  | .fn => 2

/-- Whether a FLUSH of a notice queue waits, its write unanswered (R427). -/
def State.flushing (s : State) : Bool := s.nqs.any fun q => q.2.flush.isSome

/-- The result of an access recorded: accesses applied, failures, the processor's last error, the configuration port's
answer, which a FLUSH that waits withholds (R427); field writes answered with PATH, and key writes from the field network, are counted too (R354, R467, R469, R487,
R490). -/
def State.account (s : State) (path : DictPath) (addr : Nat) (write : Bool) (code value : Nat) : State :=
  let s1 := if code = rcOk then s.bump Obj.DICT_ACCESS (pathIndex path) else s.bump Obj.DICT_ERRORS
  let refused := path == .fn && write && code == rcPath
  let key := refused && (addr == Obj.RMP_KEY1.key || addr == Obj.RMP_KEY2.key)
  let s2 := if refused then s1.bump Obj.FN_WRITE_REFUSED else s1
  let s3 := if key then s2.bump Obj.RMP_KEY_ERR else s2
  { s with
    dict := s3.dict
    prot := if key then { s.prot with rmpLastErr := 5 } else s.prot
    cfg := match path with
      | .cfg _ => if s.flushing then {} else { ready := true, err := code != rcOk, rdata := w64 value, code }
      | _ => s.cfg
    procs := match path with
      | .cfg p => if code = rcOk then s.procs else (s.updProc p fun x => { x with lastErr := w64 (addr * 2 ^ 32 + code) }).procs
      | _ => s.procs }

/-- The place of a processor's access, which the next access is judged by (R470). -/
def State.notePrev (s : State) (path : DictPath) (key : Nat) (write : Bool) (off : Nat) : State :=
  match path with
  | .cfg p => s.updProc p fun x => { x with prev := some (key, write, off) }
  | _ => s

/-- A whole write of one object through a path: the shared checks, then the object's own rule `f`, which answers the state
and its result code; a refused write changes nothing but what `f` says (R467, R540). A value past a key's type is a wrong key
(R354). -/
def State.writeVia (s : State) (path : DictPath) (o : Obj) (i r w v : Nat) (f : State → Nat → State × Nat) : State × Nat :=
  let c := s.writeCheck path o i r w v
  let key := o.key == Obj.RMP_KEY1.key || o.key == Obj.RMP_KEY2.key
  let e := if c == rcRange && key then f s 65536 else if c != rcOk then (s, c) else f s (o.keep v)
  (e.1.account path (o.at i r) true e.2 0, e.2)

/-- Whether the configuration port is held by a pop or a FLUSH that waits (R424, R427): a strobe while an access is outstanding is ignored
(R469). -/
def State.portHeld (s : State) (path : DictPath) : Bool :=
  match path with
  | .cfg _ => s.flushing || s.procs.any fun p => p.2.popWait.isSome
  | _ => false

/-- A write command of a family: the write of a 64-bit value through its path. -/
def State.writeCmd (s : State) (path : DictPath) (o : Obj) (v : W64) (f : State → Nat → State × Nat) (i : Nat := 0)
    (r : Nat := 0) : State :=
  if s.portHeld path then s
  else match s.objAt (o.at i r) with
  | none => (s.account path (o.at i r) true rcNoObject 0).notePrev path (o.at i r) true (if o.ty.bytes = 8 then 4 else 0)
  | some _ => ((s.writeVia path o i r 64 v.toNat f).1).notePrev path (o.at i r) true (if o.ty.bytes = 8 then 4 else 0)

/-- A read of one object through a path: the checks, then `f`, which answers state, code and value. -/
def State.readVia (s : State) (path : DictPath) (o : Obj) (i r : Nat) (f : State → State × Nat × Nat) : State × Nat × Nat :=
  let c := if !(s.pathAllows path o i r false) then rcPath else s.attrCheck o false
  let e := if c != rcOk then (s, c, 0) else f s
  (e.1.account path (o.at i r) false e.2.1 e.2.2, e.2)

/-- A read command of a family. -/
def State.readCmd (s : State) (path : DictPath) (o : Obj) (f : State → State × Nat × Nat) (i : Nat := 0) (r : Nat := 0) :
    State :=
  if s.portHeld path then s
  else match s.objAt (o.at i r) with
  | none => (s.account path (o.at i r) false rcNoObject 0).notePrev path (o.at i r) false 0
  | some _ => ((s.readVia path o i r f).1).notePrev path (o.at i r) false 0

/-- Stored: the plain write. -/
def State.store (s : State) (o : Obj) (i r v : Nat) : State × Nat := (s.setObjN o v i r, rcOk)

/-- A write refused as a value, or a state, that is not acceptable. -/
def State.outOfRange (s : State) : State × Nat := (s, rcRange)

/-! ### DOMAIN transfers (R471, R474 to R477) -/

/-- Whether an object is in a live transfer on a context other than `ctx` (R474). -/
def State.domainBusy (s : State) (key ctx : Nat) : Bool :=
  s.xfers.any fun x => x.key == key && x.ctx != ctx && !x.timedOut

/-- A read of the calibration snapshot ends: the hold of waiting results runs on, and they may be armed (R328, R331). -/
def State.endSnapshot (s : State) : State :=
  match s.calSnapFrom with
  | some t =>
    let late (h : Option Nat) : Option Nat := h.map fun x => x + (s.now - max x t)
    State.armAll { s with calSnapFrom := none
                          cal := s.cal.map fun (c : Nat × CalDie) => (c.1, { c.2 with hold := late c.2.hold })
                          chans := s.chans.map fun (c : Nat × Chan) => (c.1, { c.2 with trimHold := late c.2.trimHold }) }
  | none => s

/-- A transfer removed; an upload of the calibration snapshot gives back what it held (R331, R477). -/
def State.dropXfer (s : State) (ctx : Nat) : State :=
  let mine := s.xfers.filter fun x => x.ctx == ctx
  let s1 := if mine.any fun x => x.upload && x.key == Obj.CAL_SNAPSHOT.key then s.endSnapshot else s
  { s1 with xfers := s1.xfers.filter fun x => x.ctx != ctx }

/-- The context a whole transfer through a path uses: a processor's own, a host-link one, the field network's. -/
def pathCtx : DictPath → Nat
  | .cfg p => p
  | .mreq => 8
  | .fn => 264

/-- What a whole transfer does to the processor's context before its checks: an access to another slot, or a new opening,
abandons the transfer there (R471). -/
def State.freeCtx (s : State) (path : DictPath) : State :=
  match path with
  | .cfg p => s.dropXfer p
  | _ => s

/-- The whole download of a DOMAIN object through a path: the checks, then the end action `f` (R476, R540). -/
def State.downloadCmd (s : State) (path : DictPath) (o : Obj) (bs : List Byte) (f : State → State × Nat) (i : Nat := 0) :
    State :=
  let key := o.at i 0
  if s.portHeld path then s
  else match s.objAt key with
  | none => (s.account path key true rcNoObject 0).notePrev path key true 0
  | some _ =>
    let s0 := s.freeCtx path
    let a := s0.attrCheck o true
    let e :=
      if !(s0.pathAllows path o i 0 true) then (s0, rcPath)
      else if a != rcOk then (s0, a)
      else if s0.domainBusy key 1000 then (s0, rcBusy)
      else if bs.length = 0 ∨ 16777216 < bs.length then (s0, rcRange)
      else f s0
    (e.1.account path key true e.2 0).notePrev path key true 0

/-- The whole upload of a DOMAIN object through a path; `f` answers the state and the contents it takes when it opens, or a
failure. The value recorded is its length. -/
def State.uploadCmd (s : State) (path : DictPath) (o : Obj) (f : State → State × Sum Nat (List Byte)) (i : Nat := 0) : State :=
  let key := o.at i 0
  if s.portHeld path then s
  else match s.objAt key with
  | none => (s.account path key false rcNoObject 0).notePrev path key false 0
  | some _ =>
    let s0 := s.freeCtx path
    let a := s0.attrCheck o false
    let e :=
      if !(s0.pathAllows path o i 0 false) then (s0, Sum.inl rcPath)
      else if a != rcOk then (s0, Sum.inl a)
      else if s0.domainBusy key 1000 then (s0, Sum.inl rcBusy)
      else f s0
    let c := match e.2 with
      | .inl c => c
      | .inr _ => rcOk
    let n := match e.2 with
      | .inl _ => 0
      | .inr bs => bs.length
    (e.1.account path key false c n).notePrev path key false 0

end Sys2Proof.Machine
end

