-- ==== Sys2Proof/Machine/Modes.lean ====
section
/-!
DEFINITION. Machine/Modes.lean: the meanings of MODE_REQUEST, SANITIZE_ENTER, PARK_ENTRY_DONE and PARK_WAKE (R26, R28, R31,
R33, R153).
-/

namespace Sys2Proof.Machine

open Sys2Proof

/-- Whether a command needs a media operation (R153): a READ not served wholly from buffers and zeros, a FUA WRITE, a FLUSH
with work to program, maintenance with media work, SECURE_DISCARD. -/
def State.needsMedia (s : State) (c : Cmd) : Bool :=
  if c.opcode == 1 then
    let g := s.granules c
    (List.range (g.2 + 1 - g.1)).any fun k => entryState (s.mapEntry c.unit (g.1 + k)) == 1
  else if c.opcode == 2 then c.fua
  else if c.opcode == 3 then (s.cmd? c.stamp).any fun d => !d.work.isEmpty
  else c.opcode == 5 || (isMaintenance c.opcode && c.opcode != 0x2A)

/-- MODE_REQUEST written: the value is kept and the request is taken (R26, R28). -/
def writeModeRequest (s : State) (v : Nat) : State × Nat :=
  (({ s with modes := { s.modes with request := v } }).requestMode (Mode.ofNum v) none, rcOk)

/-- BURST_EXIT_FREE written: RECORD-BURST watches its pool against the new value (R24, log 226). -/
def writeBurstExit (s : State) (v : Nat) : State × Nat := ((s.setObjN Obj.BURST_EXIT_FREE v).burstWatch, rcOk)

/-- MODE_REQUEST. -/
def execModeRequest (dt : Nat) (path : DictPath) (value : W64) (s : State) : Host.Outcome State Fault Refusal :=
  s.functional dt fun s => s.writeCmd path Obj.MODE_REQUEST value writeModeRequest

/-- Media operations of commands and of accepted data still to be programmed (R31 step 3). -/
def OpKind.ofCommand : OpKind → Bool
  | .erase _ none => false
  | _ => true

/-- Whether every queue is empty and no media operation for a command remains, but for the request's own command (R31). -/
def State.drained (s : State) (own : Option Nat) : Bool :=
  (s.cmds.all fun c => own == some c.stamp) && s.versions.isEmpty && s.jobs.isEmpty
    && s.ops.all fun o => !(o.kind.ofCommand)

/-- The block enters SANITIZE once it has drained (R31). -/
def State.enterSanitize (s : State) : State :=
  match s.modes.pending with
  | some r =>
    if r.mode == .sanitize && s.modes.draining && s.drained r.cmd then
      (({ s with modes := { s.modes with pending := none, draining := false } }).changeMode .sanitize).grantMode r.cmd
    else s
  | none => s

/-- SANITIZE_ENTER. -/
def execSanitizeEnter (dt : Nat) (s : State) : Host.Outcome State Fault Refusal := s.functional dt State.enterSanitize

/-- A restarted PARK entry runs again from step 2 once no media operation for any command remains: nothing has started, and no
command that needs the media is left (R153). -/
def State.parkAgain (s : State) : State :=
  if s.modes.parkEntry && s.modes.parkRestarted && (s.ops.all fun o => !o.started) && s.jobs.isEmpty
      && s.cmds.all (fun c => c.isEnded || !(s.needsMedia c)) then
    { s with modes := { s.modes with parkRestarted := false } }
  else s

/-- Whether PARK entry can run to its end: operations already started have run to theirs, and no command that restarted it is
still at work (R33, R153). -/
def State.parkQuiet (s : State) : Bool := !s.modes.parkRestarted && s.ops.all fun o => !o.started

/-- Step 3 of PARK entry: coalescing groups are flushed, once, ahead of deep power-down (R33, R459). -/
def State.parkFlush (s : State) : State :=
  if s.modes.parkEntry && !s.modes.parkFlushed then
    { s.coalFlushAll with modes := { s.modes with parkFlushed := true } }
  else s

/-- PARK entry ends: coalescing groups are flushed, the dies lie in deep power-down, the mode is PARK (R33, R459). -/
def State.parkDone (s : State) : State :=
  match s.modes.pending with
  | some r =>
    if s.modes.parkEntry && s.parkQuiet then
      let s1 := s.parkFlush
      let s2 := { s1 with
        dies := s1.dies.map fun (d : Nat × DieInfo) => (d.1, { d.2 with powered := !(s1.diePresent d.1) && d.2.powered })
        chans := s1.chans.map fun (c : Nat × Chan) => (c.1, { c.2 with wpN := false })
        modes := { s1.modes with pending := none, parkEntry := false, poweredDown := true } }
      (s2.changeMode .park).grantMode r.cmd
    else s
  | none => s

/-- PARK_ENTRY_DONE. -/
def execParkEntryDone (dt : Nat) (s : State) : Host.Outcome State Fault Refusal := s.functional dt State.parkDone

/-- PARK_WAKE (R33): in PARK, a command that waits and needs the media wakes the block. -/
def execParkWake (dt : Nat) (s : State) : Host.Outcome State Fault Refusal :=
  s.functional dt fun s =>
    if s.modes.current == .park && !s.prot.pfail && s.cmds.any (fun c => !c.isEnded && s.needsMedia c) then s.wake else s

end Sys2Proof.Machine
end

