-- ==== Sys2Proof/Machine/HostOps.lean ====
section
/-!
DEFINITION. Machine/HostOps.lean: the host link's shared operations: error codes (R86, R89 to R91), queue resets (R94, R151)
and the way to DOWN (R90).
-/

namespace Sys2Proof.Machine

open Sys2Proof

def State.setLink (s : State) (f : LinkSt → LinkSt) : State := { s with link := f s.link }

/-! ### Error codes -/

/-- An error code counted, in any link state: its counter, LAST_ERROR, and a LINK ERROR unless one was sent within the last
microsecond (R86, R91, R95). -/
def State.countCode (s : State) (code : Nat) : State :=
  let s1 := (s.bump Obj.HL_ERR (code - 1)).setLink fun l => { l with lastError := code }
  let quiet : Bool := match s1.link.lastErrorAt with
    | some t => t + 1000 ≤ s1.now
    | none => true
  if quiet then
    s1.setLink fun l => { l with lastErrorAt := some s1.now,
                                 out0 := l.out0 ++ [.link 3 code false (s1.objN Obj.HL_ERR (code - 1))] }
  else s1

/-- A dropped packet: its code counted and its header bytes 0 to 7 kept (R89). -/
def State.dropPacket (s : State) (code : Nat) (hdr : Header) : State :=
  (s.setObjN Obj.HL_LAST_BAD (hbits hdr 0 64)).countCode code

/-! ### Queue reset -/

/-- A media operation of a command taken off its queue when it has not started (R151). -/
def OpKind.ofStamp (st : Nat) : OpKind → Bool
  | .erase _ (some c) => c == st
  | .rawProgram c => c == st
  | .zeroFill c _ _ => c == st
  | _ => false

/-- Jobs in flight: those of read operations that have started, and those whose data has come and is still to be decoded. -/
def State.inFlight (s : State) : List Nat :=
  (((s.ops.filter fun o => o.started).map fun o => match o.kind with
    | .read js => js
    | _ => []).flatten) ++ (s.jobs.filter fun j => j.arrived).map fun j => j.id

/-- Whether an operation programs a codeword that a command moves. -/
def State.movesFor (s : State) (st : Nat) (k : OpKind) : Bool :=
  match k with
  | .program sb _ m => (s.openSb? sb).any fun b => (unitVersions (b.unitCws m (s.perRow b))).any fun id =>
      (s.version? id).any fun v => v.moveCmd == some st
  | _ => false

/-- Started operations of a command, its codeword reads in flight and its target programs among them (R151). -/
def State.mediaOf (s : State) (st : Nat) : Bool :=
  (s.jobs.any fun j => j.purpose.owner == some st && s.inFlight.contains j.id)
    || s.ops.any fun o => o.started && (o.kind.ofStamp st || s.movesFor st o.kind)

/-- The pool-0 buffers of a rebuild given back, with its requests for more and the pins of the members it held (R298). -/
def State.freeRebuild (s : State) (r : Rebuild) : State :=
  r.pinned.foldl State.unpin ((s.dropWaits fun u => match u with
    | .member id _ => id == r.id
    | _ => false).dropBufs r.bufs)

/-- Codeword reads dropped, with their rebuilds, the reads of those and their pins. -/
def State.dropJobs (s : State) (gone : List Nat) : State :=
  let rbs := (s.rebuilds.filter fun r => gone.contains r.job).map fun r => r.id
  let dead (j : Job) : Bool := gone.contains j.id || (match j.purpose with
    | .member r _ => rbs.contains r
    | _ => false)
  let ids := (s.jobs.filter dead).map fun j => j.id
  let s0 := (s.rebuilds.filter fun r => gone.contains r.job).foldl State.freeRebuild s
  let s1 := (s.jobs.filter dead).foldl (fun a j => a.unpin (ppaBlk j.ppa)) s0
  { s1 with
    jobs := s1.jobs.filter fun j => !(dead j)
    rebuilds := s1.rebuilds.filter fun r => !(gone.contains r.job)
    ops := s1.ops.filter fun o => match o.kind with
      | .read js => o.started || js.any fun j => !(ids.contains j)
      | _ => true }

/-- The rebuilds that serve a command's codewords given up: their members' reads in flight go on as reads of the command, whose
data is discarded (R151). -/
def State.cancelRebuilds (s : State) (st : Nat) : State :=
  let fly := s.inFlight
  let mine := (s.jobs.filter fun j => j.purpose.owner == some st).map fun j => j.id
  let rbs := s.rebuilds.filter fun r => mine.contains r.job
  let ids := rbs.map fun r => r.id
  let keep (j : Job) : Job := match j.purpose with
    | .member r m => if ids.contains r && fly.contains j.id then { j with purpose := .read st m } else j
    | _ => if mine.contains j.id then { j with raced := none } else j
  let s1 := rbs.foldl State.freeRebuild { s with jobs := s.jobs.map keep }
  let late := (s1.jobs.filter fun j => match j.purpose with
    | .member r _ => ids.contains r
    | _ => false).map fun j => j.id
  { s1.dropJobs late with rebuilds := s1.rebuilds.filter fun r => !(ids.contains r.id) }

/-- A command's codeword reads not in flight are dropped; its operations not started are not started (R151). -/
def State.cancelMedia (s : State) (st : Nat) : State :=
  let a := s.cancelRebuilds st
  let fly := a.inFlight
  let gone := (a.jobs.filter fun j => j.purpose.owner == some st && !(fly.contains j.id)).map fun j => j.id
  let s1 := a.dropJobs gone
  { s1 with ops := s1.ops.filter fun o => o.started || !(o.kind.ofStamp st) }

/-- Reorder slots of a READ's sectors freed (R302): `ranges` lists the sectors that hold one, each in the cluster of its
media source. -/
def State.freeSlots (s : State) (c : Cmd) (secs : List Nat) : State :=
  secs.foldl (fun a x => match c.sources.find? fun p => p.1 == x with
    | some (_, .media ppa) => { a with slotsUsed := mapUpd a.slotsUsed (dieCluster (ppaDie ppa)) 0 fun n => n - 1 }
    | _ => a) s

/-- A command ended before its effect: what it holds is given back. -/
def State.endEarly (s : State) (st status info : Nat) : State :=
  match s.cmd? st with
  | some c =>
    let s1 := (if c.opcode == 1 then s.freeSlots c c.ranges else s).giveBack c
    let s2 := { (s1.dropTokens st).unlockBlocks st with
      versions := s1.versions.map fun (v : Version) => if v.moveCmd == some st then { v with moveCmd := none } else v }
    s2.finish st status info
  | none => s

/-- A command ended by the queue reset; its moves that are not programmed are given up (R94, R106, R151). -/
def State.abort (s : State) (st qtag : Nat) : State :=
  (((s.versions.filter fun v => v.moveCmd == some st).map fun v => v.id).foldl State.dropVersion s).endEarly st 0x08 qtag

/-- An activation is withdrawn before its swap: its clusters run on, and parked contexts go on where they parked, their
operations' limits longer by the time parked (R401, R403). -/
def State.cancelActivation (s : State) : State :=
  let parked (o : DieOp) : Option Ctx := s.ctxs.find? fun c => c.run == 5 && c.op == some o.id
  { s with activation := none
           clusters := s.clusters.map fun (k : Nat × Cluster) => (k.1, { k.2 with quiescing := false })
           ctxs := s.ctxs.map fun (x : Ctx) => if x.run == 5 then { x with run := 2 } else x
           ops := s.ops.map fun (o : DieOp) => match parked o with
             | some c => { o with suspendedNs := o.suspendedNs + (s.now - c.parkedAt) }
             | none => o }

/-- One covered command under R151: completed at once, or marked to end with ABORTED_QUEUE_RESET when its started media
operations have ended, a PURGE or SECURE_DISCARD also its map update. -/
def State.resetCmd (s : State) (qtag : Nat) (c : Cmd) : State :=
  let st := c.stamp
  if c.isEnded then s
  else if c.phase == .waiting && (c.opcode != 8 && c.opcode != 9 && c.opcode != 0xA && c.opcode != 0xB) then s.abort st qtag
  else if c.opcode == 2 then
    if c.phase == .accepted then (if c.fua then s else s.finish st stOk 0) else s.abort st qtag
  else if c.opcode == 3 || c.opcode == 7 then s.abort st qtag
  else if c.opcode == 0xA || c.opcode == 0xB then
    let mine := match s.modes.pending with
      | some r => r.cmd == some st
      | none => false
    let s1 := if mine then { s with modes := { s.modes with pending := none, parkEntry := false, draining := false } } else s
    s1.abort st qtag
  else if c.opcode == 8 then
    let i := hbits c.hdr 96 3
    let s1 := { s.updStream i (fun _ => {}) with orbit := { s.orbit with opens := s.orbit.opens.filter fun x => x != st } }
    (s1.replan s1.modes.current).abort st qtag
  else if c.opcode == 9 then s
  else if c.opcode == 0x2A then
    match s.activation with
    | some a =>
      if a.stamp == st then
        s.cancelActivation.abort st qtag
      else s.abort st qtag
    | none => s.abort st qtag
  else if c.finishesMap then s.updCmd st fun d => { d with aborted := true, unc := some qtag }
  else
    let s1 := (s.cancelMedia st).dropCalOf st
    if s1.mediaOf st then s1.updCmd st fun d => { d with aborted := true, unc := some qtag } else s1.abort st qtag

/-- Commands that a queue reset covers and that ended operations leave free to end do so now. -/
def State.sweepAborted (s : State) : State :=
  (s.cmds.filter fun c => c.aborted && !c.isEnded && !c.finishesMap && !(s.mediaOf c.stamp)).foldl
    (fun a c => a.abort c.stamp (c.unc.getD 0)) s

/-- Covered commands of a queue mask: those filed and not yet covered by an earlier reset (R94). -/
def State.covered (s : State) (qmask : Nat) : List Cmd :=
  s.cmds.filter fun c => c.path == .host && tbit qmask c.queue && !c.aborted
    && !(s.link.qrsts.any fun q => q.covered.contains c.stamp)

/-- A queue reset: windows close, covered commands are treated by R151; CMDs held in the receive buffer end refused (R94). -/
def State.queueReset (s : State) (qtag qmask : Nat) (answer : Bool) : State :=
  let cs := s.covered qmask
  let stamps := cs.map fun c => c.stamp
  let held := s.link.held.filter fun h => tbit qmask (hbits h 48 6)
  let s1 := s.setLink fun l => { l.closeWindows (fun w => stamps.contains w.stamp) with
    held := l.held.filter fun h => !(tbit qmask (hbits h 48 6))
    owe0 := l.owe0 + held.length
    out1 := l.out1.filter fun p => match p with
      | .data st _ _ _ _ _ => !(stamps.contains st)
      | _ => true
    qrsts := if answer then l.qrsts ++ [{ qtag, qmask, covered := stamps }] else l.qrsts }
  let s1 := s1.cometDiscard fun h => s1.comet.any fun x => x.id == h.stream && tbit qmask x.queue
  let s2 := held.foldl (fun a h =>
    { a with link := { a.link with out0 := a.link.out0 ++ [.resp (hbits h 48 6) (hbits h 32 16) 0x08 false qtag 0] } }) s1
  (cs.foldl (fun a c => match a.cmd? c.stamp with
    | some d => a.resetCmd qtag d
    | none => a) s2).advance

/-- QRSTs whose covered commands have all completed, with their RESPs sent, are answered, in the order received (R94). -/
def State.answerQrsts : Nat → State → State
  | 0, s => s
  | fuel + 1, s =>
    match s.link.qrsts with
    | q :: rest =>
      if q.covered.any fun st => (s.cmd? st).isSome then s
      else State.answerQrsts fuel (s.setLink fun l => { l with qrsts := rest, out0 := l.out0 ++ [.qrst q.qtag q.qmask] })
    | [] => s

/-! ### DOWN -/

/-- Whether a packet still leaves once the link is DOWN: LINK DOWN, ERROR and ECHO_REPLY do (R86, R90). -/
def OutPkt.survives : OutPkt → Bool
  | .link kind _ _ _ => kind != 1
  | _ => false

/-- The link in DOWN: credit, stalls and receive space at rest, what was to be sent discarded, and nothing heard until a CRDT
comes (R73, R90). -/
def LinkSt.quiet (l : LinkSt) : LinkSt :=
  { l with st := 0, crcActive := false, stall0 := false, stall1 := false, short0 := none, short1 := none, tx0 := 0, tx1 := 0
           rx0 := 0, rx1 := 0, owe0 := 0, owe1 := 0, vc0Run := 0, heard := false, crdtIn := none, mreqs := []
           out0 := l.out0.filter OutPkt.survives, out1 := [] }

/-- The link as DOWN leaves it: nothing waits on it (R90). -/
def LinkSt.cleared (l : LinkSt) : LinkSt := { l.quiet with windows := [], held := [], qrsts := [] }

/-- A link event of R90: the code counted, LINK DOWN to be sent, and from UP every queue reset, answers discarded, the notice and
the event raised. A LINK DOWN that has not left when the link starts again is not sent (DESIGN CHOICE, log 234). -/
def State.toDown (s : State) (code : Nat) : State :=
  let was := s.link.st
  let s1 := s.countCode code
  let s2 := s1.setLink fun l => { l.quiet with out0 := l.quiet.out0 ++ [.link 2 code false 0] }
  if was != 3 then s2
  else
    let s3 := s2.queueReset 0 (2 ^ 64 - 1) false
    let s4 := s3.setLink LinkSt.cleared
    let s5 := ((s4.xfers.filter fun x => decide (8 ≤ x.ctx) && decide (x.ctx < 264)).foldl (fun a x => a.dropXfer x.ctx) s4).deliver
    let s6 := s5.setLink LinkSt.cleared
    let st := s6.link.st + s6.link.lastError * 2 ^ 16
    (s6.classNotice 0x59 3 0 [(4, st), (8, s6.objN Obj.HL_LAST_BAD)]).event 0x30 code (s6.objN Obj.HL_LAST_BAD)

end Sys2Proof.Machine
end

