-- ==== Sys2Proof/Machine/Inbound.lean ====
section
/-!
DEFINITION. Machine/Inbound.lean: inbound packets: their checks (R67 to R72, R75, R89), receive space and credit (R74), and what
the link hears in each state (R73).
-/

namespace Sys2Proof.Machine

open Sys2Proof

/-- Bits hi : lo as a mask. -/
def span (hi lo : Nat) : Nat := 2 ^ (hi + 1) - 2 ^ lo

/-- The packet types of the inbound direction (R70). -/
def inboundType (ty : Nat) : Bool := [1, 3, 6, 8, 9, 0xA].contains ty

/-- The header of a packet of a given command: its TYPE, and the KIND of a LINK packet; a header whose TYPE is not listed
stays as it is, for check 2. -/
def asPacket (ty kind : Nat) (h : Header) : Header :=
  if inboundType (hbits h 0 4) then
    let x := setBits h.toNat 0 4 ty
    BitVec.ofNat 256 (if ty = 9 then setBits x 32 8 kind else x)
  else h

/-- Whether PLEN suits a type (R70); a type not listed is left to check 2. -/
def plenOk (ty plen : Nat) : Bool :=
  match ty with
  | 1 | 6 => plen ≤ 192
  | 3 => [4096, 8192, 12288, 16384].contains plen
  | 8 | 9 | 0xA => plen == 0
  | _ => true

/-- Reserved header bits of each inbound type but CMD (R69, R82, R84 to R87). DONE of a QRST is 0 inbound: one that is 1 counts
as a reserved bit set (R87; DESIGN CHOICE, log 237). -/
def reservedMask (ty : Nat) : Nat :=
  let common := span 15 12 + span 10 8
  match ty with
  | 3 => common + span 255 128 + span 95 80 + span 63 54
  | 6 => common + span 63 48
  | 8 => common + span 255 96
  | 9 => common + span 255 128 + span 95 72 + span 63 41
  | 0xA => common + span 255 160 + span 95 48
  | _ => 0

/-- Whether a type is allowed in a link state (R73, R75). -/
def typeAllowed (ty st : Nat) : Bool :=
  match ty with
  | 8 => st ≤ 1
  | 9 => true
  | _ => st == 3

/-- The channel of a type (R68). -/
def typeVc (ty : Nat) : Nat := if ty = 3 then 1 else 0

/-- The open window that a DATA header names and fits (R89, code 8). An OFFSET that is no multiple of 4,096 fits none (R82 states
the field so and R89 no check of it: DESIGN CHOICE, log 236). -/
def State.dataWindow (s : State) (h : Header) : Option Window :=
  let off := hbits h 96 32
  s.link.windows.find? fun w => w.id == hbits h 64 16 && s.windowOpen w
    && (s.cmd? w.stamp).any (fun c => c.queue == hbits h 48 6 && c.cid == hbits h 32 16)
    && w.offset ≤ off && off + hbits h 16 16 ≤ w.offset + w.len && off % 4096 == 0

/-- The first check of R89 that a packet fails. -/
def State.packetFault (s : State) (p : Packet) : Option Nat :=
  let ty := hbits p.hdr 0 4
  let plen := hbits p.hdr 16 16
  let trl := tbit p.hdr.toNat 11
  let len := 32 + plen + (if trl then 4 else 0)
  if p.beats != ceilDiv len 256 || p.lastBytes != len % 256 || !(plenOk ty plen) then some 4
  else if s.link.crcActive && !trl then some 7
  else if trl && p.trailer.map (·.toNat) != some (crc32c (leBytes 32 p.hdr.toNat ++ padTo plen p.payload)) then some 1
  else if hbits p.hdr 4 4 != 0 then some 3
  else if !(inboundType ty) || !(typeAllowed ty s.link.st) then some 2
  else if p.vc != typeVc ty then some 6
  else if p.hdr.toNat.land (reservedMask ty) != 0 then some 5
  else if ty == 3 && (s.dataWindow p.hdr).isNone then some 8
  else none

/-- Credit of a packet on channel `vc` owed to the front end, once it is taken or dropped (R74). -/
def State.returnCredit (s : State) (vc beats : Nat) : State :=
  s.setLink fun l => if vc = 1 then { l with owe1 := l.owe1 + beats } else { l with owe0 := l.owe0 + beats }

/-- Receive space that a packet takes on its channel. -/
def State.occupy (s : State) (vc beats : Nat) : State :=
  s.setLink fun l => if vc = 1 then { l with rx1 := l.rx1 + beats } else { l with rx0 := l.rx0 + beats }

/-- Receive space left on a channel (R74). -/
def State.rxSpace (s : State) (vc : Nat) : Nat :=
  if vc = 1 then 4096 - (s.link.rx1 - s.returned s.link.owe1) else 256 - (s.link.rx0 - s.returned s.link.owe0)

/-- An inbound packet: in DOWN nothing is heard until a CRDT's SOP beat (R73); framing and overrun of its channel's space take
the link down (R90); spacing (R75) and the checks of R89 drop it; else `f` takes it. A packet that consumes credit holds its
space until its credit has been returned. -/
def State.arrive (s : State) (ty kind : Nat) (gap : Option Nat) (pkt : Packet) (f : State → Packet → State) : State :=
  let h := asPacket ty kind pkt.hdr
  let p := { pkt with hdr := h }
  let free := ty == 8 || ty == 9
  if !s.ready || (s.link.st == 0 && !s.link.heard && ty != 8) then s
  else
    let s1 := if ty == 8 && s.link.st == 0 then s.setLink fun l => { l with heard := true } else s
    if p.framing.isSome || 65 < p.beats then s1.toDown 11
    else if !free && s1.rxSpace p.vc < p.beats then s1.toDown 10
    else
      let s2 := if free then s1 else s1.occupy p.vc p.beats
      if gap.any (fun g => g < 16) then s2.dropPacket 15 h
      else match s2.packetFault p with
        | some code => if free then s2.dropPacket code h else (s2.dropPacket code h).returnCredit p.vc p.beats
        | none => f s2 p

end Sys2Proof.Machine
end

