-- ==== Sys2Proof/Machine/FilingOps.lean ====
section
/-!
DEFINITION. Machine/FilingOps.lean: the checks at filing (R102 to R105, R107), streams (R58, R112, R113), and how a command
is filed (R79, R97, R98, R103, R123, R126, R129).
-/

namespace Sys2Proof.Machine

open Sys2Proof

/-! ### Header masks -/

/-- Reserved bits of a CMD header outside PARAM (R69, R78). -/
def cmdReserved : Nat := span 15 12 + span 10 8 + span 63 58 + span 95 77

def laddrMask : Nat := span 255 192
def rangeMask : Nat := laddrMask + span 175 144 + span 135 96
def pageMask : Nat := span 130 112

/-- PARAM bits that an opcode uses (R109 to R116). Page and codeword bits are judged by reason 10. -/
def paramMask (opcode : Nat) : Nat :=
  match opcode with
  | 1 | 2 | 4 | 5 | 0x28 => rangeMask
  | 8 => span 191 128 + span 98 96
  | 9 => span 98 96
  | 0xB => span 103 96
  | 0x20 => span 183 160 + span 159 115
  | 0x21 | 0x27 => span 159 131
  | 0x22 | 0x23 => laddrMask + span 175 160 + span 159 115
  | 0x24 => span 184 184 + span 175 160 + span 159 131
  | 0x25 => span 185 184 + span 159 150
  | 0x26 => span 183 176 + span 159 131
  | 0x29 => span 175 160
  | 0x2A => span 167 160
  | 0x2B => span 184 184 + span 159 150
  | _ => 0

/-- The listed opcodes (R110, R116). -/
def knownOpcode (opcode : Nat) : Bool := isLogical opcode || isMaintenance opcode

/-- The byte of the lowest bit of a nonzero number. -/
def lowByte (n : Nat) : Nat := ((List.range 32).find? fun i => bits n (8 * i) 8 != 0).getD 0xFF

/-- The opcodes each flag is allowed on (R102): ORDERED, FUA, ATOMIC, WAIT_BUF, FORCE. -/
def flagAllowed (f opcode : Nat) : Bool :=
  match f with
  | 0 => [1, 2, 3, 4, 5].contains opcode || isMaintenance opcode
  | 1 | 2 => opcode == 2
  | 3 => [1, 2, 0x20, 0x26, 0x24, 0x22, 0x23].contains opcode
  | _ => opcode == 0x21 || opcode == 0x2A

/-- Opcodes that move data at LADDR (R124). -/
def movesData (opcode : Nat) : Bool := opcode == 1 || opcode == 2 || opcode == 0x22 || opcode == 0x23

/-- Whether an opcode's layout has LADDR (R109, R115). -/
def hasLaddr (opcode : Nat) : Bool := hasRange opcode || isMaintenance opcode

/-- Bytes a command moves: its sectors, or its raw pages rounded up to 4,096 bytes (R116). -/
def State.dataLen (s : State) (c : Cmd) : Nat :=
  if c.opcode == 0x22 || c.opcode == 0x23 then ceilDiv (c.count * (s.die (ppaDie c.ppa)).pageBytes) 4096 * 4096
  else c.nsect * 4096

/-! ### Step 5 -/

/-- Whether block `b` of plane 0 of a system die lies in an area of `n` blocks from `f` (R338). -/
def inArea (die plane b f n : Nat) : Bool := (die == 0 || die == 16) && plane == 0 && f ≤ b && b < f + n

/-- Whether a block lies in the raw area or the boot region of a system die, which are SLC (R338, R356). -/
def State.inSlcArea (s : State) (b : BlockAddr) : Bool :=
  inArea b.die b.plane b.block s.prot.rawFirst s.prot.rawCount || inArea b.die b.plane b.block s.prot.bootFirst s.prot.bootCount

/-- The media fields of a maintenance command (R6, R107, R115, R116, R203, R210). A cluster that the build lacks is out of range
as a channel or die is (R6). Pages are those of the block's class; a RAW_PROGRAM programs SLC pages (R356). -/
def State.mediaFields (s : State) (c : Cmd) : Option Nat :=
  let p := c.ppa
  let op := c.opcode
  let pg := c.hdr.toNat.land (pageMask - (paramMask op).land pageMask)
  let hasDie := op != 0x28 && op != 0x29 && op != 0x2A
  let hasBlock := hasDie && op != 0x25 && op != 0x2B
  let e := s.ledger (ppaBlk p)
  let slc := op == 0x23 || s.inSlcArea (ppaBlk p)
  let pages := s.classPages (ppaDie p) (if slc then 0 else e.cls)
  if op == 0x28 then none
  else if op == 0x2A && 2 ^ s.build.clusters ≤ c.count % 256 then some (infoField 10 20)
  else if pg != 0 then some (infoField 10 (lowByte pg))
  else if hasDie && s.build.dies ≤ ppaDie p then some (infoField 10 18)
  else if hasBlock && s.objN Obj.LEDGER_PLANES ≤ ppaPlane p then some (infoField 10 18)
  else if hasBlock && s.objN Obj.LEDGER_BLOCKS ≤ ppaBlock p then some (infoField 10 16)
  else if (op == 0x20 || op == 0x22 || op == 0x23) && pages ≤ ppaPage p then some (infoField 10 14)
  else if op == 0x20 && pages < ppaPage p + c.count then some (infoField 5 20)
  else if (op == 0x22 || op == 0x23) && (c.count < 1 || 64 < c.count || pages < ppaPage p + c.count) then some (infoField 5 20)
  else if op == 0x24 && (c.count < 1 || 4096 < c.count || s.objN Obj.LEDGER_BLOCKS < ppaBlock p + c.count) then
    some (infoField 5 20)
  else if op == 0x25 && c.subop == 0 then some (infoField 1 23)
  else if (op == 0x20 || op == 0x26) && c.tclass != 255 && 4 < c.tclass then some (infoField 1 22)
  else if op == 0x26 && (c.tclass == 0 || e.cls != 0) then some (infoField 17 22)
  else if op == 0x21 && e.valid != 0 && !c.force then some (infoField 16)
  else if op == 0x21 && (e.state == lsFactoryBad || e.state == lsSystem || (s.openMember (ppaBlk p) && !c.force)) then
    some (infoField 17)
  else none

/-- The stream of a queue. -/
def State.streamOf (s : State) (q : Nat) : Option Nat :=
  (List.range 8).find? fun i => (s.stream i).isOpen && !(s.stream i).closing && (s.stream i).queue == q

/-- The opcode's own rule among the field checks (R107, R110 to R113). -/
def State.ownFields (s : State) (c : Cmd) : Option Nat :=
  let op := c.opcode
  let cls := s.queueClass c.queue
  let off := !(s.unitEnabled c.unit)
  if hasRange op then
    if off then some (infoField 4 6)
    else if c.nsect = 0 || ((op == 1 || op == 2) && 4096 < c.nsect) then some (infoField 5 18)
    else if op == 2 && c.atomic && 512 < c.nsect then some (infoField 6 18)
    else if op == 2 && cls == 0 && (s.streamOf c.queue).isNone then some (infoField 7)
    else none
  else if op == 3 || op == 7 then (if c.unit != 15 && off then some (infoField 4 6) else none)
  else if op == 0xB then (if 7 < hbits c.hdr 96 8 then some (infoField 11 12) else none)
  else if op == 8 then
    let i := hbits c.hdr 96 3
    let b := hbits c.hdr 128 32
    let p := hbits c.hdr 160 32
    if cls != 0 || (s.stream i).isOpen || (List.range 8).any (fun j => (s.stream j).isOpen && (s.stream j).queue == c.queue)
    then some (infoField 8)
    else if b < 4096 || 4294963200 < b || b % 4096 != 0 then some (infoField 13 16)
    else if p < 100000 || 4000000000 < p then some (infoField 13 20)
    else if off then some (infoField 4 6)
    else none
  else if op == 9 then
    let x := s.stream (hbits c.hdr 96 3)
    if cls != 0 || !x.isOpen || !x.completed || x.closing || x.queue != c.queue then some (infoField 8) else none
  else if isMaintenance op then s.mediaFields c
  else none

/-- Step 5 of R103: reserved bits, PLEN, flags, LADDR, then the opcode's own rule (the order is the model's). -/
def State.fieldCheck (s : State) (c : Cmd) : Option Nat :=
  let x := c.hdr.toNat
  let op := c.opcode
  let pg := if isMaintenance op then pageMask else 0
  let lad := if hasLaddr op && !(c.isLocal) then laddrMask else 0
  let allowed := (paramMask op).lor (pg.lor lad)
  let bad := x.land (cmdReserved + (span 255 96 - (span 255 96).land allowed))
  if bad != 0 then some (infoField 1 (lowByte bad))
  else if hbits c.hdr 16 16 != 0 then some (infoField 14 2)
  else if (List.range 5).any fun f => tbit x (72 + f) && !(flagAllowed f op) then some (infoField 2 9)
  else if hasLaddr op && c.laddr != 0 && (!c.isLocal || c.laddr % 64 != 0 || (movesData op && 2 ^ 64 < c.laddr + s.dataLen c))
  then some (infoField 15 24)
  else s.ownFields c

/-! ### Step 7 -/

/-- Whether a unit's scheme is in force against a host command (R346, R347). -/
def State.schemeRefuses (s : State) (c : Cmd) : Bool :=
  let sch := s.unitScheme c.unit
  let lvl := s.prot.level
  !c.isLocal && c.namesUnit && 1 ≤ lvl &&
    ((sch == 1 && c.opcode == 1) || (sch == 2 && !((c.opcode == 3 || c.opcode == 7) && c.unit == 15))
      || (sch == 3 && lvl == 2 && c.opcode == 1))

/-- The first LBA of a range that lies in a protected region (R350, R351). -/
def State.protectedLba (s : State) (u lba n : Nat) : Option Nat :=
  let sh := s.objN Obj.UNIT_WP_SHIFT 0 u
  let first := lba / 2 ^ sh
  let last := (lba + n - 1) / 2 ^ sh
  ((List.range (min 1024 (last + 1) - first)).find? fun i =>
    let r := first + i
    tbit (s.objN Obj.UNIT_WP_MAP (r / 64) u) (r % 64)).map fun i => max lba ((first + i) * 2 ^ sh)

/-- The raw path's checks of R355. -/
def State.rawCheck (s : State) (c : Cmd) (armed : Bool) : Option (Nat × Nat) :=
  let p := c.ppa
  let d := ppaDie p
  let pr := s.prot
  let raw := inArea d (ppaPlane p) (ppaBlock p) pr.rawFirst pr.rawCount
  let boot := inArea d (ppaPlane p) (ppaBlock p) pr.bootFirst pr.bootCount
  let prog := c.opcode == 0x23
  if pr.level == 2 then some (0x29, pr.level)
  else if !armed then some (0x28, 3 * 2 ^ 40)
  else if prog && boot then some (0x28, 2 * 2 ^ 40)
  else if (prog && !raw) || (!prog && ((pr.level == 1 && !raw && !boot) || !(s.diePresent d))) then some (0x28, 3 * 2 ^ 40)
  else if pr.bwOpen && (d == 0 || d == 16) then some (0x30, d)
  else none

/-- Step 7 of R103. -/
def State.protectCheck (s : State) (c : Cmd) (armed : Bool) : Option (Nat × Nat) :=
  if s.schemeRefuses c then some (0x29, s.prot.level)
  else if c.opcode == 0x22 || c.opcode == 0x23 then s.rawCheck c armed
  else if isWriter c.opcode then (s.protectedLba c.unit c.lba c.nsect).map fun l => (0x28, l + 1 * 2 ^ 40)
  else none

/-- Step 8 of R103, and RO of R119 for the discards. -/
def State.unitCheck (s : State) (c : Cmd) : Option (Nat × Nat) :=
  let st := s.unitState c.unit
  if (c.opcode == 2 || c.opcode == 4 || c.opcode == 5) && s.unitRO c.unit then some (0x18, c.unit)
  else if c.opcode == 2 && st == 5 then some (0x1A, c.unit)
  else if c.opcode == 2 && st == 4 then some (0x19, c.unit)
  else none

/-- Steps 3 to 9 of R103: the status and INFO of the first check that fails. -/
def State.fileCheck (s : State) (c : Cmd) (armed : Bool) : Option (Nat × Nat) :=
  let op := c.opcode
  let cls := s.queueClass c.queue
  let m := s.modes.current
  let isReq := op == 0xA || op == 0xB
  if !(knownOpcode op) || (isMaintenance op && cls != 3) || (op == 5 && cls == 0) then some (0x11, op)
  else if ((m == .sanitize || s.modes.draining) && !isReq) || (op == 8 && !m.orbit) then some (0x31, 0x80 + 256 * m.num)
  else match s.fieldCheck c with
    | some i => some (0x10, i)
    | none =>
      if (op == 1 || op == 2 || op == 4 || op == 5 || op == 0x28) && s.objN Obj.UNIT_CAPACITY 0 c.unit < c.lba + c.nsect then
        some (0x12, s.objN Obj.UNIT_CAPACITY 0 c.unit % 2 ^ 40)
      else match s.protectCheck c armed with
        | some r => some r
        | none => match s.unitCheck c with
          | some r => some r
          | none =>
            match (if op == 2 && cls == 0 then s.streamOf c.queue else none) with
            | some i =>
              if (s.stream i).admitted < c.nsect * 4096 then
                some (0x33, s.overrunInfo i (if (s.stream i).demoted then 3 else 1))
              else none
            | none => none

/-! ### Streams -/

/-- A STREAM_OPEN planned (R25, R56, R58): admitted into the standby table, or refused, as it is in a mode that runs no orbit table. -/
def State.admitStream (s : State) (st : Nat) : State :=
  match s.cmd? st with
  | none => s
  | some c =>
    let i := hbits c.hdr 96 3
    if !s.modes.current.orbit then s.finish st stModeRefused (0x80 + 256 * s.modes.current.num)
    else
    let cand : PlanStream := { s := i, unit := c.unit, bytes := hbits c.hdr 128 32, period := hbits c.hdr 160 32 }
    match s.plan s.modes.current (s.planStreams ++ [cand]) with
    | .inl 5 => s.finish st stInvalidField (infoField 9)
    | .inl n => s.finish st stBudgetOverrun (i + 16 * (3 + n))
    | .inr p =>
      let s1 := s.updStream i fun _ => { isOpen := true, queue := c.queue, unit := c.unit, bytes := cand.bytes,
                                         period := cand.period, admitted := cand.bytes, order := st }
      let s2 := (s1.setRows p).notePlan
      let tab := if s2.objN Obj.ORBIT_MANUAL == 1 then s2.orbit.standby else some p.table
      ({ s2 with orbit := { s2.orbit with standby := tab, opens := s2.orbit.opens ++ [st] } }).updCmd st fun d =>
        { d with phase := .started }

/-- A STREAM_CLOSE taken: the re-plan without the stream waits in standby (R58, R113). -/
def State.closeStream (s : State) (st : Nat) : State :=
  match s.cmd? st with
  | none => s
  | some c =>
    let i := hbits c.hdr 96 3
    let s1 := s.updStream i fun x => { x with closing := true }
    let s2 := { s1 with orbit := { s1.orbit with closes := s1.orbit.closes ++ [st] } }
    let s3 := s2.replanLater s2.modes.current
    ({ s3 with orbit := { s3.orbit with closes := s2.orbit.closes } }).updCmd st fun d => { d with phase := .started }

/-! ### Filing -/

/-- The arm of a path consumed by a raw command in its filing cycle (R354). -/
def State.takeArm (s : State) (c : Cmd) : State × Bool :=
  if c.opcode == 0x22 || c.opcode == 0x23 then
    let p := match c.path with
      | .lsw p => p
      | .host => 8
    if s.armHolds p then
      ({ s.bump Obj.RMP_USED with prot := { s.prot with arms := s.prot.arms.filter fun a => a.path != p } }, true)
    else (s, false)
  else (s, false)

/-- What follows at once from filing a command that passed its checks: the range lock, the budget charge of a RASTER WRITE
(R59), what a FLUSH covers (R142), PARK restarts (R153), and the opcodes that act at filing. -/
def State.afterFiling (s : State) (c : Cmd) : State :=
  let st := c.stamp
  let s1 := if hasRange c.opcode then
      let s0 := s.updCmd st fun d => { d with locked := true }
      if s.lockBlocked c then s0.bump Obj.ORD_LOCK_WAITS else s0
    else s
  let s2 := match (if c.opcode == 2 && s.queueClass c.queue == 0 then s.streamOf c.queue else none) with
    | some i =>
      let hold := !((s1.heldWrites i).isEmpty) || !(s1.stream i).completed
      if hold then s1.updCmd st fun d => { d with heldB := true }
      else match s1.tryCharge i c with
        | some a => a
        | none => s1.updCmd st fun d => { d with heldB := true }
    | none => s1
  let s2 := if c.opcode == 3 then s2.updCmd st fun d => { d with work := s2.flushWork d } else s2
  let s3 := if s2.needsMedia c then s2.noteRestart else s2
  if c.opcode == 7 then (State.sweepFences s3.cmds.length s3).deliver
  else if c.opcode == 0xA then s3.requestMode .park (some st)
  else if c.opcode == 0xB then s3.requestMode (Mode.ofNum (hbits c.hdr 96 8)) (some st)
  else if c.opcode == 8 then (if s3.activation.isSome then s3 else s3.admitStream st)
  else if c.opcode == 9 then s3.closeStream st
  else s3

/-- A command arrives: steps 1 and 2 of R103 leave it unstamped; then it is stamped, filed and checked (R126). -/
def State.fileBody (s : State) (path : Path) (h : Header) : State :=
  let q := hbits h 48 6
  let cid := hbits h 32 16
  let isLocal := decide (path ≠ .host)
  if s.cmds.any fun c => c.queue == q && c.cid == cid then
    s.refuseUnstamped path q cid stInvalidField (infoField 12 4) true
  else if !(s.queueEnabled q) || s.queueLocal q != isLocal then
    s.refuseUnstamped path q cid stInvalidField (infoField 3 6) false
  else
    let c : Cmd := { hdr := h, path, stamp := s.stampNext, pos := s.pos, time := s.now }
    let a := s.takeArm c
    let s1 := { a.1 with cmds := a.1.cmds ++ [c], stampNext := a.1.stampNext + 1 }
    match s.fileCheck c a.2 with
    | some (status, info) => s1.finish c.stamp status info
    | none => s1.afterFiling c

/-- A command arrives. Filing reaches no operation, read, transfer or register of the fields named here. -/
def State.fileNow (s : State) (path : Path) (h : Header) : State :=
  { s.fileBody path h with
    raster := s.raster
    jobs := s.jobs
    rebuilds := s.rebuilds
    tokens := s.tokens
    blockLocks := s.blockLocks
    pins := s.pins
    ctxs := s.ctxs
    clusters := s.clusters
    activation := s.activation
    nqs := s.nqs
    ce := s.ce
    ports := s.ports
    ints := s.ints
    xfers := s.xfers
    cfg := s.cfg
    fn := s.fn
    frozen := s.frozen
    procs := s.procs
    hostCws := s.hostCws
    origins := s.origins
    nextVer := s.nextVer
    walking := s.walking
    running := s.running
    interimBlocks := s.interimBlocks
    zeroFrom := s.zeroFrom
    stallFrom := s.stallFrom
    lostDies := s.lostDies
    comet := s.comet
    codes := s.codes
    codeErr := s.codeErr
    calLast := s.calLast
    calSnapFrom := s.calSnapFrom
    offers := s.offers }

/-- Whether a command can be filed now: fewer than 8,192 outstanding, and a lock entry free for a range (R79, R129). -/
def State.canFile (s : State) (h : Header) : Bool :=
  s.outstanding < 8192 && (!(hasRange (hbits h 64 8)) || s.countCmds (fun c => c.locked) < 4096)

/-- CMDs that wait in the receive buffer are filed in order while they can be; each returns its beat (R74, R79). -/
def State.fileHeld : Nat → State → State
  | 0, s => s
  | fuel + 1, s =>
    match s.link.held with
    | h :: rest =>
      if s.canFile h && s.link.st == 3 then
        State.fileHeld fuel ((s.setLink fun l => { l with held := rest, owe0 := l.owe0 + 1 }).fileNow .host h)
      else s
    | [] => s

/-- A CMD packet that passed its checks: kept in the receive buffer while it cannot be filed, else filed, and its beat's credit
returned (R74, R79). -/
def State.hostCmd (s : State) (p : Packet) : State :=
  if s.link.held.isEmpty && s.canFile p.hdr then (s.fileNow .host p.hdr).returnCredit 0 p.beats
  else s.setLink fun l => { l with held := l.held ++ [p.hdr] }

/-- A local submission (R123): the envelope, a free slot and lock entry, then the command arrives. -/
def State.localCmd (s : State) (p : Nat) (h : Header) : State :=
  if hbits h 0 4 != 1 || hbits h 4 4 != 0 || 192 < hbits h 16 16 then s.updProc p fun x => { x with lswResult := 2 }
  else if !(s.canFile h) then s.updProc p fun x => { x with lswResult := 1 }
  else (s.updProc p fun x => { x with lswResult := 0, lswSeq := x.lswSeq + 1 }).fileNow (.lsw p) h

/-- A command of a given opcode reaches the queue, from PROT_READY on: as a CMD packet, checked as every inbound packet is
(R89), or by a local submission window (R97, R344). -/
def State.submit (s : State) (opcode : Nat) (via : CmdVia) (hdr : Header) : State :=
  let h : Header := BitVec.ofNat 256 (setBits hdr.toNat 64 8 opcode)
  if !s.prot.ready then s
  else match via with
    | .host payload trailer beats lastBytes vc framing =>
      s.arrive 1 0 none { hdr := h, payload, trailer, beats, lastBytes, vc, framing } State.hostCmd
    | .lsw p => s.localCmd p h

end Sys2Proof.Machine
end

