-- ==== Sys2Proof/Machine/ReadOps.lean ====
section
/-!
DEFINITION. Machine/ReadOps.lean: codeword reads and where their data goes: buckets and hints (R287, R289, R312), READ
resolution, readiness, packets and completion (R132, R301 to R308), the comet (R248 to R251), merges (R168).
-/

namespace Sys2Proof.Machine

open Sys2Proof

/-! ### Places (R312) -/

/-- The block group of an erase block number. -/
def State.blockGroup (s : State) (b : Nat) : Nat := b * 256 / max 1 (s.objN Obj.LEDGER_BLOCKS)

/-- The page type of a PPA, from the page map of its die's profile. -/
def State.pageType (s : State) (p : Nat) : Nat :=
  let nib (o : Nat) : Nat := bits (s.profile (ppaDie p) (o + ppaPage p % 256 / 2) 1) (ppaPage p % 2 * 4) 4
  match ppaClass p with
  | 0 => 0
  | 1 | 2 => nib 512
  | _ => nib 640

/-- The key of a bucket in a die's retry hints. -/
def State.bucketKey (s : State) (p : Nat) : Nat := s.blockGroup (ppaBlock p) * 8 + s.pageType p

/-- The retry entries a ladder runs, in order: the hinted one first, at most H (R288, R289). -/
def State.retryEntries (s : State) (j : Job) : List Nat :=
  let all := List.range (s.profile (ppaDie j.ppa) 128 1)
  let l := match mapGet (s.calDie (ppaDie j.ppa)).hints (s.bucketKey j.ppa) with
    | some h => h :: all.filter fun e => e != h
    | none => all
  l.take j.h

/-! ### Jobs -/

/-- Whether a codeword can be sensed together with another: the same page, under the same levels; a first attempt also the page of the
same number in another plane, where the profile declares multi-plane reads and the levels of both are those of one bucket (R236, R240,
R314). -/
def State.sensesWith (s : State) (j x : Job) : Bool :=
  x.step == j.step && x.hardLeft.head? == j.hardLeft.head? && ppaPage x.ppa == ppaPage j.ppa && ppaDie x.ppa == ppaDie j.ppa
    && (ppaBlk x.ppa == ppaBlk j.ppa || (j.step == 0 && s.dieFlag (ppaDie j.ppa) 0 && ppaPlane x.ppa != ppaPlane j.ppa
      && s.bucketKey x.ppa == s.bucketKey j.ppa && ppaClass x.ppa == ppaClass j.ppa && ppaCode x.ppa == ppaCode j.ppa))

/-- The planes a read covers with one codeword more. -/
def planesWith (js : List Job) (j : Job) : Nat := (distinct ((j :: js).map fun x => ppaPlane x.ppa)).length

/-- The array read of a job joins its die's queue, with an unstarted read that can sense it too where one waits, up to the planes of one
multi-plane operation (R236). -/
def State.queueRead (s : State) (j : Job) : State :=
  let d := ppaDie j.ppa
  let same (o : DieOp) : Bool := o.die == d && !o.started && !o.spec && o.stamp == j.stamp && o.cls == j.cls && (match o.kind with
    | .read js =>
      let xs := s.jobs.filter fun x => js.contains x.id
      !xs.isEmpty && (xs.all fun x => s.sensesWith j x) && planesWith xs j ≤ max 1 (s.profile d 107 1)
    | _ => false)
  if s.ops.any same then
    let upd (l : List DieOp) : List DieOp := l.map fun (o : DieOp) =>
      if same o then (match o.kind with
        | .read js => { o with kind := .read (js ++ [j.id]) }
        | _ => o) else o
    { s with ops := upd s.ops }
  else s.addOp d (.read [j.id]) j.stamp j.cls

/-- A codeword read begun: its block is pinned and its read queued; with its die not PRESENT it goes to rebuild (R132,
R292). RP_CTRL governs it as it stood when the READ's first media read was issued (R311). -/
def State.addJob (s : State) (purpose : Purpose) (ppa unit lba cls stamp : Nat) : State :=
  let there := s.diePresent (ppaDie ppa)
  let rp := match purpose with
    | .read st _ => ((s.cmd? st).map fun c => c.rp).getD (s.objN Obj.RP_CTRL)
    | _ => s.objN Obj.RP_CTRL
  let j : Job := { id := s.nextJob, purpose, ppa, unit, lba, cls, stamp, step := if there then 0 else 100, rp
                   h := s.objN Obj.RETRY_HARD_STEPS, s := s.objN Obj.SOFT_STEPS }
  let s1 := ({ s with nextJob := s.nextJob + 1 }).pin (ppaBlk ppa)
  let s2 := if there then s1.queueRead j else s1
  { s2 with jobs := s2.jobs ++ [j] }

def State.job? (s : State) (id : Nat) : Option Job := s.jobs.find? fun j => j.id == id

def State.updJob (s : State) (id : Nat) (f : Job → Job) : State :=
  { s with jobs := s.jobs.map fun j => if j.id == id then f j else j }

/-- Whether a job's speculative sense is still nobody's: it has not been handed to the ladder (R293). -/
def Job.speculating (j : Job) : Bool := j.spec == .queued || j.spec == .inFlight || j.spec == .held

/-- A job ended: its pin is dropped; reads for it that have not started leave their queue, and a speculative sense is cancelled
(R295). -/
def State.endJob (s : State) (j : Job) : State :=
  let s1 := (s.unpin (ppaBlk j.ppa)).bump Obj.SPEC_DROPPED 0 0 (if j.speculating then 1 else 0)
  { s1 with jobs := s1.jobs.filter fun x => x.id != j.id
            ops := s1.ops.filter fun o => match o.kind with
              | .read js => o.started || js.any fun i => i != j.id
              | _ => true }

/-! ### READ: lost and ready sectors -/

/-- `UNC_FILL` repeated over a sector (R308). -/
def State.uncFill (s : State) : List Byte :=
  let f := leBytes 4 (s.objN Obj.UNC_FILL)
  (List.replicate 1024 f).flatten

/-- A sector of a READ that counts as failed (R106). -/
def Cmd.fail (c : Cmd) (lba granule : Nat) : Cmd :=
  { c with unc := some (match c.unc with
             | some l => min l lba
             | none => lba)
           badGranules := if c.badGranules.contains granule then c.badGranules else c.badGranules ++ [granule] }

/-- A sector that a read found unrecoverable: notice, event, count and PPA (R308). The body's field sizes are the model's
choice where R420 names none. -/
def State.noteLost (s : State) (unit lba ppa step sw order : Nat) (poison : Bool) : State :=
  let s1 := s.unitNotice 0x12 (some unit) [(1, unit), (8, lba), (8, ppa), (1, step), (4, sw), (1, order)]
  let s2 := s1.event 0x18 unit ppa 3
  (s2.bump (if poison then Obj.RP_POISON else Obj.RP_UNCORRECTABLE)).setObjN Obj.UNC_LAST_PPA ppa

/-- Where a READ's sector data waits: a reorder slot, staging, or nowhere. -/
def Cmd.holder (c : Cmd) (ppa sector : Nat) : Holder :=
  if c.ranges.contains sector then .slot (dieCluster (ppaDie ppa))
  else if c.bufs.any fun b => b.1 == 2 ^ 32 + sector then .staged
  else .none

/-- A sector has its bytes: a host READ holds it for its packet, a local READ writes it at LADDR (R303, R306). -/
def State.sectorReady (s : State) (st : Nat) (r : ReadySector) (port : Nat) : State :=
  match s.cmd? st with
  | some c =>
    if c.isEnded || c.aborted then s
    else if c.isLocal then s.mpWriteReq port (c.laddr + 4096 * r.sector) (padTo 4096 r.bytes) (.localRead st)
    else
      let s1 := match r.holder, c.bufs.find? fun b => b.1 == 2 ^ 32 + r.sector with
        | .staged, some b => s.memWrite (s.bufAddr b.2) (padTo 4096 r.bytes)
        | _, _ => s
      s1.updCmd st fun d => { d with ready := d.ready ++ [r] }
  | none => s

/-- Packets of a host READ cut at the 16,384-byte boundaries of OFFSET, in order, as soon as every sector is ready
(R303). -/
def State.cutPackets (s : State) (st : Nat) : Nat → State
  | 0 => s
  | fuel + 1 =>
    match s.cmd? st with
    | some c =>
      let from_ := c.drawn
      let goal := min c.nsect ((from_ / 4 + 1) * 4)
      let secs := (List.range (goal - from_)).map fun i => from_ + i
      let parts := secs.filterMap fun i => (c.ready.find? fun r => r.sector == i).map fun r => padTo 4096 r.bytes
      if c.isEnded || c.aborted || c.isLocal || goal ≤ from_ || parts.length < secs.length then s
      else
        let pkt : OutPkt := .data st c.queue c.cid (4096 * from_) (goal == c.nsect) parts.flatten
        let s1 := (s.setLink fun l => { l with out1 := l.out1 ++ [pkt] }).updCmd st fun d =>
          { d with drawn := goal, ready := d.ready.filter fun r => goal ≤ r.sector }
        s1.cutPackets st fuel
    | none => s

/-- The status and INFO of a READ whose data has all left (R106, R117). -/
def Cmd.readStatus (c : Cmd) : Nat × Nat :=
  match c.unc with
  | some l => (stUncorrectable, l % 2 ^ 40 + min (2 ^ 24 - 1) c.badGranules.length * 2 ^ 40)
  | none => (if c.moved = 0 then stOk else stOkNotice, c.fromBuf)

/-- References and buffers whose data has left: granules and staged sectors that lie before relative sector `n` (R132,
R304). -/
def State.releaseRead (s : State) (c : Cmd) (n : Nat) : State :=
  let per := s.unitSectors c.unit
  let done := c.bufs.filter fun b =>
    if 2 ^ 32 ≤ b.1 then b.1 - 2 ^ 32 < n else (b.1 + 1) * per ≤ c.lba + n || c.nsect ≤ n
  let s1 := s.releaseBufs (s.queueRequester c.queue) (done.map fun b => b.2)
  s1.updCmd c.stamp fun d => { d with bufs := d.bufs.filter fun b => !(done.contains b) }

/-- `n` sectors more of a READ have left, up to relative sector `upTo`: slots and buffers are free again; with the last the
READ completes (R110, R302). -/
def State.dataLeft (s : State) (st upTo n : Nat) : State :=
  match s.cmd? st with
  | none => s
  | some c =>
    let gone := c.ranges.filter fun i => i < upTo
    let s1 := (((s.freeSlots c gone).bump Obj.STAT_HOST_RD_BYTES 0 0 (4096 * n)).releaseRead c upTo).updCmd st fun d =>
      { d with sent := d.sent + n, ranges := d.ranges.filter fun i => upTo ≤ i }
    if c.nsect ≤ c.sent + n then
      let r := c.readStatus
      s1.finish st r.1 r.2
    else s1

/-! ### READ: resolution (R132, R164, R168) -/

/-- What each sector of one granule resolves to. -/
def State.resolveGranule (s : State) (u g : Nat) : List Source :=
  let e := s.mapEntry u g
  let n := s.unitSectors u
  if s.entryBad u g e then List.replicate n .bad
  else match entryState e with
    | 1 => (s.granulePpas (entryLoc e) n).map Source.media
    | 2 => match s.versionOf u g e with
      | some v => (List.range n).map fun i =>
          match v.merge.find? fun m => m.sector == i with
          | some m => m.source
          | none => if v.poison.contains i then .bad else .buffer v.handle
      | none => List.replicate n .bad
    | _ => List.replicate n .zeros

/-- The sectors of a READ with their sources, numbered from the command's first. -/
def State.resolve (s : State) (c : Cmd) : List (Nat × Source) :=
  let n := s.unitSectors c.unit
  let g := s.granules c
  let all := ((List.range (g.2 + 1 - g.1)).map fun k => (s.resolveGranule c.unit (g.1 + k)).zipIdx.map fun x =>
    ((g.1 + k) * n + x.2, x.1)).flatten
  (all.filter fun x => c.lba ≤ x.1 && x.1 < c.lba + c.nsect).map fun x => (x.1 - c.lba, x.2)

/-- Handles a READ needs, one for each granule it reads from a buffer. -/
def State.readHandles (s : State) (c : Cmd) (src : List (Nat × Source)) : List (Nat × Nat) :=
  let n := s.unitSectors c.unit
  src.foldl (fun acc x => match x.2 with
    | .buffer h =>
      let g := (c.lba + x.1) / n
      if acc.any fun b => b.1 == g then acc else acc ++ [(g, h)]
    | _ => acc) []

/-! ### The comet (R248 to R251) -/

/-- The depth of R22 per stream, in bytes, capped by COMET_DEPTH_KIB. -/
def State.cometDepth (s : State) : Nat :=
  let kib := match s.modes.current with
    | .openMode | .record => 1024
    | .review => 65536
    | .offload => 16384
    | _ => 0
  1024 * min kib (s.objN Obj.COMET_DEPTH_KIB)

def State.cometCtrl (s : State) : Nat := s.objN Obj.COMET_CTRL

/-- Everything of one comet stream given up (R251). -/
def State.cometDropStream (s : State) (id : Nat) : State := s.cometDiscard fun h => h.stream == id

/-- A READ meets the comet's table (R248): a stream runs ahead once its hit count reaches TRIGGER, and from then on. -/
def State.cometNote (s : State) (c : Cmd) : State :=
  if !(tbit s.cometCtrl 0) then s
  else
    let fin := c.lba + c.nsect
    let trigger := bits s.cometCtrl 4 4
    match s.comet.find? fun x => x.unit == c.unit && x.next == c.lba with
    | some x =>
      { s with comet := s.comet.map fun y =>
          if y.id == x.id then { y with next := fin, hits := y.hits + 1, lastUse := c.stamp, queue := c.queue
                                        running := y.running || decide (trigger ≤ y.hits + 1) } else y }
    | none =>
      let new : CometStream := { id := c.stamp, unit := c.unit, next := fin, hits := 0, lastUse := c.stamp,
                                 queue := c.queue, ahead := 0 }
      if s.comet.length < 64 then { s with comet := s.comet ++ [new] }
      else match minBy (fun x => x.lastUse) s.comet with
        | some old =>
          let s1 := s.cometDropStream old.id
          { s1 with comet := (s1.comet.filter fun x => x.id != old.id) ++ [new] }
        | none => s

/-- Run-ahead data that a READ's granule claims: its entry agrees (R250). -/
def State.cometMatch (s : State) (u g e : Nat) : Option CometHeld :=
  s.cometHeld.find? fun h => h.unit == u && h.granule == g && h.entry.toNat == e

/-- One media sector of a READ served from claimed run-ahead data: at once when decoded, and counted then as a read of the READ's, else when
its read in flight ends (R250, R252, R305). -/
def State.claimSector (s : State) (c : Cmd) (h : CometHeld) (rel idx : Nat) : State :=
  let s1 := if h.handle.isSome || c.isLocal then s
    else s.updCmd c.stamp fun d => { d with ranges := d.ranges ++ [rel] }
  let s2 := s1.updCmd c.stamp fun d => { d with issued := d.issued ++ [rel] }
  match h.got.find? fun p => p.1 == idx with
  | some p =>
    let hold := if h.handle.isSome || c.isLocal then Holder.none else .slot (dieCluster (ppaDie h.ppa))
    let s3 := ((h.steps.filter fun x => x.1 == idx).foldl (fun a x => a.bump Obj.RP_STEP_COUNT (min 15 x.2)) s2).bump Obj.STAT_READ_CW
    s3.sectorReady c.stamp { sector := rel, bytes := p.2, holder := hold } (dieCluster (ppaDie h.ppa))
  | none =>
    { s2 with jobs := s2.jobs.map fun j => match j.purpose with
        | .comet str u g i =>
          if str == h.stream && u == h.unit && g == h.granule && i == idx then
            { j with purpose := .read c.stamp rel, cls := s.queueClass c.queue, stamp := c.stamp } else j
        | _ => j }

/-- A granule claimed whole: needed sectors go to the READ, the others' slots return, a buffer's reference passes on. -/
def State.claim (s : State) (c : Cmd) (h : CometHeld) (rels : List Nat) : State :=
  let n := s.unitSectors c.unit
  let s1 := rels.foldl (fun a r => a.claimSector c h r ((c.lba + r) % n)) s
  let s2 := match h.handle with
    | some b => ((s1.bufRaise (s.queueRequester c.queue) b).1.releaseBuf 17 b).updCmd c.stamp fun d =>
        { d with bufs := d.bufs ++ [(h.granule, b)] }
    | none =>
      let keep := if c.isLocal then 0 else rels.length
      { s1 with slotsUsed := mapUpd s1.slotsUsed (dieCluster (ppaDie h.ppa)) 0 fun k => k - (h.slots - keep) }
  let gone := (s2.jobs.filter fun j => match j.purpose with
    | .comet str u g _ => str == h.stream && u == h.unit && g == h.granule
    | _ => false).map fun j => j.id
  let s3 := s2.dropJobs gone
  ({ s3 with cometHeld := s3.cometHeld.filter fun x => !(x.unit == h.unit && x.granule == h.granule) }).bump
    Obj.COMET_CLAIMED 0 0 (4096 * rels.length)

/-! ### READ: start and issue -/

/-- One media sector issued: for a host READ with a slot, or staged in a buffer (R302, R304). -/
def State.issueSector (s : State) (c : Cmd) (rel ppa : Nat) : State :=
  let k := dieCluster (ppaDie ppa)
  let go (a : State) : State :=
    (a.updCmd c.stamp fun d => { d with issued := d.issued ++ [rel] }).addJob (.read c.stamp rel) ppa c.unit (c.lba + rel)
      (s.queueClass c.queue) c.stamp
  let waits := s.pools.any fun p => p.2.waits.any fun w => w.user == .stage c.stamp rel
  if c.isLocal then go s
  else if tbit c.rp 0 && !(c.work.any fun w => w.1 == k && w.2.2 == 1) then
    if c.work.any fun w => w.1 == k then
      if mapGetD s.slotsUsed k 0 < 256 then
        go ({ s with slotsUsed := mapUpd s.slotsUsed k 0 fun n => n + 1 }.updCmd c.stamp fun d =>
          { d with ranges := d.ranges ++ [rel], work := d.work.filter fun w => w.1 != k })
      else s
    else if mapGetD s.slotsUsed k 0 < 256 then
      go ({ s with slotsUsed := mapUpd s.slotsUsed k 0 fun n => n + 1 }.updCmd c.stamp fun d =>
        { d with ranges := d.ranges ++ [rel] })
    else s.updCmd c.stamp fun d => { d with work := d.work ++ [(k, s.now, 0)] }
  else if c.bufs.any fun b => b.1 == 2 ^ 32 + rel then (go s).bump Obj.RO_STAGED
  else if waits then s
  else s.bufWait 0 (s.queueRequester c.queue) (.stage c.stamp rel) (s.bufLimit (s.queueRequester c.queue) c.waitBuf)

/-- Every sector of a READ that can be issued, in ascending OFFSET within each cluster, then its packets. -/
def State.issueRead (s : State) (st : Nat) : State :=
  match s.cmd? st with
  | some c =>
    if c.isEnded || c.aborted || c.opcode != 1 || !c.isStarted then s
    else
      let s0 := if c.issued.isEmpty then s.updCmd st fun d => { d with rp := s.objN Obj.RP_CTRL } else s
      let s1 := c.toIssue.foldl (fun a x => match a.cmd? st with
        | some d => a.issueSector d x.1 x.2
        | none => a) s0
      s1.cutPackets st (c.nsect + 1)
  | none => s

/-- A READ starts: its granules are resolved and held (Cmd.holdsPin, until each sector is issued), buffered data
and zeros are ready, run-ahead data is claimed, media sectors are issued; a buffer whose COUNT has no room makes it wait, counted
once (R414); a READ of a privileged unit gives up its range entry (R127, R131, R132). -/
def State.startRead (s : State) (c : Cmd) : State :=
  let n := s.unitSectors c.unit
  let g := s.granules c
  let req := s.queueRequester c.queue
  let src := s.resolve c
  let hs := s.readHandles c src
  let claims := (List.range (g.2 + 1 - g.1)).filterMap fun k =>
    (s.cometMatch c.unit (g.1 + k) (s.mapEntry c.unit (g.1 + k))).bind fun h => h.handle
  if (hs.map (fun h => h.2) ++ claims).any fun h => (s.bufDesc h).count == 255 then
    (if c.counted = 0 then (s.bump Obj.BUF_REF_FULL).updCmd c.stamp fun d => { d with counted := 1 } else s)
  else
    let gs := (List.range (g.2 + 1 - g.1)).map fun k => g.1 + k
    let s1 := gs.foldl (fun a k => a.noteBad c.unit k (a.mapEntry c.unit k)) s
    let s2 := hs.foldl (fun a h => (a.bufRaise req h.2).1) s1
    let bufCount := (src.filter fun x => match x.2 with
      | .buffer _ => true
      | _ => false).length
    let s3 := s2.updCmd c.stamp fun d =>
      { d with phase := .started, sources := src, bufs := hs, fromBuf := bufCount, rp := s.objN Obj.RP_CTRL,
               locked := d.locked && !(s.unitPrivileged c.unit) }
    let s4 := src.foldl (fun a x => match x.2 with
      | .buffer h =>
        a.sectorReady c.stamp { sector := x.1, bytes := a.memRead (a.bufAddr h + 4096 * ((c.lba + x.1) % n)) 4096, holder := .buffer h }
          (a.sharedPort (c.laddr + 4096 * x.1))
      | .zeros =>
        a.sectorReady c.stamp { sector := x.1, bytes := List.replicate 4096 0, holder := .none }
          (a.sharedPort (c.laddr + 4096 * x.1))
      | .bad =>
        (a.updCmd c.stamp fun d => d.fail (c.lba + x.1) ((c.lba + x.1) / n)).sectorReady c.stamp
          { sector := x.1, bytes := a.uncFill, holder := .none } (a.sharedPort (c.laddr + 4096 * x.1))
      | .media _ => a) s3
    let s5 := s4.cometNote c
    let s6 := gs.foldl (fun a k =>
      let rels := (src.filter fun x => (c.lba + x.1) / n == k && (match x.2 with
        | .media _ => true
        | _ => false)).map fun x => x.1
      match (if rels.isEmpty then none else a.cometMatch c.unit k (a.mapEntry c.unit k)) with
      | some h => match a.cmd? c.stamp with
        | some d => a.claim d h rels
        | none => a
      | none => a) s5
    s6.issueRead c.stamp

/-! ### Merges (R168) -/

/-- A missing sector of a version has its prior content: written into the buffer, zeros with the poison flag where it is
lost. -/
def State.mergeSector (s : State) (id sector : Nat) (bytes : List Byte) (poison : Bool) : State :=
  match s.version? id with
  | some v =>
    (s.memWrite (s.bufAddr v.handle + 4096 * sector) (padTo 4096 bytes)).updVersion id fun x =>
      { x with merge := x.merge.filter fun m => m.sector != sector
               poison := if poison then x.poison ++ [sector] else x.poison }
  | none => s

/-! ### What a codeword read gives -/

/-- The outcome of one codeword read: its payload with its decode step (none: rebuilt from the row), or lost, with the
highest step, the syndrome weight and the rebuild source order reached. -/
inductive CwOut where
  | good (payload : List Byte) (step : Option Nat)
  | lost (step sw order : Nat)
  deriving DecidableEq, Repr

/-- A READ's sector produced, poisoned or lost (R299, R308). -/
def State.readGot (s : State) (j : Job) (st rel : Nat) (out : CwOut) : State :=
  match s.cmd? st with
  | none => s
  | some c =>
    if c.isEnded || c.aborted then s
    else
      let n := s.unitSectors c.unit
      let hold := c.holder j.ppa rel
      let port := dieCluster (ppaDie j.ppa)
      let failed (a : State) : State :=
        (a.updCmd st fun d => d.fail (c.lba + rel) ((c.lba + rel) / n)).sectorReady st
          { sector := rel, bytes := a.uncFill, holder := hold } port
      match out with
      | .lost step sw order => failed (s.noteLost c.unit (c.lba + rel) j.ppa step sw order false)
      | .good p step =>
        if metaPoison (payloadMeta p) then
          failed (s.noteLost c.unit (c.lba + rel) j.ppa (step.getD j.top) j.lastSw 0 true)
        else
          let s1 := match step with
            | none => (s.updCmd st fun d => { d with moved := d.moved + 1 }).unitNotice 0x11 (some c.unit)
                [(1, c.unit), (8, c.lba + rel), (8, j.ppa)]
            | some _ => s
          s1.sectorReady st { sector := rel, bytes := payloadUser p, holder := hold } port

/-- A run-ahead codeword decoded; the granule is dropped where one cannot be used (R252). -/
def State.cometGot (s : State) (str u g idx : Nat) (out : CwOut) : State :=
  let mine (h : CometHeld) : Bool := h.stream == str && h.unit == u && h.granule == g
  let step : List (Nat × Nat) := match out with
    | .good _ (some k) => [(idx, k)]
    | _ => []
  let keep : Option (List Byte) := match out with
    | .good p _ => if metaPoison (payloadMeta p) then none else some (payloadUser p)
    | .lost _ _ _ => none
  match keep with
  | some bytes =>
    let s1 := match (s.cometHeld.find? mine).bind fun h => h.handle with
      | some b => s.memWrite (s.bufAddr b + 4096 * idx) bytes
      | none => s
    { s1 with cometHeld := s1.cometHeld.map fun h => if mine h then { h with got := h.got ++ [(idx, bytes)], steps := h.steps ++ step } else h }
  | none =>
    let gone := (s.jobs.filter fun j => match j.purpose with
      | .comet a b c _ => a == str && b == u && c == g
      | _ => false).map fun j => j.id
    (s.dropJobs gone).cometDiscard mine

end Sys2Proof.Machine
end

