-- ==== Sys2Proof/Machine/LadderOps.lean ====
section
/-!
DEFINITION. Machine/LadderOps.lean: what maintenance reads give (R201 to R204, R148), rebuilds from the row (R297 to R300)
and the retry ladder (R287 to R296).
-/

namespace Sys2Proof.Machine

open Sys2Proof

/-! ### Maintenance reads (R201, R204) -/

/-- The key of a granule among those that a command moves. -/
def granuleKey (unit granule : Nat) : Nat := unit * 2 ^ 40 + granule

/-- The granule of a unit whose MEDIA entry covers a PPA, if one does. -/
def State.granuleAt (s : State) (u ppa : Nat) : Option Nat :=
  (s.listedGranules u).find? fun g =>
    let e := s.mapEntry u g
    entryState e == 1 && s.mediaGood u e && (s.granulePpas (entryLoc e) (s.unitSectors u)).contains ppa

/-- A granule that is lost: COPY_LOST, once for the granule, and the first LBA listed (R202, R204). -/
def State.copyLost (s : State) (st unit lba ppa : Nat) : State :=
  if (s.cmd? st).any fun c => c.badGranules.contains (granuleKey unit lba) then s
  else (s.unitNotice 0x21 (some unit) [(1, unit), (8, lba), (8, ppa)] true (some st)).updCmd st fun c =>
    { c with lostLba := some (c.lostLba.getD lba), badGranules := c.badGranules ++ [granuleKey unit lba] }

/-- A granule's move begins: its codewords not yet read are read (R201). -/
def State.beginMove (s : State) (st unit granule entry : Nat) (got : List (Nat × Nat × List Byte)) (weak rebuilt : Bool)
    (forced : Bool) : State :=
  let n := s.unitSectors unit
  let ppas := s.granulePpas (entryLoc entry) n
  let need := (List.range n).filter fun i => !(got.any fun x => x.1 == i)
  let g : Gathered := { unit, granule, entry, need, got, weak, rebuilt }
  let s1 := s.updCmd st fun c => { c with gathered := c.gathered ++ [g], issued := c.issued ++ ppas }
  need.foldl (fun a i =>
    let b := a.addJob (.gather st (granuleKey unit granule) i) (ppas.getD i 0) unit (granule * n + i) 3 st
    if forced then { b with jobs := b.jobs.map fun j => if j.id == a.nextJob then { j with step := 100 } else j } else b) s1

/-- Whether a COPY, FOLD or refresh already moves a granule. -/
def Cmd.moves (c : Cmd) (unit granule : Nat) : Bool := c.gathered.any fun g => g.unit == unit && g.granule == granule

/-- A codeword that a scan read: COPY and its kin begin a granule's move at its first codeword when the map points at it,
else count it as left in place; SCRUB counts it, and with REFRESH moves granules with a weak codeword (R201, R204). A bad entry met
for a granule's first codeword raises MAP_ENTRY_BAD and matches nothing (R164). -/
def State.scanGot (s : State) (j : Job) (st : Nat) (out : CwOut) : State :=
  match s.cmd? st with
  | none => s
  | some c =>
    if c.isEnded || c.aborted then s
    else match out with
      | .lost _ _ _ =>
        let u := (s.ledger (ppaBlk j.ppa)).unit
        let s1 := if c.opcode == 0x24 then s.updCmd st fun d => { d with fromBuf := d.fromBuf + 1 } else s
        match s1.granuleAt u j.ppa with
        | some g =>
          if c.opcode == 0x24 || entryLoc (s1.mapEntry u g) == j.ppa then s1.copyLost st u (g * s1.unitSectors u) j.ppa else s1
        | none => s1
      | .good p step =>
        let m := payloadMeta p
        let u := metaUnit m
        let n := s.unitSectors u
        let g := metaLba m / n
        let i := metaLba m % n
        let e := s.mapEntry u g
        let weak := match step with
          | some k => decide (s.objN Obj.REFRESH_STEP ≤ k)
          | none => true
        let inside := !(metaPadBit m) && metaLba m < s.objN Obj.UNIT_CAPACITY 0 u
        let match_ := inside && entryState e == 1 && s.mediaGood u e && (s.granulePpas (entryLoc e) n).getD i 0 == j.ppa
        if c.opcode == 0x24 then
          let s1 := s.updCmd st fun d => { d with fromBuf := d.fromBuf + 1 }
          let s2 := if inside && c.subop % 2 == 1 && weak && i == 0 then s1.noteBad u g e else s1
          if c.subop % 2 == 1 && weak && match_ && !(c.moves u g) then s2.beginMove st u g e [(i, m, payloadUser p)] true step.isNone false
          else if step.isNone then s2.updCmd st fun d => { d with counted := d.counted + 1 } else s2
        else if metaPadBit m || i != 0 then s
        else if match_ then
          if c.moves u g then s else s.beginMove st u g e [(0, m, payloadUser p)] weak step.isNone false
        else (if inside then s.noteBad u g e else s).updCmd st fun d => { d with left := d.left + 1 }

/-- A codeword of a granule being moved. -/
def Gathered.take (g : Gathered) (idx refresh : Nat) (out : CwOut) : Gathered :=
  match out with
  | .good p step =>
    let weak := match step with
      | some k => decide (refresh ≤ k)
      | none => true
    { g with need := g.need.filter (fun i => i != idx), got := g.got ++ [(idx, payloadMeta p, payloadUser p)],
             weak := g.weak || weak, rebuilt := g.rebuilt || step.isNone }
  | .lost _ _ _ => { g with need := g.need.filter (fun i => i != idx), lost := true }

/-- A codeword of a granule that a command moves. -/
def State.gatherGot (s : State) (st key idx : Nat) (out : CwOut) : State :=
  let refresh := s.objN Obj.REFRESH_STEP
  s.updCmd st fun c =>
    let upd (g : Gathered) : Gathered := if granuleKey g.unit g.granule == key then g.take idx refresh out else g
    { c with gathered := c.gathered.map upd }

/-- A codeword that REPLAY_SCAN read; one that fails to decode is absent (R148). -/
def State.replayGot (s : State) (j : Job) (st : Nat) (out : CwOut) : State :=
  match out with
  | .good p _ => s.updCmd st fun c => { c with found := c.found ++ [(payloadMeta p, j.ppa)] }
  | .lost _ _ _ => s

/-! ### Delivery -/

/-- A page of a RAW_READ or BLANK_CHECK whose die has failed: the command ends with UNCORRECTABLE (R230, R264). -/
def State.pageLost (s : State) (st info : Nat) : State :=
  match s.cmd? st with
  | some c => if c.isEnded || c.aborted then s else ((s.giveBack c).dropTokens st).finish st stUncorrectable info
  | none => s

/-- A codeword read has its outcome: the job ends, and what needed it takes the outcome. -/
def State.deliverCw (s : State) (j : Job) (out : CwOut) : State :=
  let s1 := s.endJob j
  match j.purpose with
  | .read st rel => s1.readGot j st rel out
  | .scan st => s1.scanGot j st out
  | .gather st key idx => s1.gatherGot st key idx out
  | .comet str u g i => s1.cometGot str u g i out
  | .merge v sec =>
    match out with
    | .good p _ => s1.mergeSector v sec (payloadUser p) (metaPoison (payloadMeta p))
    | .lost _ _ _ => s1.mergeSector v sec (List.replicate 4096 0) true
  | .replay st => s1.replayGot j st out
  | .raw st _ => s1.pageLost st (ppaPage j.ppa)
  | .blank st _ => s1.pageLost st 0
  | .member _ _ => s1

/-- The metadata check of R307 for what needs a codeword: READs, rebuilds that serve them, run-ahead and prior content check
unit, LBA and PAD; moves check PAD, and so does a scan where a MEDIA entry covers the place; nothing else is checked. -/
def State.metaOk (s : State) (j : Job) (p : List Byte) : Bool :=
  let m := payloadMeta p
  match j.purpose with
  | .read _ _ | .comet _ _ _ _ | .merge _ _ => metaUnit m == j.unit && metaLba m == j.lba && !(metaPadBit m)
  | .gather _ _ _ => !(metaPadBit m)
  | .scan _ => !(metaPadBit m) || (s.granuleAt (s.ledger (ppaBlk j.ppa)).unit j.ppa).isNone
  | _ => true

/-! ### Rebuild (R297 to R300) -/

/-- Keys of the parity sources that are no member: an accumulator's P and Q, an interim record's header and P. -/
def keyAccP : Nat := 300
def keyAccQ : Nat := 301
def keyIntHeader : Nat := 400
def keyIntP : Nat := 401

/-- The row of a PPA: its program unit in its block set. -/
def State.rowOf (s : State) (p : Nat) : Nat := ppaPage p / max 1 (s.diePpp (ppaDie p) (ppaClass p))

/-- The PPA of the same place on member m of the row (R297). -/
def State.samePlace (s : State) (p sb m : Nat) : Nat := s.placePpa sb m (ppaPlane p) (ppaPlace p)

/-- The PPA of codeword `k` of an interim record (R183): four codewords a page. -/
def interimPpa (first k : Nat) : Nat :=
  ppaOf (ppaDie first) (ppaPlane first) (ppaBlock first) (ppaPage first + k / 4) (k % 4) 0 (ppaCode first)

/-- The key of a place in its program unit, as accumulators number it. -/
def State.placeKey (s : State) (p : Nat) : Nat :=
  let per := s.rowPlaces (ppaDie p) (ppaClass p)
  ppaPlane p * per + ppaPlace p % max 1 per

/-- A data payload of an open row that is still in a buffer (R297, order 2). -/
def State.heldPayload (s : State) (b : OpenSb) (m ppa : Nat) : Option (List Byte) :=
  match b.row with
  | some r =>
    if s.unitBusy b.sb m then
      ((s.unitPlaces b m r.wl).find? fun x => x.2.1 == ppa).map fun x => s.cwPayload x.2.2
    else none
  | none => none

/-- Whether the row of a PPA is the open row of its superblock. -/
def State.openRowOf (s : State) (sb wl : Nat) : Option OpenSb :=
  match s.openSb? sb with
  | some b => match b.row with
    | some r => if r.wl == wl then some b else none
    | none => none
  | none => none

/-- Whether the final parity of a row is on the media: its row is no longer open, or a parity unit of it has good status and the
accumulator has been released (R181, R297). -/
def State.parityThere (s : State) (sb wl : Nat) : Bool :=
  (s.openRowOf sb wl).all fun b => b.row.any fun r => s.parityMoved b r && !r.parityDone.isEmpty

/-- Parity members of an open row whose programs have no status yet. -/
def State.parityLate (s : State) (sb wl : Nat) : List Nat :=
  match (s.openRowOf sb wl).bind fun b => b.row.map fun r => (b.rowParity r).filter fun m => !(r.parityDone.contains m) with
  | some l => l
  | none => []

/-- The rebuild that a job asks for under one source order; none where the source does not exist. -/
def State.planRebuild (s : State) (j : Job) (order : Nat) (raced : Bool) : Option Rebuild :=
  let p := j.ppa
  let sb := (s.ledger (ppaBlk p)).sb
  match memberOf (s.sbDies sb) (ppaDie p) with
  | none => none
  | some m =>
    let wl := s.rowOf p
    let pres := s.rowPresent sb wl
    let pc := stripeParity (s.sbProfile sb)
    let gone := (s.rowErasures sb wl).filter fun x => x != m
    let mk (erased wanted : List Nat) (got : List (Nat × List Byte)) : Rebuild :=
      { id := s.nextJob, job := j.id, order, row := wl, sb, target := m, erased, wanted, got, raced }
    if pc = 0 || !(pres.contains m) then none
    else if order = 1 then
      if !(s.parityThere sb wl) then none
      else some (mk gone (pres.filter fun x => x != m && !(gone.contains x) && !((s.parityLate sb wl).contains x)) [])
    else if order = 2 then
      match s.openRowOf sb wl with
      | some b => match b.row.filter fun r => !(s.parityMoved b r) with
        | some r =>
          let others := r.contributed.filter fun x => x != m
          let dead := others.filter fun x => gone.contains x && (s.heldPayload b x (s.samePlace p sb x)).isNone
          let held := others.filterMap fun x => (s.heldPayload b x (s.samePlace p sb x)).map fun d => (x, d)
          let key := s.placeKey p
          let acc (l : List (Nat × List Byte)) : List Byte := padTo 4112 ((mapGet l key).getD [])
          let par := (keyAccP, acc r.accP) :: (if pc = 2 then [(keyAccQ, acc r.accQ)] else [])
          some (mk dead (others.filter fun x => !(dead.contains x) && !(held.any fun h => h.1 == x)) (held ++ par))
        | none => none
      | none => none
    else if s.sbInterimPpa sb != 0 && tbit (s.sbInterimMask sb) m then
      let ms := (List.range 32).filter fun x => tbit (s.sbInterimMask sb) x && x != m
      some (mk (ms.filter fun x => gone.contains x) (ms.filter (fun x => !(gone.contains x)) ++ [keyIntHeader, keyIntP]) [])
    else none

/-- The PPA a rebuild reads for one of its members or parity sources. -/
def State.rebuildPpa (s : State) (r : Rebuild) (p m : Nat) : Nat :=
  if m = keyIntHeader then interimPpa (s.sbInterimPpa r.sb) 0
  else if m = keyIntP then interimPpa (s.sbInterimPpa r.sb) (1 + s.placeKey p)
  else s.samePlace p r.sb m

/-- The requester and the wait limit of the buffers a rebuild draws: those of the command whose codeword it is; maintenance
under requester 16 (R410, R412). -/
def State.rebuildDraw (s : State) (j : Job) : Nat × Option Nat :=
  let c := j.purpose.owner.bind s.cmd?
  let r := match j.purpose with
    | .read _ _ => (c.map fun x => s.queueRequester x.queue).getD 16
    | .merge v _ => ((s.versions.find? fun x => x.id == v).map fun x => s.queueRequester x.queue).getD 16
    | _ => 16
  (r, c.bind fun x => s.bufLimit r x.waitBuf)

/-- A rebuild begins: it asks pool 0 for a buffer for each of its members (R298, R406). -/
def State.startRebuild (s : State) (j : Job) (r : Rebuild) : State :=
  let d := s.rebuildDraw j
  r.wanted.foldl (fun a m => a.bufWait 0 d.1 (.member r.id m) d.2) { s with rebuilds := s.rebuilds ++ [r], nextJob := s.nextJob + 1 }

/-- A member's buffer granted: the member is read at the rank of the job that its rebuild serves (R291, R298). -/
def State.memberGranted (s : State) (id m h : Nat) : State :=
  match s.rebuilds.find? fun r => r.id == id with
  | none => s.dropBuf h
  | some r =>
    let upd (l : List Rebuild) : List Rebuild := l.map fun (x : Rebuild) => if x.id == id then { x with bufs := x.bufs ++ [h] } else x
    let s1 := { s with rebuilds := upd s.rebuilds }
    match s.job? r.job with
    | some j => s1.addJob (.member id m) (s.rebuildPpa r j.ppa m) 0 0 j.cls j.stamp
    | none => s1

/-- The first source that exists, from an order on (R297). -/
def State.firstRebuild (s : State) (j : Job) (order : Nat) : Option Rebuild :=
  ([1, 2, 3].filter fun o => order ≤ o).findSome? fun o => s.planRebuild j o false

/-- The data members of a rebuild's row or record. -/
def State.rebuildData (s : State) (r : Rebuild) : List Nat :=
  if r.order = 1 then
    let pres := s.rowPresent r.sb r.row
    pres.filter fun m => !((parityMembers (s.sbProfile r.sb) pres r.row).contains m)
  else r.target :: (r.erased ++ r.failed ++ r.wanted ++ r.got.map fun g => g.1).filter fun m => m < 32

/-- The header of an interim record checked: CRC, superblock and wordline (R183, R297). -/
def interimHeaderOk (p : List Byte) (sb wl : Nat) : Bool :=
  leAt p 18 4 == crc32c (p.take 18) && leAt p 0 4 == sb && leAt p 4 2 == wl

/-- The payload a rebuild solves for under R180, when its unknowns do not exceed its parity count. -/
def State.solve (s : State) (r : Rebuild) : Option (List Byte) :=
  let data := distinct (s.rebuildData r)
  let get (m : Nat) : Option (List Byte) := (r.got.find? fun g => g.1 == m).map fun g => g.2
  let par := parityMembers (s.sbProfile r.sb) (s.rowPresent r.sb r.row) r.row
  let p := if r.order = 1 then (par[0]?).bind get else if r.order = 2 then get keyAccP else get keyIntP
  let q := if r.order = 1 then (par[1]?).bind get else if r.order = 2 then get keyAccQ else none
  let have_ := data.filterMap fun m => (get m).map fun d => (m, d)
  let miss := data.filter fun m => (get m).isNone
  let p' := padTo 4112 (parityP have_)
  let q' := padTo 4112 (parityQ have_)
  let headerBad := r.order = 3 && !((get keyIntHeader).any fun h => interimHeaderOk h r.sb r.row)
  if headerBad then none
  else if par[0]? == some r.target && r.order = 1 then (if miss.isEmpty then some p' else
    match miss, q with
    | [x], some qq => some (padTo 4112 (xorBytes p' (recoverOneQ x qq q')))
    | _, _ => none)
  else if par[1]? == some r.target && r.order = 1 then (if miss.isEmpty then some q' else
    match miss, p with
    | [x], some pp => some (padTo 4112 (xorBytes q' (gfScale (gfGen x) (recoverOneP pp p'))))
    | _, _ => none)
  else match miss, p, q with
    | [_], some pp, _ => some (recoverOneP pp p')
    | [x], none, some qq => some (recoverOneQ x qq q')
    | [a, b], some pp, some qq =>
      let x := min a b
      let y := max a b
      let dp := recoverOneP pp p'
      let dq := xorBytes qq q'
      if r.target == x then some (recoverTwoX x y dp dq) else some (recoverTwoY x y dp dq)
    | _, _, _ => none

/-- A rebuild and the reads of its members given up. -/
def State.dropRebuild (s : State) (id : Nat) : State :=
  let gone := (s.jobs.filter fun j => match j.purpose with
    | .member r _ => r == id
    | _ => false).map fun j => j.id
  let s1 := (s.rebuilds.filter fun r => r.id == id).foldl State.freeRebuild (s.dropJobs gone)
  { s1 with rebuilds := s1.rebuilds.filter fun r => r.id != id }

/-- WEAK set on the erase block of a PPA (R194, R299). -/
def State.setWeak (s : State) (p : Nat) : State := s.updLedger (ppaBlk p) fun e => { e with weak := true }

/-- MAP_ENTRY_BAD for a granule whose codeword's ladder and rebuild ended only in metadata failures (R307); a command raises it once
for a granule. -/
def State.noteMismatch (s : State) (j : Job) : State :=
  let once (st u g : Nat) : State :=
    if (s.cmd? st).any fun c => c.found.contains (granuleKey u g, 0) then s
    else (s.event 0x12 u g 3).updCmd st fun c => { c with found := c.found ++ [(granuleKey u g, 0)] }
  match j.purpose with
  | .read st _ | .gather st _ _ => once st j.unit (j.lba / s.unitSectors j.unit)
  | .scan st =>
    let u := (s.ledger (ppaBlk j.ppa)).unit
    match s.granuleAt u j.ppa with
    | some g => once st u g
    | none => s
  | .merge _ _ => s.event 0x12 j.unit (j.lba / s.unitSectors j.unit) 3
  | _ => s

/-- A raced rebuild that gave nothing: the ladder runs alone, with the full rebuild after it (R300). -/
def State.raceOver (s : State) (id : Nat) : State :=
  s.updJob id fun x => { x with raced := none, step := if x.step = 101 then 100 else x.step }

/-- Whether any of the row's final parity came: where none did, it is not on the media (R297). -/
def State.parityCame (s : State) (r : Rebuild) : Bool :=
  (parityMembers (s.sbProfile r.sb) (s.rowPresent r.sb r.row) r.row).any fun m => r.got.any fun g => g.1 == m

/-- A rebuild has everything it can get: its payload is checked and delivered; where the row's final parity is not on the media
the interim record is tried; or the codeword is lost (R297, R299, R307). -/
def State.endRebuild (s : State) (r : Rebuild) : State :=
  match s.job? r.job with
  | none => s.dropRebuild r.id
  | some j =>
    let out := s.solve r
    let s1 := s.dropRebuild r.id
    match out with
    | some p =>
      if s.metaOk j p then
        let s2 := ((s1.setWeak j.ppa).bump Obj.RP_REBUILT).bump Obj.PAR_REBUILT_CW
        let s3 := if r.raced then s2.bump Obj.RACE_REBUILD_WON else s2
        s3.deliverCw j (.good p none)
      else
        let s2 := s1.bump Obj.RP_MISMATCH
        if r.raced then s2.raceOver j.id
        else (if j.mismatchOnly then s2.noteMismatch j else s2).deliverCw j (.lost j.top j.lastSw r.order)
    | none =>
      if r.raced then s1.raceOver j.id
      else match (if s.parityCame r then none else s1.planRebuild j 3 false) with
        | some r3 => if r.order < 2 then s1.startRebuild j r3 else s1.deliverCw j (.lost j.top j.lastSw r.order)
        | none => s1.deliverCw j (.lost j.top j.lastSw r.order)

/-- The READ of a race that failed: counted and reported, once (R300). -/
def State.noteLate (s : State) (j : Job) : State :=
  match j.purpose with
  | .read st _ => match s.cmd? st with
    | some c => if c.raceLate then s
        else ((s.bump Obj.RP_RASTER_LATE).event 0x19 j.unit c.lba 3).updCmd st fun d => { d with raceLate := true }
    | none => s
  | _ => s

/-- A member of a rebuild came, and is held with its block pinned until the rebuild ends (R298); or failed, which ends a race (R300). -/
def State.memberGot (s : State) (id m : Nat) (at_ : BlockAddr) (p : Option (List Byte)) : State :=
  match s.rebuilds.find? fun r => r.id == id with
  | none => s
  | some r =>
    let r1 : Rebuild := match p with
      | some d => { r with got := r.got ++ [(m, d)], pinned := r.pinned ++ [at_] }
      | none => { r with failed := r.failed ++ [m] }
    let s1 := { (if p.isSome then s.pin at_ else s) with rebuilds := s.rebuilds.map fun x => if x.id == id then r1 else x }
    if r1.raced && p.isNone then
      let s2 := s1.dropRebuild id
      match s2.job? r.job with
      | some j => (s2.noteLate j).raceOver j.id
      | none => s2
    else s1

/-- Rebuilds that have all their members, and jobs that go to rebuild, are taken on, as far as they go. -/
def State.pumpRebuilds : Nat → State → State
  | 0, s => s
  | fuel + 1, s =>
    match s.rebuilds.find? fun r => r.wanted.all fun m => r.failed.contains m || r.got.any fun g => g.1 == m with
    | some r => State.pumpRebuilds fuel (s.endRebuild r)
    | none =>
      match s.jobs.find? fun j => j.step == 100 with
      | some j =>
        match j.purpose with
        | .member id m => State.pumpRebuilds fuel ((s.endJob j).memberGot id m (ppaBlk j.ppa) none)
        | .comet _ _ _ _ | .replay _ | .raw _ _ | .blank _ _ => State.pumpRebuilds fuel (s.deliverCw j (.lost j.top j.lastSw 0))
        | _ =>
          match s.firstRebuild j 1 with
          | some r => State.pumpRebuilds fuel ((s.updJob j.id fun x => { x with step := 101 }).startRebuild j r)
          | none =>
            State.pumpRebuilds fuel (s.deliverCw j (.lost j.top j.lastSw 4))
      | none => s

/-! ### The ladder (R287 to R296) -/

/-- The statistics of a read decoded at step 0 under the live generation, its corrected bits where the decode succeeded (R287, R320). -/
def State.sample (s : State) (j : Job) (r : DecodeResult) (ok : Bool) : State :=
  let d := ppaDie j.ppa
  if j.gen != (s.calDie d).gen then s
  else
    let g := s.blockGroup (ppaBlock j.ppa)
    let t := s.pageType j.ppa
    s.updCal d fun c =>
      let upd (b : Bucket) : Bucket := { b with n := b.n + 1, ones := b.ones + r.ones, sw := b.sw + r.syndrome, block := ppaBlock j.ppa,
                                                fixed01 := b.fixed01 + (if ok then r.corrected01 else 0)
                                                fixed10 := b.fixed10 + (if ok then r.corrected10 else 0) }
      if c.stats.any fun b => b.group == g && b.type == t then
        { c with stats := c.stats.map fun b => if b.group == g && b.type == t then upd b else b }
      else { c with stats := c.stats ++ [upd { group := g, type := t, n := 0, ones := 0, sw := 0, block := 0 }] }

/-- Speculative senses queued or in flight on a channel. -/
def State.specCount (s : State) (ch : Nat) : Nat :=
  (s.jobs.filter fun j => dieChannel (ppaDie j.ppa) == ch && (j.spec == .queued || j.spec == .inFlight)).length

/-- Whether a step-0 attempt queues a speculative soft sense (R293). A member of a race has no ladder to hand one to, and queues none
(DEDUCED, log 252). -/
def State.speculates (s : State) (j : Job) (sw : Nat) : Bool :=
  let raced := match j.purpose with
    | .member id _ => s.rebuilds.any fun r => r.id == id && r.raced
    | .comet _ _ _ _ => true
    | _ => false
  tbit j.rp 1 && 1 ≤ j.s && !raced
    && (s.objN Obj.SPEC_SW_THR ≤ sw || (s.ledger (ppaBlk j.ppa)).weak)
    && s.specCount (dieChannel (ppaDie j.ppa)) < s.objN Obj.SPEC_MAX

/-- A codeword that is not decoded: a raw page, or a page of a blank check. -/
def Job.isPage (j : Job) : Bool :=
  match j.purpose with
  | .raw _ _ | .blank _ _ => true
  | _ => false

/-- The soft step of an attempt: 0 for a hard one (R288). -/
def Job.softStep (j : Job) : Nat := if j.step ≤ j.h || 100 ≤ j.step then 0 else j.step - j.h

/-- What a decode attempt of a job's data gives, with the descriptor and the magnitudes of its code (R282, R284). -/
def State.decodeJob (s : State) (j : Job) : DecodeResult :=
  let c := ppaCode j.ppa
  decodeData (s.codeDesc c) (s.objN Obj.LLR_MAG c) j.softStep j.data

/-- All bytes of an attempt have come: a first attempt's syndrome weight is known, and a speculative soft sense may join the die's queue, as
a read start of its read's class (R293). -/
def State.arriveCw (s : State) (j : Job) : State :=
  let s1 := s.updJob j.id fun x => { x with arrived := true }
  if j.step != 0 || j.isPage || !(s.speculates j (s.decodeJob j).syndrome) then s1
  else
    let s2 := s1.addOp (ppaDie j.ppa) (.read [j.id]) j.stamp j.cls
    ({ s2 with ops := s2.ops.map fun (o : DieOp) => if o.id == s1.nextOp then { o with spec := true } else o }.updJob j.id
      fun x => { x with spec := .queued }).bump Obj.SPEC_ISSUED

/-- The step that follows a failed attempt, with the retry entries left; 100 when the ladder is at its end (R288, R290,
R294). -/
def State.nextStep (s : State) (j : Job) : Nat × List Nat :=
  let comet := match j.purpose with
    | .comet _ _ _ _ => true
    | _ => false
  let soft (l : List Nat) : Nat × List Nat :=
    if comet || j.s = 0 then (100, l)
    else if !j.softUsed then (j.h + 1, l)
    else if j.s = 2 then (j.h + 2, l) else (100, l)
  if j.step = 0 then
    let l := s.retryEntries j
    if l.isEmpty then soft l else (1, l)
  else if j.step ≤ j.h then
    let l := j.hardLeft.drop 1
    if l.isEmpty || j.step = j.h then soft l else (j.step + 1, l)
  else if j.step = j.h + 1 then
    if j.spec == .used then
      let l := s.retryEntries j
      if l.isEmpty then (if j.s = 2 then (j.h + 2, l) else (100, l)) else (1, l)
    else if j.s = 2 then (j.h + 2, []) else (100, [])
  else (100, [])

/-- Whether a job is a speculative read of the comet. -/
def Job.isComet (j : Job) : Bool :=
  match j.purpose with
  | .comet _ _ _ _ => true
  | _ => false

/-- The attempt produced the codeword: its step counts, WEAK and the hint are set, a race is cancelled, and it is delivered
(R194, R288, R289, R295, R300). A speculative read leaves WEAK alone (R252): its step is counted when a READ claims it. -/
def State.attemptGood (s : State) (j : Job) (p : List Byte) : State :=
  let soft := decide (j.h < j.step)
  let s1 := if j.isComet then s else (s.bump Obj.RP_STEP_COUNT (min 15 j.step)).bump Obj.STAT_READ_CW
  let s2 := if soft || s.objN Obj.WEAK_STEP ≤ j.step then s1.setWeak j.ppa else s1
  let s3 := match j.hardLeft with
    | e :: _ => if 1 ≤ j.step && !soft && !j.isComet then
        s2.updCal (ppaDie j.ppa) fun c => { c with hints := mapPut c.hints (s2.bucketKey j.ppa) e } else s2
    | [] => s2
  let s4 := match j.raced with
    | some r => s3.dropRebuild r
    | none => s3
  match j.purpose with
  | .member id m => (s4.endJob j).memberGot id m (ppaBlk j.ppa) (some p)
  | _ => s4.deliverCw j (.good p (some j.step))

/-- The retry entry that soft steps will use, after a decode attempt with initial syndrome weight `sw`: a hard retry's entry
is taken when its weight is the lowest so far (R288; of equal weights the first stands, log 27). -/
def Job.noteRetry (j : Job) (sw : Nat) : Option (Nat × Nat) :=
  match j.hardLeft with
  | e :: _ =>
    if j.step = 0 || j.h < j.step then j.bestSw
    else match j.bestSw with
      | some b => if sw < b.1 then some (sw, e) else some b
      | none => some (sw, e)
  | [] => j.bestSw

/-- The speculative sense of a job handed to its ladder (R294): its operation is that of step H + 1 now; data that it holds waits for a soft
decoder. -/
def State.handSpec (s : State) (j : Job) : State :=
  let s1 := s.updJob j.id fun x => if x.spec == .held then { x with spec := .used, data := x.specData, specData := [], arrived := true }
    else { x with spec := .used }
  ({ s1 with ops := s1.ops.map fun (o : DieOp) => if o.spec && o.kind == OpKind.read [j.id] then { o with spec := false } else o }).bump Obj.SPEC_USED

/-- A failed attempt: the next step is sensed, or the codeword goes to rebuild; a failed hard decode takes its speculative sense; a RASTER
READ that fails step 0 races a rebuild (R288, R290, R294, R300). -/
def State.attemptBad (s : State) (j : Job) (r : DecodeResult) : State :=
  let spec := j.speculating
  let racedMember := match j.purpose with
    | .member id _ => s.rebuilds.any fun x => x.id == id && x.raced
    | _ => false
  let nx := if racedMember then (100, []) else if spec then (j.h + 1, []) else s.nextStep j
  let j1 : Job := { j with
    step := if nx.1 = 100 && j.raced.isSome then 101 else nx.1
    hardLeft := nx.2
    softUsed := j.softUsed || nx.1 == j.h + 1
    spec := if spec then j.spec else .none
    data := [], arrived := false, soft := false, top := max j.top j.step
    lastSw := if j.step = 0 then r.syndrome else j.lastSw
    bestSw := j.noteRetry r.syndrome
    mismatchOnly := (j.step = 0 || j.mismatchOnly) && r.satisfied }
  let s1 := s.updJob j.id fun _ => j1
  let s2 := if nx.1 = 100 then s1
    else if !(s1.diePresent (ppaDie j.ppa)) then s1.updJob j.id fun x => { x with step := 100 }
    else if spec then s1.handSpec j1
    else s1.queueRead j1
  match j.purpose with
  | .read _ _ =>
    if j.step = 0 && j.cls = 0 && tbit j.rp 2 && nx.1 != 100 then
      match (s2.planRebuild j1 1 true).or (s2.planRebuild j1 2 true) with
      | some rb => (s2.updJob j.id fun x => { x with raced := some rb.id }).startRebuild j1 rb
      | none => s2
    else s2
  | _ => s2

/-- One decode attempt of a job in flight (R285, R287). -/
def State.attempt (s : State) (j : Job) (r : DecodeResult) : State :=
  let p := padTo 4112 (randomize j.ppa (padTo 4112 r.payload))
  let ok := r.satisfied && s.metaOk j p
  let s1 := if r.satisfied && !ok && !j.isComet then s.bump Obj.RP_MISMATCH else s
  let s2 := if j.step = 0 then s1.sample j r ok else s1
  if ok then s2.attemptGood j p else s2.attemptBad j r

/-! ### Soft decoders (R22, R291) -/

/-- Soft decoders per cluster for host reads (R22); PARK names none, and gets the one of OPEN (DESIGN CHOICE, log 20). -/
def Mode.hostSoft : Mode → Nat
  | .offload => 2
  | .service | .sanitize => 0
  | _ => 1

/-- Whether a codeword is read for the host: a READ, prior content of a WRITE, or a rebuild that serves one (R22, R291). -/
def State.hostRead (s : State) (j : Job) : Bool :=
  let host (p : Purpose) : Bool := match p with
    | .read _ _ | .merge _ _ => true
    | _ => false
  match j.purpose with
  | .member id _ => s.rebuilds.any fun r => r.id == id && s.jobs.any fun x => x.id == r.job && host x.purpose
  | p => host p

/-- The rank of a codeword that waits for a soft decoder: RASTER, PROMPT, BULK and UPKEEP, maintenance; then the oldest stamp (R291). -/
def State.softRank (s : State) (j : Job) : Nat := (if s.hostRead j then min j.cls 2 else 3) * 2 ^ 80 + j.stamp

/-- The codewords of a cluster that hold a soft decoder, for the host or for maintenance. -/
def State.softUse (s : State) (k : Nat) (host : Bool) : Nat :=
  (s.jobs.filter fun j => j.soft && dieCluster (ppaDie j.ppa) == k && s.hostRead j == host).length

/-- The codeword that a free soft decoder of a cluster takes next: of a side that has fewer than its share, else any, on an idle decoder of
the other side (R22, R291). -/
def State.nextSoft (s : State) (k : Nat) : Option Job :=
  let waits := s.jobs.filter fun j => j.arrived && !j.soft && 0 < j.softStep && dieCluster (ppaDie j.ppa) == k
  let share (host : Bool) : Nat := if host then s.modes.current.hostSoft else clusterSoft - s.modes.current.hostSoft
  let own := waits.filter fun j => s.softUse k (s.hostRead j) < share (s.hostRead j)
  if clusterSoft ≤ s.softUse k true + s.softUse k false then none
  else minBy s.softRank (if own.isEmpty then waits else own)

/-- Free soft decoders taken; each is held until its codeword's decode ends (R291). -/
def State.grantSoft (s : State) : State :=
  if s.jobs.all fun j => !j.arrived || j.soft then s
  else (List.range s.build.clusters).foldl (fun a k => (List.range clusterSoft).foldl (fun b _ => match b.nextSoft k with
    | some j => b.updJob j.id fun x => { x with soft := true }
    | none => b) a) s

end Sys2Proof.Machine
end

