-- ==== Sys2Proof/Machine/WriteOps.lean ====
section
/-!
DEFINITION. Machine/WriteOps.lean: how WRITE and RAW_PROGRAM draw buffers, are granted windows, take data and are accepted
(R88, R92, R104, R121, R124, R138 to R140, R146, R168, R413), and DISCARD and FLUSH (R142, R205).
-/

namespace Sys2Proof.Machine

open Sys2Proof

/-! ### Windows and draws -/

/-- The pool a command draws from: its unit's granule pool, or pool 2 for raw pages (R406). -/
def State.drawPool (s : State) (c : Cmd) : Nat := if c.opcode == 2 then s.unitPool c.unit else 2

/-- The buffers that the bytes `off` to `off + len` of a command need: its granules, or its raw pages. -/
def State.windowKeys (s : State) (c : Cmd) (off len : Nat) : List Nat :=
  if c.opcode == 2 then
    let n := s.unitSectors c.unit
    let a := (c.lba + off / 4096) / n
    let b := (c.lba + (off + len - 1) / 4096) / n
    (List.range (b + 1 - a)).map fun k => a + k
  else
    let pb := max 1 (s.die (ppaDie c.ppa)).pageBytes
    let a := off / pb
    let b := min (c.count - 1) ((off + len - 1) / pb)
    (List.range (b + 1 - a)).map fun k => a + k

/-- The length of the window at an offset (R88). -/
def State.windowLen (s : State) (c : Cmd) (off : Nat) : Nat := min (s.objN Obj.XRDY_WINDOW_MAX) (s.dataLen c - off)

/-- A command's request for one buffer, as pools know it. -/
def Cmd.bufUser (c : Cmd) (key : Nat) : BufUser := if c.opcode == 2 then .write c.stamp key else .raw c.stamp key

/-- Whether a buffer is held or asked for already. -/
def State.drawnKey (s : State) (c : Cmd) (key : Nat) : Bool :=
  (c.bufs.any fun b => b.1 == key) || s.pools.any fun p => p.2.waits.any fun w => w.user == c.bufUser key

/-- A unit's write-cache bytes: granule buffers of its WRITEs, asked for, held, or in versions not yet programmed (R121). -/
def State.cacheBytes (s : State) (u : Nat) : Nat :=
  let held := sumOf ((s.cmds.filter fun c => c.opcode == 2 && c.unit == u).map fun c => c.bufs.length)
  let asked := sumOf (s.pools.map fun p => (p.2.waits.filter fun w => match w.user with
    | .write st _ => ((s.cmd? st).map fun c => c.unit) == some u
    | _ => false).length)
  let live := (s.versions.filter fun v => v.unit == u && !v.maint).length
  (held + asked + live) * poolBytes (s.unitPool u)

/-- Windows of a command drawn for and not yet granted, and open. -/
def State.windowsAhead (s : State) (c : Cmd) : Nat :=
  ceilDiv (c.drawn - c.granted) (max 1 (s.objN Obj.XRDY_WINDOW_MAX)) + (s.link.windows.filter fun w => w.stamp == c.stamp).length

/-- Whether the write cache has room for the buffers that a window needs (R121). -/
def State.cacheFits (s : State) (c : Cmd) (need : Nat) : Bool :=
  c.opcode != 2 || s.cacheBytes c.unit + need * poolBytes (s.unitPool c.unit) ≤ s.objN Obj.UNIT_WCACHE_LIMIT 0 c.unit

/-- Buffers drawn window after window, with `fuel` windows at most. -/
def State.drawWindows (s : State) (st : Nat) : Nat → State
  | 0 => s
  | fuel + 1 =>
    match s.cmd? st with
    | some c =>
      let total := s.dataLen c
      let len := s.windowLen c c.drawn
      let need := (s.windowKeys c c.drawn len).filter fun k => !(s.drawnKey c k)
      if c.phase != .started || total ≤ c.drawn || s.objN Obj.XRDY_AHEAD ≤ s.windowsAhead c || !(s.cacheFits c need.length) then s
      else
        let r := s.queueRequester c.queue
        let s1 := need.foldl (fun a k => a.bufWait (s.drawPool c) r (c.bufUser k) (a.bufLimit r c.waitBuf)) s
        (s1.updCmd st fun d => { d with drawn := d.drawn + len }).drawWindows st fuel
    | none => s

/-- Buffers drawn for the next windows of a started WRITE or RAW_PROGRAM, at most XRDY_AHEAD windows ahead (R88, R413). Only
the command, its pool and the pool's descriptors change. -/
def State.drawAhead (s : State) (st fuel : Nat) : State :=
  let t := s.drawWindows st fuel
  { s with cmds := t.cmds, mem := t.mem, pools := t.pools }

/-- Whether every buffer of the next window is held (R88). -/
def State.windowHeld (s : State) (c : Cmd) : Bool :=
  let len := s.windowLen c c.granted
  c.granted < s.dataLen c && c.granted + len ≤ c.drawn && (s.windowKeys c c.granted len).all fun k => c.bufs.any fun b => b.1 == k

/-- Whether grants and fetches of a command are held after a die failure (R196). -/
def State.grantsHeld (s : State) (c : Cmd) : Bool := s.stallFrom.isSome && c.opcode == 2 && s.queueClass c.queue == 0

/-- Steps 7 and 8 repeated before the first XRDY or fetch of a WRITE (R104): the check that fails, if one does. -/
def State.repeatChecks (s : State) (c : Cmd) : Option (Nat × Nat) :=
  if c.opcode != 2 || c.granted != 0 then none else (s.protectCheck c true).or (s.unitCheck c)

/-- The lowest identifier from the counter on that is not open (R88). -/
def nextWindowId (openIds : List Nat) : Nat → Nat → Nat
  | 0, n => n
  | fuel + 1, n => if openIds.contains n then nextWindowId openIds fuel ((n + 1) % 65536) else n

/-- The next window of a command granted: opened, with its XRDY waiting to leave (R88). -/
def State.openWindowFor (s : State) (c : Cmd) : State :=
  let len := s.windowLen c c.granted
  let id := nextWindowId (s.link.windows.map fun w => w.id) 1025 s.link.nextWindow
  let w : Window := { id, stamp := c.stamp, offset := c.granted, len, timeout := s.objN Obj.XRDY_TIMEOUT_NS }
  (s.setLink fun l => { l with windows := l.windows ++ [w], nextWindow := (id + 1) % 65536,
                               out0 := l.out0 ++ [.xrdy c.queue c.cid id c.granted len] }).updCmd c.stamp fun d =>
    { d with granted := d.granted + len }

/-- The next XRDY of a host WRITE or RAW_PROGRAM (R88, R104); over the drain budget only RASTER WRITEs get one (R366). -/
def State.grantWindow (s : State) (st : Nat) : State :=
  match s.cmd? st with
  | none => s
  | some c =>
    let mine := (s.link.windows.filter fun w => w.stamp == st).length
    if c.phase != .started || c.isLocal || !(c.opcode == 2 || c.opcode == 0x23) || !(s.windowHeld c) || s.link.st != 3
      || s.prot.pfail || s.grantsHeld c || (c.opcode == 2 && s.queueClass c.queue != 0 && s.overBudget) || s.objN Obj.XRDY_AHEAD ≤ mine || 1024 ≤ s.link.windows.length then s
    else match s.repeatChecks c with
      | some (status, info) => s.failWrite st status info
      | none => (s.openWindowFor c).drawAhead st 4097

/-- The fetches of a local WRITE or RAW_PROGRAM, one sector a request, as soon as a window's buffers are held (R104,
R124). -/
def State.fetchLocal (s : State) (st : Nat) : Nat → State
  | 0 => s
  | fuel + 1 =>
    match s.cmd? st with
    | none => s
    | some c =>
      if c.phase != .started || !c.isLocal || !(c.opcode == 2 || c.opcode == 0x23) || !(s.windowHeld c) || s.prot.pfail
        || s.grantsHeld c then s
      else match s.repeatChecks c with
        | some (status, info) => s.failWrite st status info
        | none =>
          let len := s.windowLen c c.granted
          let s1 := (List.range (len / 4096)).foldl (fun a i =>
            let addr := c.laddr + c.granted + 4096 * i
            a.mpReadReq (a.sharedPort addr) addr 4096 (.localWrite st)) s
          ((s1.updCmd st fun d => { d with granted := d.granted + len }).drawAhead st 4097).fetchLocal st fuel

/-- A started WRITE or RAW_PROGRAM brought up to date. -/
def State.pumpWrite (s : State) (st : Nat) : State := (s.drawAhead st 4097).fetchLocal st 4097

/-! ### Data -/

/-- One received 4,096-byte range of a command put where it belongs: its granule's buffer, or the raw data (R92, R138). -/
def State.putRange (s : State) (c : Cmd) (i : Nat) (bytes : List Byte) : State :=
  let s1 :=
    if c.opcode == 2 then
      let n := s.unitSectors c.unit
      let l := c.lba + i
      match c.bufs.find? fun b => b.1 == l / n with
      | some b => s.memWrite (s.bufAddr b.2 + 4096 * (l % n)) (padTo 4096 bytes)
      | none => s
    else s.updCmd c.stamp fun d => { d with rawData := overlay d.rawData (4096 * i) (padTo 4096 bytes) }
  s1.updCmd c.stamp fun d => { d with ranges := if d.ranges.contains i then d.ranges else d.ranges ++ [i] }

/-- Whether every range of a command has come and no window of it is open (R92). -/
def State.dataWhole (s : State) (c : Cmd) : Bool :=
  (List.range (s.dataLen c / 4096)).all (fun i => c.ranges.contains i) && !(s.link.windows.any fun w => w.stamp == c.stamp)

/-! ### Acceptance (R138 to R140, R146, R168) -/

/-- The prior content of one missing sector put into a version's buffer, or what still has to come (R168). -/
def State.priorSector (s : State) (h i : Nat) (src : Source) : State × List MergeNeed × List Nat :=
  let goal := s.bufAddr h + 4096 * i
  match src with
  | .buffer b => (s.memWrite goal (s.memRead (s.bufAddr b + 4096 * i) 4096), [], [])
  | .zeros => (s.memWrite goal (List.replicate 4096 0), [], [])
  | .bad => (s.memWrite goal (List.replicate 4096 0), [], [i])
  | .media _ => (s, [{ sector := i, source := src }], [])

/-- A prior buffer used for the length of a copy made in the acceptance cycle: a reference raised and released (R168, R414). -/
def State.priorUsed (r : Nat) (s : State) (b : Nat) : State :=
  let x := s.bufRaise r b
  if x.2 then x.1.releaseBuf r b else x.1

/-- One granule of an accepted writer becomes a BUFFER version: sectors `missing` come from the prior content; the entry, the
descriptor's TAG and the reads of a merge follow (R138, R140, R167, R168, R413). -/
def State.acceptGranule (s : State) (c : Cmd) (g h seq remain : Nat) (missing : List Nat) (maint : Bool) : State :=
  let u := c.unit
  let n := s.unitSectors u
  let e := s.mapEntry u g
  let s0 := s.noteBad u g e
  let src := if missing.isEmpty then [] else s0.resolveGranule u g
  let prior := distinct (missing.filterMap fun i => match src.getD i .zeros with
    | .buffer b => some b
    | _ => none)
  let r := missing.foldl (fun (acc : State × List MergeNeed × List Nat) i =>
    let p := acc.1.priorSector h i (src.getD i .zeros)
    (p.1, acc.2.1 ++ p.2.1, acc.2.2 ++ p.2.2)) (prior.foldl (State.priorUsed (s.queueRequester c.queue)) s0, [], [])
  let under := match s0.versionOf u g e with
    | some v => v.under
    | none => w64 e
  let v : Version :=
    { id := s0.nextVer, unit := u, granule := g, handle := h, stamp := c.stamp
      wseqs := (List.range n).map fun i => (seq + i) % 2 ^ 56
      lbas := (List.range n).map fun i => g * n + i
      merge := r.2.1, poison := r.2.2, atomic := c.atomic, remain0 := remain, raster := s.queueClass c.queue == 0 && !maint
      fua := c.fua, path := c.path, queue := c.queue, cid := c.cid, under, maint }
  let s1 := { r.1 with versions := r.1.versions ++ [v], nextVer := r.1.nextVer + 1 }
  let s2 := (s1.setBufDesc h { s1.bufDesc h with tag := c.stamp % 2 ^ 28 }).mapSet u g (entryBuffer c.stamp h)
  let s3 := s2.supersede u g v.id
  r.2.1.foldl (fun a m => match m.source with
    | .media p => a.addJob (.merge v.id m.sector) p u (g * n + m.sector) 2 c.stamp
    | _ => a) s3

/-- A WRITE accepted (R138 to R140, R146). -/
def State.acceptWrite (s : State) (c : Cmd) : State :=
  let n := s.unitSectors c.unit
  let r := s.granules c
  let gs := (List.range (r.2 + 1 - r.1)).map fun k => r.1 + k
  let total := gs.length * n
  let seq := s.objN Obj.ORD_WRITE_SEQ
  let s1 := (gs.zipIdx).foldl (fun a x =>
    let missing := (List.range n).filter fun i => x.1 * n + i < c.lba || c.lba + c.nsect ≤ x.1 * n + i
    match c.bufs.find? fun b => b.1 == x.1 with
    | some b => a.acceptGranule c x.1 b.2 (seq + n * x.2) (total - 1 - n * x.2) missing false
    | none => a) s
  let s2 := (s1.setObjN Obj.ORD_WRITE_SEQ ((seq + total) % 2 ^ 56)).bump Obj.STAT_HOST_WR_BYTES 0 0 (4096 * c.nsect)
  let ids := (List.range gs.length).map fun k => s.nextVer + k
  let s3 := ({ s2 with hostCws := s2.hostCws + total }).updCmd c.stamp fun d =>
    { d with phase := .accepted, locked := false, bufs := [], work := if d.fua then ids.map fun i => (0, i, 0) else [] }
  if c.fua then s3 else s3.finishOk c

/-- WRITE_ACCEPT's condition (R138, R154). -/
def State.mayAccept (s : State) (c : Cmd) : Bool :=
  c.opcode == 2 && c.phase == .started && s.dataWhole c && !(s.lockBlocked c) && !s.prot.pfail

/-! ### DISCARD and FLUSH -/

/-- The granules that a range covers whole. -/
def State.wholeGranules (s : State) (c : Cmd) : List Nat :=
  let n := s.unitSectors c.unit
  let a := ceilDiv c.lba n
  let b := (c.lba + c.nsect) / n
  (s.listedGranules c.unit).filter fun g => a ≤ g && g < b

/-- Granules that a range covers whole become DISCARDED; one never written stays UNMAPPED (R205). Versions of theirs that are
not yet programmed are superseded (R167). -/
def State.discardWhole (s : State) (c : Cmd) : State :=
  (s.wholeGranules c).foldl (fun a g =>
    let e := a.mapEntry c.unit g
    if entryState e == 0 || entryState e == 3 then a
    else ((a.noteBad c.unit g e).mapSet c.unit g entryDiscarded).supersede c.unit g (a.nextVer + 1)) s

/-- A FLUSH starts; the WRITEs it covers were taken at its arrival (R142). -/
def State.startFlush (s : State) (c : Cmd) : State :=
  (s.updCmd c.stamp fun d => { d with phase := .started }).advance

end Sys2Proof.Machine
end

