-- ==== Sys2Proof/Machine/ProtOps.lean ====
section
/-!
DEFINITION. Machine/ProtOps.lean: the parameter-save pool (R341 to R343), protection records, and the rescue area with its
directory (R363, R364).
-/

namespace Sys2Proof.Machine

open Sys2Proof

/-! ### The pool -/

/-- A record page read back: KIND, SLOT, SEQ and payload, when its MAGIC, VERSION, LENGTH and CRC are right (R341, R342). -/
def parseRecord (p : List Byte) : Option (Nat × Nat × Nat × List Byte) :=
  let n := leAt p 16 4
  if leAt p 0 4 == 0x56535052 && leAt p 4 2 == 1 && n ≤ 16320
      && leAt p 60 4 == crc32c (padTo 60 p ++ padTo n (p.drop 64))
  then some (leAt p 6 1, leAt p 7 1, leAt p 8 8, padTo n (p.drop 64)) else none

/-- The usable system dies (R340, R344). -/
def State.sysDies (s : State) : List Nat :=
  [0, 16].filter fun d => (if d = 0 then s.prot.usable0 else s.prot.usable1) && s.dieState d != 3

/-- SLC-mode pages of a block of a system die. -/
def State.sysPages (s : State) (d : Nat) : Nat := if d = 0 then s.prot.slc0 else s.prot.slc1

/-- The pool's blocks: 1 to 32 of planes 0 and 1 of each usable system die (R338). -/
def State.poolPlaces (s : State) : List BlockAddr :=
  (s.sysDies.map fun d => ((List.range 2).map fun p => (List.range 32).map fun b =>
    ({ die := d, plane := p, block := b + 1 } : BlockAddr)).flatten).flatten

/-- The pool formatted at the first save of a blank one: every block erased once and given its header (R344). -/
def State.formatPool (s : State) : State :=
  if s.prot.poolBlank then
    { s with prot := { s.prot with poolBlank := false, pool := s.poolPlaces.map fun b => { at_ := b, erases := 1, used := 1 } } }
  else s

/-- A pool block whose page joins the log: the least-worn with a free page, else the least-worn that holds no latest record,
erased first. Where every block holds one, the least-worn is erased, and the records it held, copied forward, lie behind its new header
(R343). -/
def State.poolTarget (s : State) (dies : List Nat) : Option PoolBlk :=
  let mine := s.prot.pool.filter fun b => dies.contains b.at_.die
  match minBy (fun b => b.erases) (mine.filter fun b => b.used < s.sysPages b.at_.die) with
  | some b => some { b with used := b.used + 1 }
  | none =>
    let live (b : PoolBlk) : Nat := (s.prot.records.filter fun r => r.homes.contains b.at_).length
    ((minBy (fun b => b.erases) (mine.filter fun b => live b = 0)).or
      (minBy (fun b => b.erases) (mine.filter fun b => live b + 2 ≤ s.sysPages b.at_.die))).map
      fun b => { b with erases := b.erases + 1, used := 2 + live b }

/-- One page appended on one of some dies: the block that took it. -/
def State.appendPage (s : State) (dies : List Nat) : State × Option BlockAddr :=
  match s.poolTarget dies with
  | some b =>
    let put (x : PoolBlk) : PoolBlk := if x.at_ == b.at_ then b else x
    ({ s with prot := { s.prot with pool := s.prot.pool.map put } }, some b.at_)
  | none => (s, none)

/-- A record appended, on each system die for KIND 1 and 3, else once; false when the pool cannot take it (R343, R344). -/
def State.writeRecord (s : State) (kind slot : Nat) (payload : List Byte) : State × Bool :=
  let s0 := s.formatPool
  let dies := s0.sysDies
  let sets := if kind = 1 ∨ kind = 3 then dies.map fun d => [d] else [dies]
  let r := sets.foldl (fun (acc : State × List (Option BlockAddr)) ds =>
    let a := acc.1.appendPage ds
    (a.1, acc.2 ++ [a.2])) (s0, [])
  if dies.isEmpty || r.2.any Option.isNone then (s, false)
  else
    let rest := r.1.prot.records.filter fun x => !(x.kind == kind && x.slot == slot)
    let seq := r.1.prot.poolSeq + 1
    let new : PoolRec := { kind, slot, seq, payload, homes := r.2.filterMap id }
    let s1 := { r.1 with prot := { r.1.prot with poolSeq := seq, records := rest ++ [new] } }
    (s1.bump Obj.PSAVE_COUNT, true)

/-- The latest record of a KIND and SLOT. -/
def State.recordOf (s : State) (kind slot : Nat) : Option PoolRec :=
  s.prot.records.find? fun r => r.kind == kind && r.slot == slot

/-- A protection record of what is in force (R341). -/
def State.writeProtRecord (s : State) (level sanitizing target changes bootFirst bootCount rawFirst rawCount : Nat) : State × Bool :=
  s.writeRecord 1 0 (leBytes 1 level ++ leBytes 1 sanitizing ++ leBytes 1 target ++ leBytes 1 0 ++ leBytes 2 bootFirst
    ++ leBytes 2 bootCount ++ leBytes 2 rawFirst ++ leBytes 2 rawCount ++ leBytes 4 changes)

/-! ### The rescue area -/

/-- The blocks of a rescue set. -/
def RescueSet.blocks (r : RescueSet) : List BlockAddr :=
  ((List.range 8).filter fun p => tbit r.planeMask p).map fun p => { die := r.die, plane := p, block := r.block }

/-- Rescue rows formed as R175 forms groups, with W = 16, over the unspent sets; a set in no full row is not used (R363). -/
def State.formRows (s : State) : List RescueSet :=
  let sets := s.prot.rescue.filter fun r => !r.spent && s.dieState r.die != 3
  let k := s.build.channels / 16
  let on (ch j : Nat) : Option RescueSet := (sortBy (fun a b => a.die ≤ b.die) (sets.filter fun r => dieChannel r.die == ch))[j]?
  let rows := ((List.range 16).map fun j => (List.range k).map fun t =>
    (List.range 16).filterMap fun m => (on (t * 16 + m) j).map fun (r : RescueSet) => ({ r with member := m } : RescueSet)).flatten
  ((rows.filter fun l => l.length = 16).zipIdx.map fun x => x.1.map fun (r : RescueSet) => ({ r with row := x.2 } : RescueSet)).flatten

/-- The payload of a rescue directory (R364). -/
def dirPayload (l : List RescueSet) : List Byte :=
  leBytes 2 l.length ++ leBytes 2 (l.foldl (fun n r => max n (r.row + 1)) 0) ++ leBytes 4 0
    ++ (l.map fun r => leBytes 2 r.die ++ leBytes 2 r.block ++ leBytes 1 r.planeMask ++ leBytes 2 r.row ++ leBytes 1 r.member).flatten

/-- The rescue sets a directory names (R364); `spent` are the dies whose set holds a programmed page. -/
def dirSets (p : List Byte) (spent : List Nat) : List RescueSet :=
  (List.range (leAt p 0 2)).map fun i =>
    let o := 8 + 8 * i
    { die := leAt p o 2, block := leAt p (o + 2) 2, planeMask := leAt p (o + 4) 1, row := leAt p (o + 5) 2,
      member := leAt p (o + 7) 1, spent := spent.contains (leAt p o 2) }

/-- A new directory written whenever the set has changed: the rows of the unspent sets, then the spent sets that replay has
not yet read; it is in force once programmed (R364). -/
def State.syncDirectory (s : State) : State :=
  if !s.running || s.prot.pfail then s
  else
    let new := s.formRows ++ s.prot.rescue.filter fun r => r.spent
    if new == s.prot.rescueDir then s
    else
      let r := s.writeRecord 3 0 (dirPayload new)
      if r.2 then { r.1 with prot := { r.1.prot with rescueDir := new } } else s

/-- Each PRESENT die without an unspent rescue set asks the allocator for one (R192, R363). -/
def State.askRescue (s : State) : State :=
  if !s.running || s.prot.pfail then s
  else
    (s.presentDies.filter fun d => !(s.prot.rescue.any fun r => r.die == d && !r.spent)).foldl
      (fun a d => a.askAlloc { prio := 0, unit := 0, maint := false, die := d }) s

/-- OVER_BUDGET kept; each rise queues DRAIN_OVER_BUDGET (R366). -/
def State.drainWatch (s : State) : State :=
  let o := s.overBudget
  if o == s.prot.overBudget then s
  else
    let s1 := { s with prot := { s.prot with overBudget := o } }
    if o then s1.classNotice 0x60 4 0 [(4, s.drainBudget)] else s1

/-! ### The boot window (R357 to R361) -/

/-- Bytes of the boot window: its blocks' SLC-mode pages, 16,384 bytes each (R357). -/
def State.bootBytes (s : State) : Nat :=
  s.prot.bootCount * (if s.prot.usable0 then s.prot.slc0 else s.prot.slc1) * 16384

/-- Whether a fetch can be served from system die S0 or S1 now: by the boot reader until its channel is enumerated, or as a PRESENT die
of an UP channel (R340). -/
def State.bootDie (s : State) (w : Nat) : Bool :=
  (if w = 0 then s.prot.usable0 else s.prot.usable1)
    && (((s.chan w).st == 0 && !(s.chan w).enumerated) || ((s.chan w).st == 3 && s.diePresent (16 * w)))

/-- Whether its channel is in ENUM, TRAINING or RECOVERING, so that it may serve later (R360). -/
def State.bootLater (s : State) (w : Nat) : Bool :=
  (if w = 0 then s.prot.usable0 else s.prot.usable1) && [1, 2, 4].contains (s.chan w).st

/-- The operation that keeps a system die busy. -/
def State.bootBusy (s : State) (w : Nat) : Option DieOp := s.ops.find? fun o => o.die == 16 * w && o.started && !o.suspended

/-- A fetch ends with 64 bytes, eight to a beat in ascending address (R358, R359). -/
def State.bootEnd (s : State) (bs : List Byte) (fallback : Bool) : State :=
  { s with prot := { s.prot with bwPending := none, bwBeats := (List.range 8).map fun k => w64 (leAt (padTo 64 bs) (8 * k) 8)
                                 bwFallback := fallback } }

/-- A fetch served from a page decoded on system die `w`: the page and those read after it are held, 64 KiB at most (R358). -/
def State.bootServe (s : State) (f : BwFetch) (w : Nat) (page : List Byte) : State :=
  let j := f.addr / 16384
  let next := f.ahead.zipIdx.map fun x => (j + 1 + x.2, w, padTo 16384 x.1)
  let held := (j, w, padTo 16384 page) :: next.filter fun x => x.1 * 16384 < s.bootBytes
  ({ s with prot := { s.prot with bwHeld := held.take 4 } }).bootEnd (page.drop (f.addr % 16384)) (w = 1)

/-- Zeros, an error counted and an event (R359, step 3). -/
def State.bootFail (s : State) (f : BwFetch) : State :=
  ((s.bump Obj.BW_FETCH_ERR).event 0x1A 0 f.addr).bootEnd [] false

/-- Whether a fetch is ignored and counted: one is outstanding, or its address is not a multiple of 64 (R358). -/
def State.fetchBad (s : State) (addr : Nat) : Bool := s.prot.bwPending.isSome || addr % 64 != 0

/-- A fetch taken before PROT_READY waits (R529). -/
def State.holdFetch (s : State) (addr : Nat) (page0 page1 : Option (List Byte)) (ahead : List (List Byte)) : State :=
  if s.fetchBad addr then s.bump Obj.BW_FETCH_ERR
  else { s with prot := { s.prot with bwPending := some { addr, which := 0, since := s.now, page0, page1, ahead } } }

/-- The outstanding fetch goes on once PROT_READY has risen: an address beyond the region reads zeros; one in a page that is held is
served from there; another is served from its die, from the other one where that is not to be had or its page does not decode, or it waits while its die is busy, which is suspended for
it where the profile allows (R359, R360, State.suspendWanted). `n` bounds the dies tried. -/
def State.serveBoot : Nat → State → State
  | 0, s => s
  | n + 1, s =>
    match s.prot.bwPending with
    | none => s
    | some f =>
      if s.prot.pfail || !s.prot.ready then s
      else if s.bootBytes ≤ f.addr then s.bootEnd [] false
      else match s.prot.bwHeld.find? fun x => x.1 == f.addr / 16384 with
      | some x => s.bootEnd (x.2.2.drop (f.addr % 16384)) (x.2.1 == 1)
      | none =>
        let w := if s.bootDie f.which then f.which else 1 - f.which
        let keep (a : State) (g : BwFetch) : State := { a with prot := { a.prot with bwPending := some g } }
        if !(s.bootDie w) then (if s.bootLater 0 || s.bootLater 1 then s else s.bootFail f)
        else
          if (s.bootBusy w).isSome then (if w = f.which then s else keep s { f with which := w, since := s.now })
          else match (if w = 0 then f.page0 else f.page1) with
            | some p => s.bootServe f w p
            | none =>
              let rest := if w = 0 then { f with which := 1, page0 := none } else { f with which := 0, page1 := none }
              let other := if w = 0 then f.page1 else f.page0
              if other.isNone || !(s.bootDie (1 - w) || s.bootLater (1 - w)) then s.bootFail f
              else State.serveBoot n (keep s { rest with since := s.now })

/-! ### The sanitize sequence (R370, R371) -/

/-- What is in force, as a protection record holds it; SANITIZING stays while SAN_INTERRUPTED stands. -/
def State.writeProt (s : State) (level changes : Nat) (boot raw : Nat × Nat) : State × Bool :=
  s.writeProtRecord level (if s.prot.sanInterrupted then 1 else 0) s.prot.sanTarget changes boot.1 boot.2 raw.1 raw.2

/-- The sequence ends with a result and its notice. -/
def State.endSanitize (s : State) (result : Nat) : State :=
  let s1 := { s with prot := { s.prot with sanRunning := false, sanBegun := false, sanResult := result, sanBlocks := [], sanTried := []
                                           sanGood := [], sanFilled := [], sanBad := [] } }
  s1.classNotice 0x61 4 0 [(4, s1.prot.sanOp + result * 256)]

/-- Whether the ledger holds a block FACTORY_BAD; it is read only while the allocator is enabled. -/
def State.factoryBad (s : State) (b : BlockAddr) : Bool :=
  tbit (s.objN Obj.ALLOC_CTRL) 0 && (s.ledger b).state == lsFactoryBad

/-- The blocks a sequence erases (R370). -/
def State.sanSelect (s : State) (op : Nat) : List BlockAddr :=
  let p := s.prot
  let all := (s.presentDies.map fun d => ((List.range (s.die d).planes).map fun pl => (List.range (s.die d).blocks).map fun b =>
    ({ die := d, plane := pl, block := b } : BlockAddr)).flatten).flatten
  let sys (b : BlockAddr) : Bool := b.die == 0 || b.die == 16
  let pool (b : BlockAddr) : Bool := sys b && b.plane < 2 && 1 ≤ b.block && b.block ≤ 32
  let raw (b : BlockAddr) : Bool := sys b && b.plane == 0 && p.rawFirst ≤ b.block && b.block < p.rawFirst + p.rawCount
  all.filter fun b => !(pool b) && !(raw b && op == 1) && !(s.factoryBad b)

/-- A running sequence begins once nothing else runs (R157): its record, the dies it cannot reach, its blocks (R371, steps 1
to 3). -/
def State.beginSanitize (s : State) : State :=
  let p := s.prot
  if !p.sanRunning || p.sanBegun || s.mediaBusy || p.pfail then s
  else
    let s1 := if p.sanOp == 3 || p.sanInterrupted then
        (s.writeProtRecord p.level 1 p.sanTarget p.levelChanges p.bootFirst p.bootCount p.rawFirst p.rawCount).1
      else s
    if p.sanOp == 3 && (List.range s1.build.dies).any fun d => s1.dieState d == 2 || s1.dieState d == 3 then s1.endSanitize 4
    else { s1 with prot := { s1.prot with sanBegun := true, sanBlocks := s1.sanSelect p.sanOp, sanTried := [], sanGood := []
                                          sanFilled := [], sanBad := [] } }

/-- Whether an operation erases for the sanitize sequence, or fills a block for it: command 0, which no command's stamp is. -/
def OpKind.ofSanitize : OpKind → Bool
  | .erase _ c => c == some 0
  | .zeroFill c _ _ => c == 0
  | _ => false

/-- The next erase of a running sequence on one die, whose token it holds: its selected blocks of the lowest block number, together on
their planes. What a die that is no longer PRESENT had left is not cleared (R371, step 3). -/
def State.sanErase (s : State) (d : Nat) : State :=
  let mine := s.prot.sanBlocks.filter fun b => b.die == d
  if !(s.diePresent d) then
    { s with prot := { s.prot with sanBlocks := s.prot.sanBlocks.filter fun b => b.die != d, sanBad := s.prot.sanBad ++ mine } }
  else if s.ops.any (fun o => o.die == d && o.kind.ofSanitize) then s
  else match minBy (fun b => b.block) mine with
    | none => s.dropToken d 0
    | some b => (s.askToken d 0).addOp d (.erase (mine.filter fun x => x.block == b.block) (some 0)) 0 3

/-- The erases of a running sequence, on all dies at once. -/
def State.sanErases (s : State) : State :=
  if !s.prot.sanBegun || s.prot.pfail then s
  else (distinct ((s.prot.sanBlocks.map fun b => b.die) ++ s.tokens.map fun t => t.1)).foldl State.sanErase s

/-- A block of the sequence is done with. -/
def ProtSt.sanOff (p : ProtSt) (b : BlockAddr) : ProtSt :=
  { p with sanBlocks := p.sanBlocks.filter fun x => x != b, sanTried := p.sanTried.filter fun x => x != b }

/-- A block of the sequence has been erased, or its erase failed: it is erased again, and at the second failure every page of it is
filled with zeros in SLC mode, as R209 has it (R371, step 3). -/
def State.sanErased (s : State) (b : BlockAddr) (good : Bool) : State :=
  if good then { s with prot := { s.prot.sanOff b with sanGood := s.prot.sanGood ++ [b] } }
  else if !(s.diePresent b.die) then s
  else if s.prot.sanTried.contains b then s.addOp b.die (.zeroFill 0 b 0) 0 3
  else ({ s with prot := { s.prot with sanTried := s.prot.sanTried ++ [b] } }).addOp b.die (.erase [b] (some 0)) 0 3

/-- A page of a block of the sequence has been filled with zeros: the next follows; a block filled to its last page is cleared, one whose
program fails is not (R209, R371). -/
def State.sanFilled (s : State) (b : BlockAddr) (page : Nat) (good : Bool) : State :=
  if !(s.diePresent b.die) then s
  else if !good then { s with prot := { s.prot.sanOff b with sanBad := s.prot.sanBad ++ [b] } }
  else if page + 1 < s.classPages b.die 0 then s.addOp b.die (.zeroFill 0 b (page + 1)) 0 3
  else { s with prot := { s.prot.sanOff b with sanFilled := s.prot.sanFilled ++ [b] } }

end Sys2Proof.Machine
end

