-- ==== Sys2Proof/Machine/QueueOps.lean ====
section
/-!
DEFINITION. Machine/QueueOps.lean: the operation queues of the dies (R236, R237), what may start and in which rank (R54, R238,
R239), suspends (R242 to R244), and the routines that an operation runs (R240, R246, R247, R393).
-/

namespace Sys2Proof.Machine

open Sys2Proof

def State.op? (s : State) (id : Nat) : Option DieOp := s.ops.find? fun o => o.id == id

def State.updOp (s : State) (id : Nat) (f : DieOp → DieOp) : State :=
  { s with ops := s.ops.map fun o => if o.id == id then f o else o }

def State.dropOp (s : State) (id : Nat) : State := { s with ops := s.ops.filter fun o => o.id != id }

/-- Whether an operation reads. -/
def OpKind.reads : OpKind → Bool
  | .read _ => true
  | _ => false

def OpKind.erases : OpKind → Bool
  | .erase _ _ => true
  | _ => false

/-- Whether an operation programs. -/
def OpKind.programs (k : OpKind) : Bool := !(k.reads || k.erases)

/-- Whether an operation is a program unit of a superblock. -/
def OpKind.unit : OpKind → Bool
  | .program _ _ _ | .parity _ _ _ _ => true
  | _ => false

/-- The started program or erase of a die, suspended or not. -/
def State.arrayOp (s : State) (d : Nat) : Option DieOp := s.ops.find? fun o => o.die == d && o.started && !o.kind.reads

/-- The operation that keeps a die busy: a started one that is not suspended. -/
def State.busyOp (s : State) (d : Nat) : Option DieOp := s.ops.find? fun o => o.die == d && o.started && !o.suspended

/-! ### Slots ahead (R54) -/

/-- The profile of the open streams, whose groups the active table serves. -/
def State.streamProfile (s : State) : Nat := (s.streamUnits.head?.map s.unitStripe).getD 0

/-- The group of a die in the streams' profile. -/
def State.dieGroup (s : State) (d : Nat) : Option Nat :=
  (s.groups s.streamProfile).find? fun g => ((s.groupMembers s.streamProfile g).getD []).contains d

/-- Nanoseconds from now to a die's next slot, ticks taken as if timed; none without a slot (R54). -/
def State.nextSlotNs (s : State) (d : Nat) : Option Nat :=
  match s.orbitTable, s.dieGroup d with
  | some t, some g =>
    ((List.range 257).find? fun k =>
      tbit (t.masks.getD (s.tickIndex t (s.orbit.tick + k) % 256) 0) g).map fun k => s.tickNs t (s.orbit.tick + k) - s.now
  | _, _ => none

/-- Whether the gap rules of R54 let an operation that is no RASTER program start. -/
def State.gapAllows (s : State) (o : DieOp) : Bool :=
  if !s.modes.current.orbit || o.kind.reads then true
  else if o.kind.erases then (s.nextSlotNs o.die).all fun n => s.orbit.tbersNs.getD (s.objN Obj.ORBIT_TBERS_NS) ≤ n
  else o.cls == 0 || !(s.die o.die).slotLate

/-! ### Suspends (R242, R243) -/

/-- Whether a read may suspend an operation; a speculative sense never does (R293). -/
def State.readSuspends (s : State) (r o : DieOp) : Bool :=
  match r.kind with
  | .read _ => if r.spec then false else if o.kind.erases then !s.modes.current.orbit && r.cls ≤ 1 else r.cls == 0
  | _ => false

/-- Whether a read may run while an operation is suspended: it caused the suspend, or it is a RASTER read (R244). -/
def State.readJoins (s : State) (r o : DieOp) : Bool := s.readSuspends r o && (r.cls == 0 || r.since ≤ o.suspendedAt)

/-- The left side of condition 3 of R56 for the active table. -/
def State.slotWaitNs (s : State) : Nat :=
  match s.orbitTable with
  | some t =>
    let d := s.planDie s.streamProfile
    let tx := xferNs ((s.die d).planes * s.diePpp d t.cls * (s.die d).pageBytes) (s.slowestRate s.streamProfile)
    if t.slots = 0 then 0 else ceilDiv 256 t.slots * (t.periodNs / 256) + tx
  | none => 0

/-- The suspended-time limit in force for a die (R243). -/
def State.suspLimit (s : State) (d : Nat) : Nat :=
  let b := s.objN Obj.CH_SUSP_BUDGET_NS 0 (dieChannel d)
  if s.modes.current.orbit then min b (250000 - s.slotWaitNs) else b

/-- Suspended time that the budget counts: in an orbit mode per die, from the latest slot tick of its group until that slot's program has
returned status; else per operation (R243). A suspend for a boot-window fetch counts against no budget (R360). -/
def State.suspSpent (s : State) (o : DieOp) : Nat :=
  let d := s.die o.die
  let orbit := s.modes.current.orbit
  let now := if o.suspended && !o.boot then s.now - (if orbit then max o.suspendedAt d.slotAt else o.suspendedAt) else 0
  if orbit then (if d.slotOpen then d.suspBudget + now else 0) else o.budgetNs + now

/-- Whether a boot-window fetch waits for a die (R360). -/
def State.bootWaits (s : State) (d : Nat) : Bool :=
  s.prot.ready && !s.prot.pfail && s.prot.bwPending.any fun f => 16 * f.which == d && s.bootDie f.which

/-- Whether a suspend of an operation is requested and allowed now: for a read within the budget, or for a boot-window fetch (R242, R243,
R360). From a power failure on, every erase that may be suspended is (R365). -/
def State.suspendWanted (s : State) (o : DieOp) : Bool :=
  let waits := s.ops.filter fun r => r.die == o.die && !r.started && s.readSuspends r o
  let mx := s.profile o.die (if o.kind.erases then 101 else 100) 1
  let lat := s.profile o.die (if o.kind.erases then 96 else 92) 4
  o.started && !o.suspended && s.maySuspend o && ((s.prot.pfail && o.kind.erases)
    || ((s.bootWaits o.die || (!waits.isEmpty && s.objN Obj.CH_SUSP_BUDGET_NS 0 (dieChannel o.die) != 0
        && s.suspSpent o + lat ≤ s.suspLimit o.die))
      && o.suspends < mx && (o.suspends == 0 || o.resumedAt + s.objN Obj.CH_RESUME_MIN_NS 0 (dieChannel o.die) ≤ s.now)))

/-- A suspend is issued: it counts (R243, R245); it is for a boot-window fetch alone where no read asks for it. -/
def State.issueSuspend (s : State) (o : DieOp) : State :=
  let reads := s.ops.any fun r => r.die == o.die && !r.started && s.readSuspends r o
  (s.updOp o.id fun x => { x with suspends := x.suspends + 1, suspendedAt := s.now, sent := false, boot := !reads }).bump
    Obj.CH_SUSPENDS 0 (dieChannel o.die)

/-- A die is suspended; its time runs from the suspend's confirm (R243). -/
def State.suspendOp (s : State) (o : DieOp) : State :=
  s.updOp o.id fun x => { x with suspended := true, suspendedAt := if x.sent then x.suspendedAt else s.now }

/-- A die is resumed: its suspended time has run to the resume's confirm (R243). -/
def State.resumeOp (s : State) (o : DieOp) : State :=
  let r := if o.sent then o.resumedAt else s.now
  let d := r - o.suspendedAt
  let n := if o.boot then 0 else d
  if !o.suspended then s
  else (s.updOp o.id fun x => { x with suspended := false, suspendedNs := x.suspendedNs + d, budgetNs := x.budgetNs + n
                                       resumedAt := r, boot := false }).updDie o.die
    fun i => { i with suspBudget := i.suspBudget + (if o.boot then 0 else r - max o.suspendedAt i.slotAt) }

/-- Whether the budget of a suspended operation is spent (R244). -/
def State.suspOver (s : State) (o : DieOp) : Bool := o.suspended && s.suspLimit o.die ≤ s.suspSpent o

/-! ### Eligibility and rank (R54, R237, R239) -/

/-- Whether what an operation needs is at hand: a rescue unit waits for the merges of its versions, and the parity of a rescue row for
its last data unit (R365), an erase for the pins of
its blocks (R132), an erase by the block itself for the die's token (R155). -/
def State.opReady (s : State) (o : DieOp) : Bool :=
  match o.kind with
  | .rescue row m page cws => (cws.all fun c => (s.version? c.2.1).all fun v => v.merge.isEmpty)
      && !(m == 15 && s.ops.any fun x => match x.kind with
        | .rescue r n p _ => r == row && p == page && n != 15
        | _ => false)
  | .erase bs cmd => (bs.all fun b => !(s.pinned b)) && (cmd.isSome || s.holdsToken o.die 0)
  | _ => true

/-- Whether an operation reads for a REPLAY_SCAN. -/
def State.opReplays (s : State) (o : DieOp) : Bool :=
  match o.kind with
  | .read js => js.any fun i => (s.job? i).any fun j => match j.purpose with
    | .replay _ => true
    | _ => false
  | _ => false

/-- Whether an operation belongs to the drain: rescue programs and the reads of pending merges (R365). -/
def State.opDrains (s : State) (o : DieOp) : Bool :=
  match o.kind with
  | .rescue _ _ _ _ => true
  | .read js => js.any fun i => (s.job? i).any fun j => match j.purpose with
    | .merge _ _ => true
    | _ => false
  | _ => false

/-- Whether a program unit may have its data-in while the previous unit of its die is in its array time: that one runs as CACHE_PROGRAM and
is confirmed (R240). -/
def State.cacheJoins (s : State) (o : DieOp) : Bool :=
  o.kind.unit && s.dieFlag o.die 2 && (match s.ops.filter fun x => x.die == o.die && x.started with
    | [x] => x.kind.unit && x.cache && x.confirmed && !x.suspended && !x.resetting
    | _ => false)

/-- Whether the data-in of another program on a die's CE has begun and its confirm is still to come: no other data transfer uses the CE
meanwhile (R238). -/
def State.ceTaken (s : State) (o : DieOp) : Bool :=
  s.ops.any fun x => x.id != o.id && x.started && x.dataIn && !x.confirmed && dieChannel x.die == dieChannel o.die
    && dieSlot x.die / 2 == dieSlot o.die / 2

/-- Whether an operation that waits may start now; in PARK entry none does, but for a command that restarted it (R33, R153), and
while a global exclusive is at work only its own (R157). -/
def State.opEligible (s : State) (o : DieOp) : Bool :=
  let before := (s.ops.takeWhile fun x => x.id != o.id).filter fun x => x.die == o.die && x.queued && !x.started
  let sus := s.ops.find? fun x => x.die == o.die && x.started && x.suspended
  !o.started && o.queued && !s.parkHolds && (!s.exclusiveAtWork || s.opReplays o || o.kind.ofSanitize) && s.diePresent o.die && (s.die o.die).powered
    && !(s.die o.die).resetting && (s.chan (dieChannel o.die)).st == 3 && !(mapGetD s.clusters (dieCluster o.die) {}).quiescing
    && ((s.busyOp o.die).isNone || s.cacheJoins o) && (!s.prot.pfail || (s.opDrains o && !s.prot.pfailDone))
    && (o.kind.reads || !(before.any fun x => x.kind.programs)) && !(o.kind.programs && s.ceTaken o)
    && (match sus with
        | some x => s.prot.pfail || (o.kind.reads && s.readJoins o x && !(s.suspOver x))
        | none => true)
    && s.gapAllows o && s.opReady o

/-- The order of read classes within a rank: RASTER, PROMPT, BULK and UPKEEP, comet (R239). -/
def readTier (cls : Nat) : Nat := if cls ≤ 1 then cls else if cls ≤ 3 then 2 else 3

/-- The arrival stamp an operation ranks with: a comet read with that of its stream's latest READ (R239). -/
def State.opStamp (s : State) (o : DieOp) : Nat :=
  match o.kind with
  | .read js => match js.head?.bind s.job? with
    | some j => match j.purpose with
      | .comet st _ _ _ => ((s.comet.find? fun x => x.id == st).map fun x => x.lastUse).getD o.stamp
      | _ => o.stamp
    | none => o.stamp
  | _ => o.stamp

/-- Whether the next transaction of an operation has waited CH_AGE_NS since it became eligible (R239). -/
def State.opAged (s : State) (o : DieOp) : Bool :=
  o.elig.any fun t => t + s.objN Obj.CH_AGE_NS 0 (dieChannel o.die) ≤ s.now

/-- The rank of an operation's start (R239): a lower number first; within a rank, the oldest stamp. -/
def State.opRank (s : State) (o : DieOp) : Nat :=
  let aged := s.opAged o
  let r := if s.prot.pfail then 5
    else match o.kind with
      | .read _ => 8 + readTier o.cls
      | .erase _ _ => if aged then 6 else 20
      | _ => if o.due then 14 else if aged then 6 else 16
  r * 2 ^ 80 + s.opStamp o

/-- The weights of PROMPT, BULK and UPKEEP in dispatch (R22); PARK and SANITIZE name none. -/
def Mode.weights : Mode → List Nat
  | .openMode => [8, 4, 2]
  | .record | .review => [8, 2, 1]
  | .recordBurst => [8, 2, 0]
  | .offload => [4, 8, 1]
  | .service => [1, 1, 8]
  | .park | .sanitize => [1, 1, 1]

/-- Whether an operation's class is weighted: RASTER is not, and the comet has no weight (R22). -/
def DieOp.weighted (o : DieOp) : Bool := 1 ≤ o.cls && o.cls ≤ 3

/-- Whether a RAW_READ, RAW_PROGRAM or PARITY_REBUILD asked for an operation: in RECORD-BURST these are dispatched as in RECORD (R23). -/
def State.opOfRaw (s : State) (o : DieOp) : Bool :=
  s.cmds.any fun c => [0x22, 0x23, 0x2B].contains c.opcode && (c.stamp == o.stamp || o.kind.ofStamp c.stamp)

/-- The weight of an operation's class in the mode. -/
def State.opWeight (s : State) (o : DieOp) : Nat :=
  (if s.modes.current == .recordBurst && s.opOfRaw o then Mode.record.weights else s.modes.current.weights).getD (o.cls - 1) 0

/-- Whether an operation's class may be dispatched still in this round of weights on its channel: a round gives each class as many
dispatches as its weight (R22; the rounds: DESIGN CHOICE, log 20). -/
def State.hasCredit (s : State) (o : DieOp) : Bool :=
  !o.weighted || ((s.chan (dieChannel o.die)).served.getD (o.cls - 1) 0 < s.opWeight o)

/-- What a channel's sequencer may start: the classes that have dispatches left in the round; where no class that waits has, all that have a
weight; else whatever waits. -/
def State.openOps (s : State) (ch : Nat) : List DieOp :=
  let l := s.ops.filter fun o => dieChannel o.die == ch && s.opEligible o
  let a := l.filter s.hasCredit
  let b := l.filter fun o => !o.weighted || 0 < s.opWeight o
  if !a.isEmpty then a else if !b.isEmpty then b else l

/-- The operation that a channel's sequencer starts next (R22, R239). -/
def State.bestOp (s : State) (ch : Nat) : Option DieOp := minBy s.opRank (s.openOps ch)

/-- A dispatch counted in its round; one without a dispatch left begins the next round. -/
def State.noteTurn (s : State) (o : DieOp) : State :=
  if !o.weighted then s
  else
    let fresh := s.hasCredit o
    s.updChan (dieChannel o.die) fun c =>
      let l := if fresh then c.served else [0, 0, 0]
      { c with served := l.set (o.cls - 1) (l.getD (o.cls - 1) 0 + 1) }

/-! ### Places and routines (R385, R393) -/

/-- The codeword reads of an operation. -/
def State.readJobs (s : State) (o : DieOp) : List Job :=
  match o.kind with
  | .read js => js.filterMap s.job?
  | _ => []

/-- The codeword that a read's routine is about, else its first. -/
def State.focusJob (s : State) (o : DieOp) : Option Job := (o.focus.bind s.job?).or (s.readJobs o).head?

/-- The plane, block and page an operation, or the routine of a read, starts at. -/
def State.opPlace (s : State) (o : DieOp) : Nat × Nat × Nat :=
  match o.kind with
  | .read _ => match s.focusJob o with
    | some j => (ppaPlane j.ppa, ppaBlock j.ppa, ppaPage j.ppa)
    | none => (0, 0, 0)
  | .program sb wl m | .parity sb wl m _ => (0, s.sbBlock sb m 0, wl * s.diePpp o.die (s.sbClass sb))
  | .interim sb _ _ => match (s.openSb? sb).bind fun b => s.interimOf o.die (s.interimPages b) with
    | some x => (x.1.plane, x.1.block, x.2)
    | none => (0, 0, 0)
  | .erase bs _ => match bs with
    | b :: _ => (b.plane, b.block, 0)
    | [] => (0, 0, 0)
  | .rawProgram st => match s.cmd? st with
    | some c => (ppaPlane c.ppa, ppaBlock c.ppa, ppaPage c.ppa + c.sent)
    | none => (0, 0, 0)
  | .zeroFill _ b page => (b.plane, b.block, page)
  | .rescue row m page _ => match s.prot.rescueDir.find? fun r => r.row == row && r.member == m with
    | some r => (0, r.block, page)
    | none => (0, 0, 0)

/-- The row address of R385. -/
def State.rowAddr (s : State) (d plane block page : Nat) : Nat :=
  d % 2 * 2 ^ s.profile d 134 1 + (block * 2 ^ s.profile d 133 1 + plane) * 2 ^ s.profile d 132 1 + page

/-- A routine to dispatch (R393): its kind, OP_ARG1, OP_ARG2 and, for a read, the codeword it is about. -/
structure Routine where
  kind : Nat
  a1 : Nat := 0
  a2 : Nat := 0
  job : Option Nat := none
  deriving DecidableEq, Repr

/-- Whether a continuous read is to end at the next page boundary although its run is not complete: a RASTER read of another page, a
boot-window fetch or a slot-due program unit waits for the die, or the run has held it for CH_AGE_NS while another entry waits
(R247). -/
def State.runStops (s : State) (o : DieOp) : Bool :=
  let others := s.ops.filter fun x => x.die == o.die && x.queued && !x.started
  s.bootWaits o.die || (others.any fun x => x.kind.reads && x.cls == 0 || x.due)
    || (!others.isEmpty && o.began + s.objN Obj.CH_AGE_NS 0 (dieChannel o.die) ≤ s.now)

/-- The levels of the die's generation in force, or a retry entry, applied ahead of the sense of a codeword (R314, R288). -/
def State.applyRoutine (s : State) (j : Job) : Routine :=
  let t := s.pageType j.ppa
  if j.step = 0 || j.h < j.step then { kind := 21, a1 := t, job := some j.id } else { kind := 22, a1 := t, a2 := j.hardLeft.headD 0, job := some j.id }

/-- The data-outs of one codeword length that a read makes of a job: as many as a page holds where it is not decoded; else one, and one more
for each confidence bit of a soft sense (R240, R286). -/
def State.dataOuts (s : State) (o : DieOp) (j : Job) : Nat :=
  if j.isPage then ceilDiv (s.die o.die).pageBytes (s.codeStored (ppaCode j.ppa)) else if o.spec then 2 else 1 + j.softStep

/-- The next routine of a read: levels, the sense of a page, then one codeword after another; in a continuous read the sense of the next
page comes first, and 0x3F ends the run (R240, R246, R247, R288, R314). -/
def State.readRoutine (s : State) (o : DieOp) : Option Routine :=
  let jobs := s.readJobs o
  let ready (j : Job) : Bool := o.applied == some (s.calDie o.die).gen || 0 < j.step
  let applied (j : Job) : Bool := o.applied.isSome && ready j
  let pages (l : List Job) : Nat := (distinct (l.map fun j => ppaPage j.ppa)).length
  let outs (j : Job) : Nat := (o.outs.filter fun i => i == j.id).length
  match jobs.find? fun j => o.cached == some (ppaPage j.ppa) && outs j < s.dataOuts o j with
  | some j => some { kind := 10, a1 := if j.isPage then outs j else ppaCw j.ppa, a2 := ppaPlane j.ppa, job := some j.id }
  | none => match o.sensing with
    | none => jobs.head?.map fun j =>
        if !(applied j) then s.applyRoutine j
        else if o.cont then { kind := 11, a1 := pages jobs - 1, job := some j.id }
        else if o.spec || j.h < j.step then
          { kind := if o.spec || j.step = j.h + 1 then 23 else 24, a1 := s.pageType j.ppa, job := some j.id }
        else { kind := 9, a1 := sumOf ((distinct (jobs.map fun x => ppaPlane x.ppa)).map fun p => 2 ^ p), a2 := ppaClass j.ppa, job := some j.id }
    | some k =>
      if !o.cont || o.ended then none
      else match jobs.find? fun j => ppaPage j.ppa == k + 1 with
        | some j =>
          if s.runStops o then some { kind := 13 }
          else if !(applied j) then some (s.applyRoutine j)
          else some { kind := 12, a1 := pages (jobs.filter fun x => k + 1 < ppaPage x.ppa), job := some j.id }
        | none => some { kind := 13 }

/-- Whether another program unit waits right behind one on its die, so that it can be transferred during this one's array time. -/
def State.unitFollows (s : State) (o : DieOp) : Bool :=
  match ((s.ops.dropWhile fun x => x.id != o.id).drop 1).find? fun x => x.die == o.die && x.queued && !x.kind.reads with
  | some x => x.kind.unit && !x.started
  | none => false

/-- The next routine of an operation: a read has several; a program or an erase is one. A program unit is a CACHE_PROGRAM where the
profile declares it and another unit follows (R240). -/
def State.routineOf (s : State) (o : DieOp) : Option Routine :=
  match o.kind with
  | .read _ => s.readRoutine o
  | .erase bs _ =>
    if o.routine = 0 then
      some { kind := 16, a1 := sumOf (bs.map fun b => 2 ^ b.plane), a2 := (bs.head?.map fun b => (s.ledger b).cls).getD 0 }
    else none
  | .program sb _ _ | .parity sb _ _ _ =>
    if o.routine = 0 then
      some { kind := if s.dieFlag o.die 2 && s.unitFollows o then 15 else 14, a1 := s.rowPlaces o.die (s.sbClass sb), a2 := s.sbClass sb }
    else none
  | _ => if o.routine = 0 then some { kind := 14, a1 := 4 } else none

/-- An operation after one of its routines has been dispatched; `page` is the page of the codeword it is about. A page sensed or moved
leaves only once the routine has committed PAGE_LOADED (R386). -/
def DieOp.ran (o : DieOp) (r : Routine) (gen page : Nat) : DieOp :=
  let o1 : DieOp := { o with focus := r.job.or o.focus }
  match r.kind with
  | 10 => { o1 with outs := o.outs ++ r.job.toList }
  | 21 | 22 => { o1 with applied := some gen }
  | 9 | 23 | 24 => { o1 with sensing := some page, cached := none, loading := some page, applied := none }
  | 11 => { o1 with sensing := some page, applied := none }
  | 12 => { o1 with loading := o.sensing, sensing := some page, applied := none }
  | 13 => { o1 with loading := o.sensing, ended := true }
  | 15 => { o1 with routine := o.routine + 1, cache := true }
  | _ => { o1 with routine := o.routine + 1 }

/-! ### The queues brought up to date -/

/-- Whether the next transaction of an operation may start now: the operation, or the next routine of a started one; from a power failure
on, only the drain's (R365). -/
def State.mayGo (s : State) (o : DieOp) : Bool :=
  let idle := (s.ctxOf o.die).all fun c => c.run == 0 || c.run == 4
  idle && (if o.started then !o.suspended && !o.resetting && (!s.prot.pfail || s.opDrains o)
      && (s.routineOf o).any fun r => r.kind != 10 || !(s.ceTaken o)
    else s.opEligible o)

/-- The operation of the dispatch stage that joins its die's queue next: by arrival stamp, programs and erases in the order of
placement (R236, R237). -/
def State.nextWaiting (s : State) : Option DieOp :=
  let late (o : DieOp) : Bool := (s.ops.takeWhile fun x => x.id != o.id).any fun x => x.die == o.die && !x.queued && x.kind.programs
  minBy s.opStamp (s.ops.filter fun o => !o.queued && s.queueLen o.die < 48 && (o.kind.reads || !(late o)))

/-- Waiting operations join queues that have room. -/
def State.admitOps : Nat → State → State
  | 0, s => s
  | n + 1, s => match s.nextWaiting with
    | some o => State.admitOps n (s.updOp o.id fun x => { x with queued := true, since := s.now })
    | none => s

/-- Whether a started read has nothing left to do: no codeword of it is wanted any more, or a power failure stops it, and its context is
idle. -/
def State.readSpent (s : State) (o : DieOp) : Bool :=
  o.started && o.kind.reads && !o.resetting
    && (((s.readJobs o).isEmpty && (s.routineOf o).isNone) || (s.prot.pfail && !(s.opDrains o)))
    && (s.ctxOf o.die).all fun c => c.op != some o.id

/-- The queues brought up to date: reads with nothing left go, waiting operations join, and what may start now is marked. -/
def State.tidyOps (s : State) : State :=
  let s1 := { s with ops := s.ops.filter fun o => !(s.readSpent o) }
  let s2 := if s1.ops.all fun o => o.queued then s1 else State.admitOps s1.ops.length s1
  { s with ops := s2.ops.map fun (o : DieOp) => { o with elig := if s2.mayGo o then some (o.elig.getD s.now) else none } }

/-- Whether a die is free for work of the block's own, and its queue has room for the entry: idle, powered, on an UP channel (R54, R62,
R236). -/
def State.dieFree (s : State) (d : Nat) : Bool :=
  s.diePresent d && (s.die d).powered && !(s.die d).resetting && (s.chan (dieChannel d)).st == 3 && !s.prot.pfail && !s.parkHolds
    && s.queueLen d < 48 && !(s.ops.any fun o => o.die == d && o.started)

end Sys2Proof.Machine
end

