-- ==== Sys2Proof/Machine/MaintOps.lean ====
section
/-!
DEFINITION. Machine/MaintOps.lean: maintenance commands at work: die tokens and block locks (R155, R156), moves (R200 to
R208), erases (R194, R209 to R212), raw pages (R356), blank checks (R369), replay (R148, R149, R179), and what brings all
waiting work up to date.
-/

namespace Sys2Proof.Machine

open Sys2Proof

/-! ### Moves (R201) -/

/-- The LBA and source PPA that a lost granule is listed with. -/
def State.listLost (s : State) (st : Nat) (g : Gathered) : State :=
  s.copyLost st g.unit (g.granule * s.unitSectors g.unit) (entryLoc g.entry)

/-- A granule dropped from those a command moves. -/
def State.dropGathered (s : State) (st : Nat) (g : Gathered) : State :=
  s.updCmd st fun c => { c with gathered := c.gathered.filter fun x => !(x.unit == g.unit && x.granule == g.granule) }

/-- Granules whose codewords have all been read ask for a staging buffer under the GC quota; lost ones are listed (R201,
R202). -/
def State.stageMoves (s : State) (st : Nat) : State :=
  match s.cmd? st with
  | none => s
  | some c =>
    c.gathered.foldl (fun a g =>
      if !g.need.isEmpty || g.staging then a
      else if g.lost then (a.listLost st g).dropGathered st g
      else
        let mark (x : Gathered) : Gathered :=
          if x.unit == g.unit && x.granule == g.granule then { x with staging := true } else x
        (a.updCmd st fun d => { d with gathered := d.gathered.map mark }).bufWait (a.unitPool g.unit) 16
          (.move st (granuleKey g.unit g.granule)) (a.bufLimit 16 c.waitBuf)) s

/-- The version that moves a granule from its source: its codewords keep their metadata, its entry changes only where it
still holds the source location (R166, R171). -/
def State.moveVersion (s : State) (c : Cmd) (g : Gathered) (h : Nat) : State :=
  let n := s.unitSectors g.unit
  let at_ (i : Nat) : Nat × List Byte := ((g.got.find? fun x => x.1 == i).map fun x => x.2).getD (0, [])
  let metas := (List.range n).map fun i => (at_ i).1
  let bytes := ((List.range n).map fun i => padTo 4096 (at_ i).2).flatten
  let v : Version :=
    { id := s.nextVer, unit := g.unit, granule := g.granule, handle := h, stamp := c.stamp
      wseqs := metas.map metaWseq, lbas := (List.range n).map fun i => g.granule * n + i
      moveFrom := some (w64 g.entry), moveCmd := some c.stamp
      tclass := if c.opcode == 0x20 || c.opcode == 0x26 then c.tclass else 255
      fold := c.opcode == 0x26, maint := true, metas }
  let s1 := (s.memWrite (s.bufAddr h) bytes).dropGathered c.stamp g
  { s1.updCmd c.stamp (fun d => { d with counted := d.counted + (if g.rebuilt then 1 else 0) }) with
    versions := s1.versions ++ [v], nextVer := s1.nextVer + 1 }

/-- A partly covered granule of a SECURE_DISCARD rewritten: a merge under R168 whose covered sectors are zeros (R206). -/
def State.zeroVersion (s : State) (c : Cmd) (g : Gathered) (h : Nat) : State :=
  let n := s.unitSectors g.unit
  let seq := s.objN Obj.ORD_WRITE_SEQ
  let s1 := (s.memWrite (s.bufAddr h) (List.replicate (4096 * n) 0)).dropGathered c.stamp g
  (s1.acceptGranule c g.granule h seq 0 ((List.range n).filter fun i => !(g.zero.contains i)) true).setObjN
    Obj.ORD_WRITE_SEQ ((seq + n) % 2 ^ 56)

/-- A staging buffer granted for a granule. -/
def State.moveGranted (s : State) (st key h : Nat) : State :=
  match s.cmd? st with
  | none => s.dropBuf h
  | some c =>
    match (if c.over then none else c.gathered.find? fun g => granuleKey g.unit g.granule == key) with
    | some g => if g.zero.isEmpty then s.moveVersion c g h else s.zeroVersion c g h
    | none => s.dropBuf h

/-- Whether a command has nothing in flight: no codeword read, no granule gathered, no move to be programmed. -/
def State.movesDone (s : State) (c : Cmd) : Bool :=
  c.gathered.isEmpty && !(s.jobs.any fun j => j.purpose.owner == some c.stamp)
    && !(s.versions.any fun v => v.moveCmd == some c.stamp)

/-! ### Scans -/

/-- Whether a page of an erase block has been programmed: by its row where it belongs to a superblock (R178, R179), by the
ledger state otherwise. -/
def State.pageProgrammed (s : State) (b : BlockAddr) (page : Nat) : Bool :=
  let e := s.ledger b
  match memberOf (s.sbDies e.sb) b.die with
  | some m =>
    let row := page / max 1 (s.diePpp b.die e.cls)
    match s.openSb? e.sb with
    | some o => match o.row with
      | some r => row < r.wl || (row == r.wl && ((r.contributed.contains m && !(s.unitBusy o.sb m)) || r.parityDone.contains m))
      | none => row < o.nextWl
    | none => row < s.sbNextWl e.sb
  | none => e.state == lsOpen || e.state == lsClosed || e.state == lsGrownBad || e.state == lsSystem

/-- Whether a page of an erase block carries data, not parity (R178). -/
def State.pageData (s : State) (b : BlockAddr) (page : Nat) : Bool :=
  let e := s.ledger b
  match memberOf (s.sbDies e.sb) b.die with
  | some m => s.rowHoldsData e.sb (page / max 1 (s.diePpp b.die e.cls)) m
  | none => true

/-- The PPA of a place of an erase block. -/
def State.blockPpa (s : State) (b : BlockAddr) (place : Nat) : Nat :=
  let e := s.ledger b
  let k := classPerPage e.cls
  ppaOf b.die b.plane b.block (place / k) (place % k) e.cls e.code

/-- The next place from `p` on, below `lim`, that a command's scan of a block reads: programmed, not already read as part
of a granule, and, but for SCRUB, data. -/
def State.nextScan (s : State) (c : Cmd) (b : BlockAddr) (lim : Nat) : Nat → Nat → Option Nat
  | 0, _ => none
  | fuel + 1, p =>
    let page := p / classPerPage (s.ledger b).cls
    if lim ≤ p then none
    else if s.pageProgrammed b page && (c.opcode == 0x24 || s.pageData b page) && !(c.issued.contains (s.blockPpa b p)) then some p
    else s.nextScan c b lim fuel (p + 1)

/-- The limit of a command's scan of a block: its own end place, or the block's end. -/
def State.scanLimit (s : State) (c : Cmd) (b : BlockAddr) : Nat :=
  let all := s.classSectors b.die (s.ledger b).cls
  if c.sent = 0 then all else min all c.sent

/-- The next codeword of a block that a command's scan needs, if any is left. -/
def State.scanNext (s : State) (c : Cmd) (b : BlockAddr) : Option Nat :=
  let lim := s.scanLimit c b
  s.nextScan c b lim (lim + 1) c.drawn

/-- A scan moved on by one codeword read, when none of its own is in flight. -/
def State.scanStep (s : State) (c : Cmd) (b : BlockAddr) : State :=
  let busy := s.jobs.any fun j => match j.purpose with
    | .scan st => st == c.stamp
    | _ => false
  match (if busy then none else s.scanNext c b) with
  | some p => (s.updCmd c.stamp fun d => { d with drawn := p + 1 }).addJob (.scan c.stamp) (s.blockPpa b p) 0 0 3 c.stamp
  | none => s

/-- Whether a command's scan of a block, and every move it began, is at its end. -/
def State.scanDone (s : State) (c : Cmd) (b : BlockAddr) : Bool := (s.scanNext c b).isNone && s.movesDone c

/-! ### Completion of moves (R202) -/

/-- The notices of a COPY, FOLD or refresh: one COPY_PLACED for each target block (R202, R218). -/
def State.placedNotices (s : State) (c : Cmd) : State :=
  let src := ppaBlk c.ppa
  c.targets.foldl (fun a t =>
    a.unitNotice 0x20 (some (a.ledger t.1).unit)
      [(2, src.die), (1, src.plane), (2, src.block), (8, t.2.1), (4, t.2.2)] true (some c.stamp)) s

/-- INFO of UNCORRECTABLE for granules in COPY_LOST: the first LBA listed and how many (R106, R202). -/
def Cmd.lostInfo (c : Cmd) : Nat := c.lostLba.getD 0 % 2 ^ 40 + min (2 ^ 24 - 1) c.badGranules.length * 2 ^ 40

/-- A command that moved granules ends as R202 states; its tokens and locks are given up. -/
def State.finishMoves (s : State) (c : Cmd) (info : Nat) : State :=
  let s1 := (s.dropTokens c.stamp).unlockBlocks c.stamp
  if c.lostLba.isSome then s1.finish c.stamp stUncorrectable c.lostInfo
  else if c.counted = 0 then s1.finishOk c info
  else s1.finish c.stamp stOkNotice info

/-- A command's INFO of two 32-bit counts. -/
def twoCounts (lo hi : Nat) : Nat := min 0xFFFFFFFF lo + min 0xFFFFFFFF hi * 2 ^ 32

/-- A started COPY or FOLD: token, lock, scan, staging, completion (R155, R156, R201 to R203). -/
def State.pumpCopy (s : State) (c : Cmd) : State :=
  let b := ppaBlk c.ppa
  let t := s.askToken b.die c.stamp
  let mine := t.blockLocks.contains (b, c.stamp)
  if !(t.holdsToken b.die c.stamp) || (t.blockLocked b && !mine) then t
  else
    let s1 := ((if mine then t else t.lockBlock b c.stamp).scanStep c b).stageMoves c.stamp
    match s1.cmd? c.stamp with
    | some d => if s1.scanDone d b then (s1.placedNotices d).finishMoves d (twoCounts d.moved d.left) else s1
    | none => s1

/-- A started SCRUB: its die's token for all of its blocks, one block after another (R155, R204). -/
def State.pumpScrub (s : State) (c : Cmd) : State :=
  let d := ppaDie c.ppa
  let t := s.askToken d c.stamp
  if !(t.holdsToken d c.stamp) then t
  else match c.work with
    | [] => (t.placedNotices c).finishMoves c (twoCounts c.fromBuf c.moved)
    | w :: rest =>
      let b : BlockAddr := { die := w.1, plane := w.2.1, block := w.2.2 }
      let s1 := (t.scanStep c b).stageMoves c.stamp
      match s1.cmd? c.stamp with
      | some e => if s1.scanDone e b then s1.updCmd c.stamp fun x => { x with work := rest, drawn := 0 } else s1
      | none => s1

/-! ### Granules by the map (R200, R207) -/

/-- The granules of a unit whose MEDIA entry lies on a die and whose number passes a test. -/
def State.granulesOn (s : State) (u d : Nat) (p : Nat → Bool) : List (Nat × Nat) :=
  ((s.listedGranules u).filter fun g => p g && entryState (s.mapEntry u g) == 1 && s.mediaGood u (s.mapEntry u g)
    && ppaDie (entryLoc (s.mapEntry u g)) == d).map fun g => (g, s.mapEntry u g)

/-- The entries of a unit whose granules pass a test walked: each bad one raises MAP_ENTRY_BAD (R164). -/
def State.noteBadAll (s : State) (u : Nat) (p : Nat → Bool) : State :=
  ((s.listedGranules u).filter p).foldl (fun a g => a.noteBad u g (a.mapEntry u g)) s

/-- The moves of every such granule begin. -/
def State.beginOn (s : State) (c : Cmd) (u d : Nat) (forced : Bool) (p : Nat → Bool) : State :=
  (s.granulesOn u d p).foldl (fun a g => a.beginMove c.stamp u g.1 g.2 [] false false forced) s

/-- A die's blocks become GROWN_BAD with VALID 0, and the superblocks that have it as a member UNPROTECTED, one left OPEN by a reset
closed with it (R179, R200); those without valid data are released (R211). -/
def State.condemnDie (s : State) (d : Nat) : State :=
  let sbs := (s.sbsWith d).filter fun x => s.sbState x.1 != sbReleased && (s.openSb? x.1).isNone
  let s1 := (s.ledgerBlocks.filter fun b => b.die == d).foldl (fun a b => (a.growBad b).updLedger b fun e => { e with valid := 0 }) s
  sbs.foldl (fun a x => ((a.closeBlocks x.1).setSbField x.1 0 1 sbUnprotected).checkRelease x.1) s1

/-- Whether a superblock on chip still writes to a die as one of its members. -/
def State.opensOn (s : State) (d : Nat) : List Nat :=
  (s.sbs.filter fun b => (memberOf b.members d).any fun m => !(b.zero.contains m)).map fun b => b.sb

/-- A started PARITY_REBUILD: die after die, under its token, the superblocks that still write to it are closed, every granule that a
map entry points at there is rebuilt and moved; then the die is condemned (R155, R200). A work entry's second field is 0 before that,
2 while the superblocks close, 1 from the beginning of the moves on. -/
def State.pumpRebuildCmd (s : State) (c : Cmd) : State :=
  match c.work with
  | [] => s.finishMoves c 0
  | w :: rest =>
    let d := w.1
    let t := s.askToken d c.stamp
    if !(t.holdsToken d c.stamp) then t
    else if w.2.1 == 0 then
      (((t.opensOn d).foldl State.requestClose t).updCmd c.stamp fun x => { x with work := (d, 2, 0) :: rest }).advance
    else if w.2.1 == 2 then
      if !(t.opensOn d).isEmpty then t
      else
        let s1 := (List.range 16).foldl (fun a u => a.beginOn c u d true fun _ => true) t
        (s1.updCmd c.stamp fun x => { x with work := (d, 1, 0) :: rest }).advance
    else
      let s1 := t.stageMoves c.stamp
      match s1.cmd? c.stamp with
      | some e =>
        if s1.movesDone e then
          ((s1.condemnDie d).dropToken d c.stamp).updCmd c.stamp fun x => { x with work := rest, counted := 0 }
        else s1
      | none => s1

/-! ### Erases (R194, R209 to R212) -/

/-- Decline or retirement after a good erase (R194). -/
def State.judgeWear (s : State) (b : BlockAddr) : State :=
  let e := s.ledger b
  if !(e.weak || s.objN Obj.PE_LIMIT_C e.cls ≤ e.eraseCount) then s
  else if (e.cls == 1 || e.cls == 3) && s.unitDecline e.unit then
    let s1 := s.updLedger b fun x => { x with cls := e.cls + 1, code := s.classCode (e.cls + 1), weak := false }
    (s1.bump Obj.DECLINED_COUNT).blockNotice 0x24 b
  else ((s.updLedger b fun x => { x with state := lsRetired }).bump Obj.RETIRED_COUNT).blockNotice 0x25 b

/-- Whether another block of a superblock still has VALID above 0. -/
def State.othersValid (s : State) (sb : Nat) (b : BlockAddr) : Bool :=
  (s.sbBlocks sb).any fun x => x != b && (s.ledger x).valid != 0

/-- A firmware erase of a member while another member is valid: the superblock is UNPROTECTED, ROW_PROTECTION_LOST
(R212). -/
def State.noteUnprotected (s : State) (b : BlockAddr) : State :=
  let i := (s.ledger b).sb
  match memberOf (s.sbDies i) b.die with
  | some m =>
    if (s.sbState i == sbClosed || s.sbState i == sbUnprotected) && s.othersValid i b then
      (s.setSbField i 0 1 sbUnprotected).unitNotice 0x26 (some (s.sbUnit i)) [(4, i), (1, m)]
    else s
  | none => s

/-- A rescue set that a block belonged to is forgotten. -/
def State.dropRescue (s : State) (b : BlockAddr) : State :=
  let keep (r : RescueSet) : Bool := !(r.die == b.die && r.block == b.block && tbit r.planeMask b.plane)
  { s with prot := { s.prot with rescue := s.prot.rescue.filter keep, rescueDir := s.prot.rescueDir.filter keep } }

/-- A good erase: FREE_READY, ERASE_COUNT, ERASE_TIME, VALID, the empty range, then wear (R185, R194, R210); a superblock it leaves
without valid data is released (R211). -/
def State.eraseGood (s : State) (b : BlockAddr) : State :=
  let sb := (s.ledger b).sb
  let s1 := s.updLedger b fun e =>
    { e with state := lsFreeReady, eraseCount := satAdd 0xFFFFFFFF e.eraseCount 1, eraseTime := s.now / 1000000000 % 2 ^ 32,
             valid := 0, minLba := lbaEmptyMin, maxLba := 0 }
  (((s1.judgeWear b).dropRescue b).checkRelease sb).checkFree sb

/-- A failed erase: GROWN_BAD (R210); of a RELEASED superblock the member leaves (R211). -/
def State.eraseBad (s : State) (b : BlockAddr) : State :=
  let i := (s.ledger b).sb
  let s1 := s.growBad b
  if s.sbState i == sbReleased && (memberOf (s.sbDies i) b.die).isSome then
    (s1.updLedger b fun e => { e with sb := 0xFFFFFFFF }).checkFree i
  else s1

/-- An erase of one block queued for a command: ERASING once no pin holds it (R132, R210). -/
def State.queueErase (s : State) (b : BlockAddr) (cmd : Option Nat) (stamp : Nat) : State :=
  (s.updLedger b fun e => { e with state := lsErasing }).addOp b.die (.erase [b] cmd) stamp 3

/-- A started ERASE (R155, R156, R210): token, lock, the superblock closed first, then the erase. -/
def State.pumpErase (s : State) (c : Cmd) : State :=
  let b := ppaBlk c.ppa
  let t := s.askToken b.die c.stamp
  let mine := t.blockLocks.contains (b, c.stamp)
  if c.granted != 0 || !(t.holdsToken b.die c.stamp) || (t.blockLocked b && !mine) then t
  else
    let s1 := if mine then t else t.lockBlock b c.stamp
    if !(s1.diePresent b.die) then (((s1.eraseBad b).dropTokens c.stamp).unlockBlocks c.stamp).finishOk c
    else if s1.openMember b then (s1.requestClose (s1.ledger b).sb).advance
    else
      let s2 := s1.updLedger b fun e => { e with state := lsErasing }
      if s2.pinned b then s2
      else ((s2.noteUnprotected b).queueErase b (some c.stamp) c.stamp).updCmd c.stamp fun d => { d with granted := 1 }

/-! ### PURGE and SECURE_DISCARD (R206 to R209) -/

/-- The blocks that R208 selects, ascending. -/
def State.purgeBlocks (s : State) (c : Cmd) : List BlockAddr :=
  let hi := c.lba + c.nsect - 1
  let mine := s.ledgerBlocks.filter fun b =>
    let e := s.ledger b
    e.unit == c.unit && (e.state == lsOpen || e.state == lsClosed || e.state == lsGrownBad) && e.minLba ≤ e.maxLba
      && e.minLba ≤ hi && c.lba ≤ e.maxLba
  let rescue := ((s.prot.rescueDir.filter fun r => r.spent).map fun r =>
    ((List.range 8).filter fun p => tbit r.planeMask p).map fun p =>
      ({ die := r.die, plane := p, block := r.block } : BlockAddr)).flatten
  sortBy (fun a b => s.ledgerIndex a ≤ s.ledgerIndex b) (mine ++ rescue.filter fun b => !(mine.contains b))

/-- The purge proper starts: its blocks are selected, the OPEN superblocks it touches are closed (R208). -/
def State.startPurge (s : State) (c : Cmd) : State :=
  let bs := s.purgeBlocks c
  let s1 := (distinct (bs.map fun b => (s.ledger b).sb)).foldl State.requestClose s
  s1.updCmd c.stamp fun d => { d with targets := bs.map fun b => (b, 0, 0), granted := 1 }

/-- Whether no older version of the range, nor an older move of it, is still on its way to the media: the block it goes to is not yet
one that R208 selects (R206, R207; DEDUCED, log 242). -/
def State.purgeQuiet (s : State) (c : Cmd) : Bool :=
  let g := s.granules c
  !(s.versions.any fun v => v.unit == c.unit && g.1 ≤ v.granule && v.granule ≤ g.2 && (match v.moveFrom with
    | some e => s.mapEntry v.unit v.granule != e.toNat
    | none => v.started && s.mapEntry v.unit v.granule != entryBuffer v.stamp v.handle))

/-- Run-ahead data of the granules that a PURGE or SECURE_DISCARD covers discarded (R251). -/
def State.purgeComet (s : State) (c : Cmd) : State :=
  let g := s.granules c
  s.cometDiscard fun h => h.unit == c.unit && g.1 ≤ h.granule && h.granule ≤ g.2

/-- The dies that hold MEDIA granules of a PURGE's range, ascending. -/
def State.rangeDies (s : State) (c : Cmd) : List Nat :=
  let g := s.granules c
  let ds := (s.listedGranules c.unit).filterMap fun x =>
    if g.1 ≤ x && x ≤ g.2 && entryState (s.mapEntry c.unit x) == 1 && s.mediaGood c.unit (s.mapEntry c.unit x)
    then some (ppaDie (entryLoc (s.mapEntry c.unit x))) else none
  sortBy (fun a b => a ≤ b) (distinct ds)

/-- A PURGE starts: bad entries of its range are noted, the dies its moves start from are listed (R164, R207, R251). -/
def State.startPurgeCmd (s : State) (c : Cmd) : State :=
  let g := s.granules c
  ((s.purgeComet c).noteBadAll c.unit fun x => g.1 ≤ x && x ≤ g.2).updCmd c.stamp fun d =>
    { d with phase := .started, work := (s.rangeDies c).map fun x => (x, 0, 0) }

/-- The covered sectors of the partly covered granules of a SECURE_DISCARD (R206). -/
def State.partGranules (s : State) (c : Cmd) : List Gathered :=
  let n := s.unitSectors c.unit
  let g := s.granules c
  (distinct [g.1, g.2]).filterMap fun x =>
    let inside := (List.range n).filter fun i => c.lba ≤ x * n + i && x * n + i < c.lba + c.nsect
    if inside.length = n then none
    else some { unit := c.unit, granule := x, entry := s.mapEntry c.unit x, need := [], zero := inside }

/-- A SECURE_DISCARD starts: whole granules are discarded, partial ones ask for a buffer (R206). -/
def State.startSecure (s : State) (c : Cmd) : State :=
  let s1 := s.purgeComet c
  let ps := s1.partGranules c
  ((s1.updCmd c.stamp fun d => { d with phase := .started, gathered := ps }).discardWhole c).stageMoves c.stamp

/-- The unpurged blocks of a purge listed in PURGE_INCOMPLETE (R209). -/
def State.listUnpurged (s : State) (c : Cmd) (p : Nat → Bool) : State :=
  (c.targets.filter fun t => p t.2.1).foldl (fun a t =>
    a.unitNotice 0x22 (some c.unit) [(1, c.unit), (2, t.1.die), (1, t.1.plane), (2, t.1.block)] true (some c.stamp)) s

/-- The state of one selected block set: 0 waiting, 1 erasing, 2 erasing again, 3 being filled with zeros, 4 purged, 5 not
to be purged. -/
def State.setPurge (s : State) (st : Nat) (b : BlockAddr) (v : Nat) : State :=
  let upd (t : BlockAddr × Nat × Nat) : BlockAddr × Nat × Nat := if t.1 == b then (t.1, v, t.2.2) else t
  s.updCmd st fun c => { c with targets := c.targets.map upd }

/-- A purge ends (R202, R209). With blocks left unpurged it ends UNCORRECTABLE; its INFO then carries the first LBA of the range and
no failing granule, as the blocks and not the data failed (R106; DESIGN CHOICE, log 239). -/
def State.finishPurge (s : State) (c : Cmd) : State :=
  let bad := c.targets.any fun t => t.2.1 == 5
  let s1 := s.listUnpurged c fun v => v == 5
  if bad && c.lostLba.isNone then ((s1.dropTokens c.stamp).unlockBlocks c.stamp).finish c.stamp stUncorrectable (c.lba % 2 ^ 40)
  else s1.finishMoves c 0

/-- The selected blocks one after another: token, other valid granules moved as COPY moves them, then, closed, locked and
without pins, the erase (R155, R156, R208). -/
def State.pumpPurgeBlocks (s : State) (c : Cmd) : State :=
  match c.targets.find? fun t => t.2.1 < 4 with
  | none => s.finishPurge c
  | some t =>
    let b := t.1
    if t.2.1 != 0 then s
    else if !(s.diePresent b.die) then s.setPurge c.stamp b 5
    else
      let a := s.askToken b.die c.stamp
      if !(a.holdsToken b.die c.stamp) then a
      else if (a.ledger b).state == lsFreeReady || (a.ledger b).state == lsFreeUnchecked || (a.ledger b).state == lsRetired then
        (a.setPurge c.stamp b 4).dropToken b.die c.stamp
      else
        let s1 := (a.scanStep c b).stageMoves c.stamp
        match s1.cmd? c.stamp with
        | none => s1
        | some d =>
          let mine := s1.blockLocks.contains (b, c.stamp)
          if !(s1.scanDone d b) || (s1.openSb? (s1.ledger b).sb).isSome || (s1.blockLocked b && !mine) then s1
          else
            let s2 := if mine then s1 else s1.lockBlock b c.stamp
            if s2.pinned b then s2
            else ((s2.noteUnprotected b).queueErase b (some c.stamp) c.stamp).setPurge c.stamp b 1

/-- A started PURGE or SECURE_DISCARD (R131, R206, R207): first its map update, which ends its range lock; then, once no older version
of its range is in flight, the purge of the blocks selected there. -/
def State.pumpPurge (s : State) (c : Cmd) : State :=
  if c.mapDone then
    if c.aborted then s
    else if c.granted = 0 then (if s.purgeQuiet c then s.startPurge c else s)
    else s.pumpPurgeBlocks c
  else
    let done (a : State) (e : Cmd) : State :=
      if a.movesDone e then
        a.updCmd e.stamp fun x => { x with mapDone := true, locked := false, drawn := 0, issued := [] }
      else a
    if c.opcode == 5 then done (s.stageMoves c.stamp) ((s.cmd? c.stamp).getD c)
    else match c.work with
      | [] => done s c
      | w :: rest =>
        let t := s.askToken w.1 c.stamp
        if !(t.holdsToken w.1 c.stamp) then t
        else if w.2.1 == 0 then
          let g := t.granules c
          (t.beginOn c c.unit w.1 false fun x => g.1 ≤ x && x ≤ g.2).updCmd c.stamp fun x => { x with work := (w.1, 1, 0) :: rest }
        else
          let s1 := t.stageMoves c.stamp
          match s1.cmd? c.stamp with
          | some e =>
            if s1.movesDone e then (s1.dropToken w.1 c.stamp).updCmd c.stamp fun x => { x with work := rest } else s1
          | none => s1

/-- A block of a purge erased: FREE_READY, or, at its first failure, erased again, at its second, every page of it in SLC mode filled
with zeros, from page 0 on (R209). -/
def State.purgeErased (s : State) (c : Cmd) (b : BlockAddr) (good : Bool) : State :=
  if good then
    let s1 := ((s.eraseGood b).setPurge c.stamp b 4).dropToken b.die c.stamp
    { s1.updCmd c.stamp (fun d => { d with drawn := 0, issued := [] }) with
      blockLocks := s1.blockLocks.filter fun l => !(l.1 == b && l.2 == c.stamp) }
  else if (c.targets.find? fun t => t.1 == b).any fun t => t.2.1 == 1 then
    (s.setPurge c.stamp b 2).addOp b.die (.erase [b] (some c.stamp)) c.stamp 3
  else (s.setPurge c.stamp b 3).addOp b.die (.zeroFill c.stamp b 0) c.stamp 3

/-- A page of a purge's block filled with zeros: the next one follows; with the last the block is GROWN_BAD and purged; one that fails
even that is GROWN_BAD and stays unpurged (R209). -/
def State.purgeFilled (s : State) (c : Cmd) (b : BlockAddr) (page : Nat) (good : Bool) : State :=
  if good && page + 1 < s.classPages b.die 0 then s.addOp b.die (.zeroFill c.stamp b (page + 1)) c.stamp 3
  else
    let s1 := ((s.eraseBad b).setPurge c.stamp b (if good then 4 else 5)).dropToken b.die c.stamp
    { s1.updCmd c.stamp (fun d => { d with drawn := 0, issued := [] }) with
      blockLocks := s1.blockLocks.filter fun l => !(l.1 == b && l.2 == c.stamp) }

/-- A purge whose move finds no block ends with MEDIA_FULL and keeps its map update (R209). -/
def State.purgeFull (s : State) (c : Cmd) : State :=
  let ids := (s.versions.filter fun v => v.moveCmd == some c.stamp && v.placed == 0).map fun v => v.id
  let s1 := ids.foldl State.dropVersion (s.cancelMedia c.stamp)
  let s2 := { s1 with versions := s1.versions.map fun (v : Version) =>
    if v.moveCmd == some c.stamp then { v with moveCmd := none } else v }
  (((s2.listUnpurged c fun v => v != 4).dropTokens c.stamp).unlockBlocks c.stamp).finish c.stamp stMediaFull c.unit

/-- Purges of a unit with a move that waits unplaced. -/
def State.purgesWaiting (s : State) (u : Nat) : List Cmd :=
  s.cmds.filter fun c => (c.opcode == 5 || c.opcode == 0x28) && !c.isEnded
    && s.versions.any fun v => v.moveCmd == some c.stamp && v.unit == u && v.placed == 0

/-! ### Raw pages (R354 to R356) -/

/-- The next page in order of a raw-area block, if it is known. -/
def State.rawNextOf (s : State) (b : BlockAddr) : Option Nat := (s.prot.rawNext.find? fun x => x.1 == b).map fun x => x.2

def State.setRawNext (s : State) (b : BlockAddr) (n : Option Nat) : State :=
  let rest := s.prot.rawNext.filter fun x => x.1 != b
  { s with prot := { s.prot with rawNext := match n with
    | some k => rest ++ [(b, k)]
    | none => rest } }

/-- A RAW_PROGRAM starts: its page order is judged, then it draws buffers like a WRITE (R356). -/
def State.startRawProgram (s : State) (c : Cmd) : State :=
  let p := ppaPage c.ppa
  let next := s.rawNextOf (ppaBlk c.ppa)
  if p = 0 then (s.updCmd c.stamp fun d => { d with phase := .started }).pumpWrite c.stamp
  else match next with
    | none => s.finish c.stamp stProgOrder p
    | some n =>
      if p < n then s.finish c.stamp stProgTwice p
      else if n < p then s.finish c.stamp stProgOrder (p + n * 65536)
      else (s.updCmd c.stamp fun d => { d with phase := .started }).pumpWrite c.stamp

/-- One operation of a RAW_PROGRAM has ended (R356). -/
def State.rawOpDone (s : State) (c : Cmd) (erase good : Bool) : State :=
  if !good then
    let page := ppaPage c.ppa + c.sent
    (((s.setRawNext (ppaBlk c.ppa) none).giveBack c).dropTokens c.stamp).finish c.stamp stUncorrectable page
  else if erase then s.updCmd c.stamp fun d => { d with moved := 1 }
  else s.updCmd c.stamp fun d => { d with sent := d.sent + 1 }

/-- A started RAW_PROGRAM whose bytes have all come: under its die's token, page 0 erases the block, then its pages are
programmed one after another; `work` counts the operations done. -/
def State.pumpRawProgram (s : State) (c : Cmd) : State :=
  let b := ppaBlk c.ppa
  let busy := s.ops.any fun o => o.kind.ofStamp c.stamp
  if !(s.dataWhole c) || busy then s
  else
    let t := s.askToken b.die c.stamp
    if !(t.holdsToken b.die c.stamp) then t
    else if !(t.diePresent b.die) then t.rawOpDone c false false
    else if ppaPage c.ppa = 0 && c.moved = 0 then
      if t.pinned b then t else (t.setRawNext b none).addOp b.die (.erase [b] (some c.stamp)) c.stamp 3
    else if c.sent < c.count then (t.setRawNext b none).addOp b.die (.rawProgram c.stamp) c.stamp 3
    else
      let s1 := (t.setRawNext b (some (ppaPage c.ppa + c.count))).giveBack c
      (s1.dropTokens c.stamp).finishOk c

/-- A started RAW_READ: it draws a pool-2 buffer for each page, and reads the pages that have theirs undecoded under its die's
token (R116, R406). -/
def State.pumpRawRead (s : State) (c : Cmd) : State :=
  let d := ppaDie c.ppa
  let r := s.queueRequester c.queue
  let t := s.askToken d c.stamp
  if !(t.holdsToken d c.stamp) then t
  else if c.granted = 0 then
    let s1 := t.updCmd c.stamp fun x => { x with granted := 1 }
    (List.range c.count).foldl (fun a k => a.bufWait 2 r (.raw c.stamp k) (a.bufLimit r c.waitBuf)) s1
  else
    let new := (c.bufs.map fun b => b.1).filter fun k => !(c.issued.contains k)
    new.foldl (fun a k => (a.updCmd c.stamp fun x => { x with issued := x.issued ++ [k] }).addJob (.raw c.stamp k)
      (c.ppa + k * 2 ^ 19) 0 0 3 c.stamp) t

/-- Every page of a RAW_READ has come: its bytes leave in packets cut at 16,384-byte boundaries, or at LADDR (R116). -/
def State.sendRaw (s : State) (c : Cmd) : State :=
  let len := s.dataLen c
  let pb := (s.die (ppaDie c.ppa)).pageBytes
  let bytes := padTo len (((List.range c.count).map fun k =>
    padTo pb (((c.ready.find? fun r => r.sector == k).map fun r => r.bytes).getD [])).flatten)
  let s1 := s.dropTokens c.stamp
  if c.isLocal then
    (List.range (len / 4096)).foldl (fun a i =>
      a.mpWriteReq (a.sharedPort (c.laddr + 4096 * i)) (c.laddr + 4096 * i) ((bytes.drop (4096 * i)).take 4096)
        (.localRead c.stamp)) s1
  else
    let pkts := (List.range (ceilDiv len 16384)).map fun i =>
      OutPkt.data c.stamp c.queue c.cid (16384 * i) (len ≤ 16384 * (i + 1)) ((bytes.drop (16384 * i)).take 16384)
    s1.setLink fun l => { l with out1 := l.out1 ++ pkts }

/-- One raw page came. -/
def State.rawGot (s : State) (st page : Nat) (bytes : List Byte) : State :=
  let s1 := s.updCmd st fun c =>
    if c.isEnded || c.aborted then c else { c with ready := c.ready ++ [{ sector := page, bytes, holder := .none }] }
  match s1.cmd? st with
  | some c =>
    let s2 := match c.bufs.find? fun b => b.1 == page with
      | some b => s1.memWrite (s1.bufAddr b.2) bytes
      | none => s1
    if !c.isEnded && !c.aborted && c.ready.length = c.count then s2.sendRaw c else s2
  | none => s1

/-- `n` bytes of a RAW_READ have left; with the last it completes. -/
def State.rawLeft (s : State) (st n : Nat) : State :=
  match s.cmd? st with
  | some c =>
    let s1 := s.updCmd st fun d => { d with sent := d.sent + n }
    if s.dataLen c ≤ c.sent + n then (s1.giveBack c).finishOk c else s1
  | none => s

/-! ### BLANK_CHECK (R369) -/

/-- Zero bits of a page as sensed. -/
def zeroBits (bs : List Byte) : Nat := sumOf (bs.map fun b => ((List.range 8).filter fun i => !(tbit b.toNat i)).length)

/-- The pages a blank check reads: page 0 and the last page, in SLC mode. -/
def State.blankPpas (s : State) (b : BlockAddr) : List Nat :=
  [ppaOf b.die b.plane b.block 0 0 0 0, ppaOf b.die b.plane b.block (s.classPages b.die 0 - 1) 0 0 0]

/-- The verdict of a blank check (R369): a blank FREE_UNCHECKED block becomes FREE_READY, one that is not is erased by the block,
under its die's token (R155). -/
def State.blankVerdict (s : State) (b : BlockAddr) (zeros : Nat) : State × Bool :=
  let blank := decide (zeros ≤ s.objN Obj.BLANK_ZERO_LIMIT)
  let s1 := if blank then s else s.bump Obj.BLANK_FAILS
  if (s.ledger b).state != lsFreeUnchecked then (s1, blank)
  else if blank then (s1.updLedger b fun e => { e with state := lsFreeReady }, blank)
  else ((s1.askToken b.die 0).queueErase b none 0, blank)

/-- A started BLANK_CHECK: both pages are read undecoded under the die's token. -/
def State.pumpBlank (s : State) (c : Cmd) : State :=
  let b := ppaBlk c.ppa
  let t := s.askToken b.die c.stamp
  if c.granted != 0 || !(t.holdsToken b.die c.stamp) then t
  else
    let s1 := t.updCmd c.stamp fun x => { x with granted := 1 }
    (s1.blankPpas b).zipIdx.foldl (fun a p => a.addJob (.blank c.stamp p.2) p.1 0 0 3 c.stamp) s1

/-- One page of a blank check came; with the second the command completes (R117). -/
def State.blankGot (s : State) (st which : Nat) (bytes : List Byte) : State :=
  let s1 := s.updCmd st fun c => { c with found := c.found ++ [(which, zeroBits bytes)] }
  match s1.cmd? st with
  | some c =>
    if c.isEnded || c.aborted || c.found.length < 2 then s1
    else
      let z := (c.found.map fun x => x.2).foldl max 0
      let v := s1.blankVerdict (ppaBlk c.ppa) z
      (v.1.dropTokens st).finishOk c (min 0xFFFFFFFF z + flag v.2 32)
  | none => s1

/-! ### REPLAY_SCAN (R148, R149, R179) -/

/-- The units of a scan's mask. -/
def Cmd.units (c : Cmd) : List Nat := (List.range 16).filter fun u => c.count == 0 || tbit c.count u

/-- Whether a block of the rescue area holds the parity of its row: it is its member 15 (R148, R363, R364). -/
def State.rescueParity (s : State) (b : BlockAddr) : Bool :=
  s.prot.rescueDir.any fun r => r.member == 15 && r.die == b.die && r.block == b.block && tbit r.planeMask b.plane

/-- The blocks of the rescue area named by the directory. -/
def State.rescueBlocks (s : State) : List BlockAddr :=
  (s.prot.rescueDir.map fun r => ((List.range 8).filter fun p => tbit r.planeMask p).map fun p =>
    ({ die := r.die, plane := p, block := r.block } : BlockAddr)).flatten

/-- A REPLAY_SCAN starts (R148): the blocks being written or erased of its units, then the rescue area. -/
def State.startReplay (s : State) (c : Cmd) : State :=
  let us := c.units
  let rescue := s.rescueBlocks
  let bs := s.ledgerBlocks.filter fun b =>
    let e := s.ledger b
    (e.state == lsOpen || e.state == lsErasing) && us.contains e.unit && !(rescue.contains b)
  let work := (bs ++ rescue).map fun b => (b.die, b.plane, b.block)
  s.updCmd c.stamp fun d => { d with phase := .started, work }

/-- The metadata of the data codewords found in a block, with their PPAs; parity and pads are left out. -/
def State.foundData (s : State) (c : Cmd) (p : Nat → Bool) : List (Nat × Nat) :=
  c.found.filter fun x => p x.2 && !(metaPadBit x.1) && s.pageData (ppaBlk x.2) (ppaPage x.2) && !(s.rescueParity (ppaBlk x.2))

/-- The notices of one block read (R149): its last good page, or 0xFFFF, its write sequences, the rescue flag. -/
def State.reportBlock (s : State) (c : Cmd) (b : BlockAddr) : State :=
  let e := s.ledger b
  let mine := c.found.filter fun x => ppaBlk x.2 == b
  let seqs := (s.foundData c fun p => ppaBlk p == b).map fun x => metaWseq x.1
  let last := if mine.isEmpty then 0xFFFF else (mine.map fun x => ppaPage x.2).foldl max 0
  let rescue := s.rescueBlocks.contains b
  let u := if rescue then none else some e.unit
  let s1 := s.unitNotice 0x18 u
    [(2, b.die), (1, b.plane), (2, b.block), (2, last), (8, seqs.foldl min (2 ^ 56 - 1)), (8, seqs.foldl max 0), (1, flag rescue 0)]
    true (some c.stamp)
  if e.state == lsErasing then s1.unitNotice 0x1A u [(2, b.die), (1, b.plane), (2, b.block)] true (some c.stamp) else s1

/-- One page after another of a block is read; the rescue area stops at its first page that does not decode (R365). -/
def State.replayStep (s : State) (c : Cmd) : State :=
  if s.jobs.any fun j => j.purpose.owner == some c.stamp then s
  else match c.work with
    | [] => s
    | w :: rest =>
      let b : BlockAddr := { die := w.1, plane := w.2.1, block := w.2.2 }
      let cls := (s.ledger b).cls
      let k := classPerPage cls
      let rescue := s.rescueBlocks.contains b
      let stop := rescue && 0 < c.drawn && !(c.found.any fun x => ppaBlk x.2 == b && ppaPage x.2 + 1 == c.drawn)
      if s.classPages b.die cls ≤ c.drawn || stop || !(s.diePresent b.die) then
        (s.reportBlock c b).updCmd c.stamp fun d => { d with work := rest, drawn := 0, moved := d.moved + 1 }
      else
        (List.range k).foldl (fun a i => a.addJob (.replay c.stamp) (a.blockPpa b (c.drawn * k + i)) 0 0 3 c.stamp)
          (s.updCmd c.stamp fun d => { d with drawn := d.drawn + 1 })

/-- The atomic group of a codeword: its unit and its last write sequence number (R146). -/
def groupOf (m : Nat) : Nat × Nat := (metaUnit m, metaWseq m + metaRemain m)

/-- The codeword of the lowest number found of an atomic group: its number and its LBA. -/
def groupLow (data : List (Nat × Nat)) (g : Nat × Nat) : Nat × Nat :=
  let ms := (data.map fun x => x.1).filter fun m => metaAtomic m && groupOf m == g
  let lo := (ms.map metaWseq).foldl min g.2
  (lo, ((ms.filter fun m => metaWseq m == lo).map metaLba).headD 0)

/-- Whether nothing of a group is missing below its lowest number found, `low` (R148). The metadata holds no first number, so the
model takes it from what surrounds the group: the number starts a granule, and the number before it belongs elsewhere, being
found in another group or outside one, or lies below REPLAY_FROM_SEQ; the first number of all and the first LBA of a unit have
nothing before them (DEDUCED, log 124). -/
def State.groupStarts (s : State) (data : List (Nat × Nat)) (g low : Nat × Nat) : Bool :=
  low.2 % s.unitSectors g.1 == 0 && (low.2 == 0 || low.1 ≤ s.objN Obj.REPLAY_FROM_SEQ || data.any fun x => metaWseq x.1 + 1 == low.1)

/-- The atomic groups found with a number missing (R148). -/
def State.tornGroups (s : State) (data : List (Nat × Nat)) : List (Nat × Nat) :=
  let ms := (data.map fun x => x.1).filter metaAtomic
  let gs := ms.foldl (fun acc m => if acc.contains (groupOf m) then acc else acc ++ [groupOf m]) []
  gs.filter fun g =>
    let low := groupLow data g
    let seqs := (ms.filter fun m => groupOf m == g).map metaWseq
    !((List.range (g.2 + 1 - low.1)).all fun i => seqs.contains (low.1 + i)) || !(s.groupStarts data g low)

/-- The granule programs that can be applied: every codeword decoded, the write sequence high enough, the group whole; in
ascending write sequence: (sequence, unit, granule, PPA). -/
def State.replayable (s : State) (c : Cmd) (data torn : List (Nat × Nat)) : List (Nat × Nat × Nat × Nat) :=
  let from_ := s.objN Obj.REPLAY_FROM_SEQ
  let l := data.filterMap fun x =>
    let u := metaUnit x.1
    let n := s.unitSectors u
    let g := metaLba x.1 / n
    let ppas := s.granulePpas x.2 n
    let whole := ppas.zipIdx.all fun p => data.any fun y => y.2 == p.1 && metaUnit y.1 == u && metaLba y.1 == g * n + p.2
        && metaWseq y.1 == metaWseq x.1 + p.2
    if metaLba x.1 % n == 0 && whole && c.units.contains u && from_ ≤ metaWseq x.1
        && metaLba x.1 < s.objN Obj.UNIT_CAPACITY 0 u && !(metaAtomic x.1 && torn.contains (groupOf x.1))
    then some (metaWseq x.1, u, g, x.2) else none
  sortBy (fun a b => a.1 ≤ b.1) l

/-- A superblock left OPEN by the reset becomes CLOSED with its blocks, UNPROTECTED where the parity of its last row is not
on the media (R179, R365). -/
def State.replayClose (s : State) (c : Cmd) (i : Nat) : State :=
  let w := s.sbNextWl i - 1
  let per := s.rowPlaces ((s.sbDies i).getD 0 0) (s.sbClass i)
  let ps := parityMembers (s.sbProfile i) (s.rowPresent i w) w
  let onMedia (m : Nat) : Bool := (List.range (s.die ((s.sbDies i).getD m 0)).planes).all fun p =>
    (List.range per).all fun k => c.found.any fun x => x.2 == s.placePpa i m p (w * per + k)
  let bare := s.sbNextWl i != 0 && !ps.isEmpty && !(ps.any onMedia)
  let s1 := (s.sbBlocks i).foldl (fun a b =>
    if (a.ledger b).state == lsOpen then a.updLedger b fun e => { e with state := lsClosed } else a) s
  (s1.setSbField i 0 1 (if bare then sbUnprotected else sbClosed)).checkRelease i

/-- REPLAY_SCAN ends: torn groups are reported, granules applied, the write sequence set, superblocks closed (R148, R149,
R179). -/
def State.endReplay (s : State) (c : Cmd) : State :=
  let data := s.foundData c fun _ => true
  let torn := s.tornGroups data
  let s1 := torn.foldl (fun a g =>
    let low := groupLow data g
    a.unitNotice 0x19 (some g.1) [(1, g.1), (8, low.2), (4, g.2 + 1 - low.1), (8, low.1)] true (some c.stamp)) s
  let apply_ := s1.replayable c data torn
  let s2 := apply_.foldl (fun a x => a.mapSet x.2.1 x.2.2.1 (entryMedia x.2.2.2)) s1
  let high := (data.map fun x => metaWseq x.1 + 1).foldl max 0
  let s3 := if s2.objN Obj.ORD_WRITE_SEQ < high then s2.setObjN Obj.ORD_WRITE_SEQ (high % 2 ^ 56) else s2
  let left := s3.sbUsed.filter fun i => s3.sbState i == sbOpen && (s3.openSb? i).isNone && c.units.contains (s3.sbUnit i)
  let s4 := left.foldl (fun a i => a.replayClose c i) s3
  let s5 := s4.unitNotice 0x1B (c.units.head?) [(4, c.moved), (4, apply_.length), (4, torn.length),
    (8, s4.objN Obj.ORD_WRITE_SEQ)] true (some c.stamp)
  ({ s5 with seqWritten := true }).finishOk c (min 0xFFFFFFFF c.moved)

/-- A started REPLAY_SCAN. -/
def State.pumpReplay (s : State) (c : Cmd) : State :=
  if c.work.isEmpty && !(s.jobs.any fun j => j.purpose.owner == some c.stamp) then s.endReplay c else s.replayStep c

/-! ### CALIBRATE and ACTIVATE_MICROCODE -/

/-- The dies a CALIBRATE works on, read levels on its die, trims on its channel (R155). -/
def State.calDies (s : State) (c : Cmd) : List Nat :=
  if tbit c.subop 1 then s.channelDies (dieChannel (ppaDie c.ppa)) else [ppaDie c.ppa]

/-- Tokens asked for one die after another: the next only once the one before is held (R155, R156). -/
def State.askInOrder (who : Nat) : List Nat → State → State
  | [], s => s
  | d :: ds, s =>
    let t := s.askToken d who
    if t.holdsToken d who then State.askInOrder who ds t else t

/-- A started CALIBRATE asks for its tokens in ascending die number; its triggers are due (R155, R321, R324). -/
def State.pumpCalibrate (s : State) (c : Cmd) : State := State.askInOrder c.stamp (sortBy (fun a b => a ≤ b) (s.calDies c)) s

/-- A CALIBRATE starts: the runs it asks for are due and answer it. `work` lists them as (die, 0 read levels or 1 trims). -/
def State.startCalibrate (s : State) (c : Cmd) : State :=
  let d := ppaDie c.ppa
  let runs := (if tbit c.subop 0 then [(d, 0, 0)] else []) ++ (if tbit c.subop 1 then [(d, 1, 0)] else [])
  s.updCmd c.stamp fun x => { x with phase := .started, work := runs }

/-- Clusters a mask names; 0 names all (R116). -/
def State.maskClusters (s : State) (mask : Nat) : List Nat :=
  (List.range s.build.clusters).filter fun k => mask == 0 || tbit mask k

/-! ### Everything that waits -/

/-- A started maintenance command brought up to date. -/
def State.pumpMaint (s : State) (st : Nat) : State :=
  match s.cmd? st with
  | none => s
  | some c =>
    if c.over || !c.isStarted || s.prot.pfail then s
    else match c.opcode with
      | 0x20 | 0x26 => s.pumpCopy c
      | 0x21 => s.pumpErase c
      | 0x22 => s.pumpRawRead c
      | 0x23 => s.pumpRawProgram c
      | 0x24 => s.pumpScrub c
      | 0x25 => s.pumpCalibrate c
      | 0x27 => s.pumpBlank c
      | 5 | 0x28 => s.pumpPurge c
      | 0x29 => s.pumpReplay c
      | 0x2B => s.pumpRebuildCmd c
      | _ => s

/-- Rebuilds, reads, writes and maintenance moved on as far as one pass takes them. -/
def State.passOnce (s : State) : State :=
  let s1 := State.pumpRebuilds (64 + 8 * (s.jobs.length + s.rebuilds.length)) s
  s1.cmds.foldl (fun a c =>
    if c.opcode == 1 then a.issueRead c.stamp
    else if c.opcode == 2 || c.opcode == 0x23 then (a.pumpWrite c.stamp).pumpMaint c.stamp
    else a.pumpMaint c.stamp) s1

/-- STREAM_OPENs taken during an activation are planned once dispatch has resumed (R152). -/
def State.admitWaiting (s : State) : State :=
  if s.activation.isSome || s.prot.pfail then s
  else ((s.cmds.filter fun c => c.opcode == 8 && c.phase == .waiting).map fun c => c.stamp).foldl State.admitStream s

/-- All waiting work brought up to date after something has ended: two passes, so that what one command gives up another
takes; placement; commands that a queue reset covers; CMDs that wait for a slot (R79); the rescue area and the drain estimate
(R363, R364, R366); copy-engine channels that wait for a reference (R414). -/
def State.catchUp (s : State) : State :=
  let s1 := s.admitWaiting.passOnce.advance.retryDue.passOnce.advance.sweepAborted.armAll
  (State.serveBoot 3 (State.fileHeld s1.link.held.length s1).beginSanitize).sanErases.askRescue.syncDirectory.drainWatch.ceRetryAll.parkAgain.burstWatch

/-- Waiting work brought up to date. It goes on with commands, operations, buffers and requests; the raster, the processors'
banks, notice queues, interrupts, transfers, the field port and the other fields named here are none of its results. -/
def State.progress (s : State) : State :=
  let t := s.catchUp.tidyOps.grantSoft
  { t with
    link := { s.link with
      windows := t.link.windows, out0 := t.link.out0, out1 := t.link.out1, held := t.link.held
      owe0 := t.link.owe0 }
    raster := s.raster
    nextVer := s.nextVer
    hostCws := s.hostCws
    origins := s.origins
    walking := s.walking
    running := s.running
    interimBlocks := s.interimBlocks
    zeroFrom := s.zeroFrom
    stallFrom := s.stallFrom
    lostDies := s.lostDies
    comet := s.comet
    codes := s.codes
    codeErr := s.codeErr
    calSnapFrom := s.calSnapFrom
    clusters := s.clusters
    ctxs := s.ctxs
    activation := s.activation
    offers := s.offers
    nqs := s.nqs
    ints := s.ints
    procs := s.procs
    xfers := s.xfers
    cfg := s.cfg
    fn := s.fn
    frozen := s.frozen }

end Sys2Proof.Machine
end

