-- ==== Sys2Proof/Machine/MediaOps.lean ====
section
/-!
DEFINITION. Machine/MediaOps.lean: die operations from their queue to their end (R54, R236 to R243, R259 to R261), their
microcode routines (R375, R376, R393), and the failure of a die (R196, R198, R264, R265).
-/

namespace Sys2Proof.Machine

open Sys2Proof

/-! ### Routines (R375, R393) -/

/-- The word address of a dispatch kind in a die's profile; 0xFFFF means absent (R395). -/
def State.dispatchAddr (s : State) (d kind : Nat) : Nat := s.profile d (136 + 2 * kind) 2

/-- The code of an operation's codewords: interim and rescue pages, which lie in no area of R338, use that of class 0 (R339), the rest the
code of their block. -/
def State.opCode (s : State) (o : DieOp) : Nat :=
  match o.kind with
  | .read js => ((js.head?.bind s.job?).map fun j => ppaCode j.ppa).getD 0
  | .program sb _ _ | .parity sb _ _ _ => s.sbCode sb
  | .interim _ _ _ | .rescue _ _ _ _ => s.classCode 0
  | _ => 0

/-- L, the stored bytes of one codeword of an operation (R381). -/
def State.opStored (s : State) (o : DieOp) : Nat := s.codeStored (s.opCode o)

/-- A routine of an operation starts on its die's context; one that held a token keeps it (R385, R390). -/
def State.runRoutine (s : State) (o : DieOp) (r : Routine) : State :=
  let p := s.opPlace o
  let old := s.ctxOf o.die
  let c : Ctx := { seq := dieChannel o.die, ctx := dieSlot o.die, run := 1, kind := r.kind, pc := s.dispatchAddr o.die r.kind
                   plane := if r.kind = 10 then r.a2 else p.1, page := p.2.2, col := if r.kind = 10 then r.a1 * s.opStored o else 0
                   args := [s.rowAddr o.die p.1 p.2.1 p.2.2, r.a1, r.a2], runAt := s.now
                   token := old.bind fun x => x.token, op := some o.id }
  { s with ctxs := s.ctxs.filter (fun x => !(x.seq == c.seq && x.ctx == c.ctx)) ++ [c] }

/-- The pages of a continuous read beyond the one sensed last join the queue again as a read of their own (R247). -/
def State.splitRun (s : State) (o : DieOp) : State :=
  let later := (s.readJobs o).filter fun j => o.sensing.any fun k => k < ppaPage j.ppa
  if later.isEmpty then s
  else
    let ids := later.map fun j => j.id
    let keep (k : OpKind) : OpKind := match k with
      | .read js => .read (js.filter fun i => !(ids.contains i))
      | x => x
    (s.updOp o.id fun x => { x with kind := keep x.kind }).addOp o.die (.read ids) o.stamp o.cls

/-- The next routine of an operation is dispatched (R376). -/
def State.takeRoutine (s : State) (id : Nat) : State :=
  match s.op? id with
  | none => s
  | some o => match s.routineOf o with
    | none => s
    | some r =>
      let page := match r.job.bind s.job? with
        | some j => ppaPage j.ppa
        | none => (s.opPlace o).2.2
      let o1 := o.ran r (s.calDie o.die).gen page
      let s1 := (s.updOp id fun _ => o1).runRoutine o1 r
      if r.kind = 13 then s1.splitRun o1 else s1

/-- The context of a die made idle; the CE and the bus that it held are released. -/
def State.idleCtx (s : State) (d : Nat) : State :=
  let open_ := (s.ctxOf d).any fun c => c.txOpen
  { s with ctxs := s.ctxs.filter fun x => !(x.seq == dieChannel d && x.ctx == dieSlot d)
           chans := if open_ then mapUpd s.chans (dieChannel d) {} fun c => { c with ce := [], busOwner := none } else s.chans }

/-- The routine of an operation is over on its die's context: it holds the token of the suspended operation it was run in
front of, or is idle (R390). -/
def State.leaveCtx (s : State) (d op : Nat) : State :=
  match s.ctxOf d with
  | some c =>
    if c.op != some op then s
    else match c.token with
      | some t =>
        let under := (s.arrayOp d).map fun o => o.id
        let c1 : Ctx := { c with run := 4, op := under, kind := t.kind, cws := 0 }
        { s with ctxs := s.ctxs.map fun x => if x.seq == c.seq && x.ctx == c.ctx then c1 else x }
      | none => s.idleCtx d
  | none => s

/-- A LUN reset of a die: its routine runs on the die's context, and what the die has started is cut off (R259). -/
def State.lunReset (s : State) (d : Nat) : State :=
  let s1 := (s.idleCtx d).updDie d fun i => { i with resetting := true }
  let c : Ctx := { seq := dieChannel d, ctx := dieSlot d, run := 1, kind := 2, pc := s1.dispatchAddr d 2, runAt := s.now }
  { s1 with ops := s1.ops.map fun (x : DieOp) => if x.die == d && x.started then { x with resetting := true } else x
            ctxs := s1.ctxs ++ [c] }

/-- Whether a RASTER program starts in its own slot's tick (R54). -/
def State.inOwnTick (s : State) (o : DieOp) : Bool :=
  match o.kind with
  | .program sb _ _ | .parity sb _ _ _ => match s.orbitTable, (s.openSb? sb).bind fun b => b.row.bind fun r => r.tickNo with
    | some _, some k => s.orbit.tickNo == k
    | _, _ => true
  | _ => true

/-- What starting an operation does besides its routine; false where it must wait for an accumulator (R182), or for an interim block
with room (R183). -/
def State.beginOp (s : State) (o : DieOp) : State × Bool :=
  match o.kind with
  | .read js =>
    let upd (j : Job) : Job := if !(js.contains j.id) then j else if o.spec then { j with spec := .inFlight }
      else { j with gen := (s.calDie o.die).gen }
    ({ s with jobs := s.jobs.map upd }, true)
  | .program sb _ m =>
    s.startUnit sb m
  | .parity sb _ _ _ => s.reload sb
  | .interim sb _ _ => match s.openSb? sb with
    | some b =>
      if (s.interimOf o.die (s.interimPages b)).isSome then (s, true)
      else (s.askAlloc { prio := 4, unit := b.unit, maint := b.maint, die := o.die }, false)
    | none => (s, false)
  | .erase bs _ => (s.cometDiscard fun h => bs.contains (ppaBlk h.ppa), true)
  | _ => (s, true)

/-- Whether a read can be part of a continuous read: each codeword is a first attempt, for a READ or the comet, on one page (R246). -/
def State.runnable (s : State) (o : DieOp) : Bool :=
  let js := s.readJobs o
  !js.isEmpty && !o.spec && js.all fun j => j.step == 0 && ppaBlk j.ppa == ppaBlk (js.headD j).ppa && ppaPage j.ppa == ppaPage (js.headD j).ppa
    && (match j.purpose with
      | .read _ _ | .comet _ _ _ _ => true
      | _ => false)

/-- A read about to start takes with it the waiting reads of the consecutive pages that follow it in its plane and block, where the
profile declares sequential cache read (R246). -/
def State.takeRun (s : State) (id : Nat) : Nat → State
  | 0 => s
  | fuel + 1 =>
    match s.op? id with
    | none => s
    | some o => match (s.readJobs o).getLast? with
      | none => s
      | some l =>
        let follows (x : DieOp) : Bool := x.id != id && x.die == o.die && s.runnable x && s.opEligible x
          && (s.readJobs x).any fun j => ppaBlk j.ppa == ppaBlk l.ppa && ppaPage j.ppa == ppaPage l.ppa + 1
        match s.ops.find? follows with
        | none => s
        | some x =>
          let more := (s.readJobs x).map fun j => j.id
          let join (k : OpKind) : OpKind := match k with
            | .read js => .read (js ++ more)
            | y => y
          ((s.dropOp x.id).updOp id fun y => { y with kind := join y.kind, cont := true }).takeRun id fuel

/-- An operation starts: its clock runs, its first routine is dispatched (R241, R246, R259, R376). -/
def State.startOp (s : State) (o : DieOp) : State :=
  let run := if s.dieFlag o.die 1 && s.runnable o then s.takeRun o.id s.ops.length else s
  let r := run.beginOp ((run.op? o.id).getD o)
  if !r.2 then r.1
  else (r.1.updOp o.id fun x => { x with started := true, began := s.now, startedAt := s.now }).takeRoutine o.id

/-! ### Ends of operations -/

/-- The limit of R259 of an operation in progress, from its confirm. -/
def State.opLimit (s : State) (o : DieOp) : Nat :=
  s.opMaxNs o * s.objN Obj.CH_TIMEOUT_PCT 0 (dieChannel o.die) / 100 + o.suspendedNs

/-- An operation that ends later than its declared maximum, but before its limit, is slow: it is counted; the first and every 1,024th
after it queue DIE_SLOW (R261). -/
def State.noteSlow (s : State) (o : DieOp) : State :=
  if o.confirmed && !o.resetting && o.startedAt + s.opMaxNs o + o.suspendedNs < s.now && s.now < o.startedAt + s.opLimit o then
    let n := s.objN Obj.DIE_SLOW (dieSlot o.die) (dieChannel o.die)
    let s1 := s.bump Obj.DIE_SLOW (dieSlot o.die) (dieChannel o.die)
    if n % 1024 = 0 then s1.classNotice 0x41 1 o.die [(2, o.die), (4, n + 1)] else s1
  else s

/-- The key of a place of a rescue page in the parity of its row. -/
def rescueKey (row page key : Nat) : Nat := (row * 2 ^ 16 + page) * 64 + key

/-- A failed rescue unit of data is done again on the next rescue row that has a page left, where that page's parity follows it (R365). -/
def State.rescueAgain (s : State) (row m : Nat) (cws : List (Nat × Nat × Nat)) : State :=
  let next := minBy (fun (r : RescueSet) => r.row) (s.prot.rescueDir.filter fun r =>
    row < r.row && r.member == m && s.diePresent r.die && mapGetD s.prot.drainPages r.row 0 < s.classPages r.die 0)
  match next with
  | none => s
  | some r =>
    let page := mapGetD s.prot.drainPages r.row 0
    let s1 := { s with prot := { s.prot with drainPages := mapPut s.prot.drainPages r.row (page + 1) } }
    let s2 := s1.addOp r.die (.rescue r.row m page cws) (r.row * 2 ^ 20 + page) 0
    match s.prot.rescueDir.find? fun x => x.row == r.row && x.member == 15 with
    | some p => s2.addOp p.die (.rescue r.row 15 page []) (r.row * 2 ^ 20 + page) 0
    | none => s2

/-- A rescue unit has status (R365): its codewords are drained, their payloads are in the row's parity and its set is spent; or
it is redone on the next rescue row. -/
def State.rescueDone (s : State) (row m page : Nat) (cws : List (Nat × Nat × Nat)) (good : Bool) : State :=
  let hit := s.prot.rescueDir.find? fun r => r.row == row && r.member == m
  let spend (r : RescueSet) : RescueSet := if hit.any fun h => h.die == r.die && h.block == r.block then { r with spent := true } else r
  let s1 := { s with prot := { s.prot with rescueDir := s.prot.rescueDir.map spend, rescue := s.prot.rescue.map spend } }
  if good then
    let seqs := cws.map fun c => ((s.version? c.2.1).map fun v => v.wseqs.getD c.2.2 0).getD 0
    let acc := cws.foldl (fun a c => accAdd a (rescueKey row page c.1) (s.cwPayload (.ver c.2.1 c.2.2))) s1.prot.rescueAcc
    { s1 with prot := { s1.prot with drainCws := s1.prot.drainCws + cws.length
                                     drainHigh := seqs.foldl max s1.prot.drainHigh
                                     rescueAcc := acc
                                     drainQueue := s1.prot.drainQueue.filter fun i => !(cws.any fun c => c.2.1 == i) } }
  else if m = 15 then s1 else s1.rescueAgain row m cws

/-- A failed program of an interim record: its block is GROWN_BAD and kept no longer; the half is written again in a new one
(R183). -/
def State.interimBad (s : State) (i d : Nat) : State :=
  match (s.openSb? i).bind fun b => s.interimOf d (s.interimPages b) with
  | some x => { s.growBad x.1 with interimBlocks := s.interimBlocks.filter fun y => y.2.1 != x.1 }
  | none => s

/-- An erase has status: what its owner makes of it (R209, R210, R356, R369, R371). -/
def State.eraseEnd (s : State) (bs : List BlockAddr) (cmd : Option Nat) (good : Bool) : State :=
  let plain (a : State) : State := bs.foldl (fun x b => if good then x.eraseGood b else x.eraseBad b) a
  let owner := (cmd.bind s.cmd?).bind fun c => if c.isEnded || c.aborted then none else some c
  match owner with
  | some c =>
    if c.opcode == 0x23 then s.rawOpDone c true good
    else if c.opcode == 0x21 then (((plain s).dropTokens c.stamp).unlockBlocks c.stamp).finishOk c
    else bs.foldl (fun x b => x.purgeErased ((x.cmd? c.stamp).getD c) b good) s
  | none =>
    let more (d : Nat) : Bool := s.ops.any fun o => o.die == d && (match o.kind with
      | .erase _ none => true
      | _ => false)
    if cmd == some 0 then bs.foldl (fun x b => x.sanErased b good) s
    else if cmd.isSome then plain s else bs.foldl (fun x b => if more b.die then x else x.dropToken b.die 0) (plain s)

/-- The moves with a codeword in a member's program unit whose command is still at work. -/
def State.unitMoves (s : State) (i m : Nat) : List Version :=
  match s.openSb? i with
  | some b => ((unitVersions (b.unitCws m (s.perRow b))).filterMap s.version?).filter fun v =>
      (v.moveCmd.bind s.cmd?).any fun c => !c.over
  | none => []

/-- A granule whose target program failed is copied again from the source: its version is given up, and the move begins anew where the
entry still holds the source location; else it is left in place (R201, R202, R541). -/
def State.copyAgain (s : State) (v : Version) : State :=
  match v.moveFrom, v.moveCmd.bind s.cmd? with
  | some e, some c =>
    let s1 := s.dropVersion v.id
    if s.mapEntry v.unit v.granule == e.toNat then
      s1.beginMove c.stamp v.unit v.granule e.toNat [] false false (c.opcode == 0x2B)
    else s1.countMove c.stamp 0 false
  | _, _ => s

/-- A program unit of a member has failed status: what R541 states, its moves copied again, and data lost beyond its rows' parity
judged (R144, R199, R202, R541). -/
def State.unitBad (s : State) (i m : Nat) : State := ((s.unitMoves i m).foldl State.copyAgain (s.unitFailed i m)).judgeLost

/-- An operation has ended: it leaves its die's queue and what follows happens (R240, R541). -/
def State.opOver (s : State) (o : DieOp) (good : Bool) : State :=
  let s1 := s.dropOp o.id
  match o.kind with
  | .program sb wl m => if good then s1.unitGood sb wl m else s1.unitBad sb m
  | .parity sb _ m _ => if good then s1.parityGood sb m else s1.unitBad sb m
  | .interim sb wl m => if good then s1.interimGood sb wl m o.die else s1.interimBad sb o.die
  | .erase bs cmd => s1.eraseEnd bs cmd good
  | .rawProgram st => match s1.cmd? st with
    | some c =>
      if c.isEnded || c.aborted then s1
      else s1.rawOpDone c false good
    | none => s1
  | .zeroFill st b page => if st = 0 then s1.sanFilled b page good else match s1.cmd? st with
    | some c => if c.over then s1 else s1.purgeFilled c b page good
    | none => s1
  | .rescue row m page cws => s1.rescueDone row m page cws good
  | .read _ => s1

/-- An operation has status: a slow one is counted (R261); with a slot's program the die's budget window ends (R243). -/
def State.opDone (s : State) (o : DieOp) (good : Bool) : State :=
  let s1 := if o.cls == 0 && o.kind.unit then s.updDie o.die fun i => { i with slotOpen := false } else s
  (s1.noteSlow o).opOver o good

/-- Codewords whose read is made again: what had come of them is given up. -/
def State.restart (s : State) (js : List Nat) (spec : Bool) : State :=
  let upd (j : Job) : Job := if !(js.contains j.id) then j else if spec then { j with specData := [] } else { j with data := [] }
  { s with jobs := s.jobs.map upd }

/-- An operation failed by a time-out, a fault or a lost die (R259, R264): a read is issued again once, then its codewords go
to rebuild; anything else ends with failed status. -/
def State.opFailed (s : State) (o : DieOp) (again : Bool) : State :=
  let s0 := s.idleCtx o.die
  match o.kind with
  | .read js =>
    if again && !o.retried then
      (s0.updOp o.id fun x => { x with started := false, retried := true, resetting := false, badReads := 0, shownReady := false
                                       confirmed := false, applied := none, sensing := none, cached := none, loading := none, cont := false, ended := false
                                       outs := [], focus := none }).restart js o.spec
    else
      let s1 := s0.dropOp o.id
      let upd (j : Job) : Job := if !(js.contains j.id) then j else if o.spec then { j with spec := .none } else { j with step := 100 }
      { s1 with jobs := s1.jobs.map upd }
  | _ => s0.opOver { o with started := true } false

/-! ### The failure of a die -/

/-- Every operation of a die ends as those of a FAILED die do (R230, R264): reads go to rebuild, program units return to
placement with their member, anything else fails. -/
def State.clearQueue (s : State) (d : Nat) : State :=
  (s.ops.filter fun o => o.die == d).foldl (fun a o => match o.kind with
    | .program _ _ _ | .parity _ _ _ _ | .interim _ _ _ => a.dropOp o.id
    | _ => a.opFailed o false) ((s.idleCtx d).updDie d fun i => { i with resetting := false })

/-- Every operation of a die that is lost ends, its program units return to placement, and each superblock loses its member there; how
many are affected (R196, R230, R264). -/
def State.loseDie (s : State) (d : Nat) : State × Nat :=
  let l := (s.clearQueue d).loseDieMembers d
  ({ l.1 with allocReqs := l.1.allocReqs.filter fun r => !(r.prio == 4 && r.die == d),
              interimBlocks := l.1.interimBlocks.filter fun x => x.1 != d }, l.2)

/-- A PRESENT die is declared FAILED (R196, R198, R264, R265). -/
def State.failDie (s : State) (d cause detail : Nat) : State :=
  let s1 := (s.setDieState d 3).setObjN Obj.DIE_CAUSE (cause + detail % 256 * 256) (dieSlot d) (dieChannel d)
  let s2 := s1.cometDiscard fun h => ppaDie h.ppa == d
  let l := s2.loseDie d
  let s3 := { l.1 with stallFrom := some l.1.now, lostDies := l.1.lostDies ++ [(d, l.2, l.1.now)] }
  let s4 := (s3.event 0x10 d (s3.objN Obj.DIE_CAUSE (dieSlot d) (dieChannel d)) 1).judgeLost
  if s4.modes.current.orbit && s4.planStreams != [] then s4.replan s4.modes.current else s4

/-- A declaration of R264 on any die slot: PRESENT fails with DIE_LOST; QUARANTINED fails silently under a firmware
declaration; ABSENT and FAILED stay. -/
def State.declareFailed (s : State) (d cause detail : Nat) : State :=
  let st := s.dieState d
  if st = 1 then s.failDie d cause detail
  else if st = 2 && cause = 21 then
    (s.setDieState d 3).setObjN Obj.DIE_CAUSE 21 (dieSlot d) (dieChannel d)
  else s

/-- A channel fault counted and noticed on entry into RECOVERING or FAILED (R263, R265), with which an enumeration of the channel is
over (R230). -/
def State.channelFault (s : State) (ch cause st : Nat) : State :=
  let s0 := s.updChan ch fun c => { c with st, lastFault := if cause = 0 then c.lastFault else cause }
  let s1 := (s0.bump Obj.CH_FAULTS 0 ch (if cause = 0 then 0 else 1)).setObjN Obj.CH_CTRL 0 0 ch
  let s2 := s1.classNotice 0x42 1 ch [(1, ch), (1, (s1.chan ch).lastFault), (1, (s1.chan ch).phy)]
  s2.event 0x11 ch (s2.chStatus ch) 2

/-- The length of a PHY_RST_N pulse: 64 PCLK cycles, or 100 ns when PCLK has stopped (R263). -/
def Chan.pulseNs (c : Chan) : Nat := if tbit c.phy 0 && c.rate != 0 then ceilDiv (64 * 8 * 1000) c.rate else 100

/-- A channel fault (R263): the channel enters RECOVERING, no transaction is finished, PHY_RST_N is pulsed; what its dies have started is
cut off. -/
def State.recoverFrom (s : State) (ch cause : Nat) : State :=
  let s1 := (s.channelFault ch cause 4).updChan ch fun c =>
    { c with recoverAt := s.now, rstUntil := s.now + c.pulseNs, busOwner := none, ce := [], training := false, lockWait := false }
  let hit := distinct ((s1.ops.filter fun o => dieChannel o.die == ch && o.started).map fun o => o.die)
  let s2 := hit.foldl (fun a d => a.updDie d fun i => { i with resetting := true }) s1
  { s2 with ops := s2.ops.map fun (o : DieOp) => if dieChannel o.die == ch && o.started then { o with resetting := true } else o
            ctxs := s2.ctxs.filter fun x => x.seq != ch && !(x.seq == 64 + ch % 4 && x.ctx == ch / 4) }

/-- A channel FAILED: every PRESENT die of it is declared so (R196, R263, R264). Only the entry into FAILED is noticed (R265). -/
def State.failChannel (s : State) (ch cause : Nat) : State :=
  let s1 := if (s.chan ch).st == 5 then s else s.channelFault ch 0 5
  (List.range 16).foldl (fun a k => a.declareFailed (16 * ch + k) cause 0) s1

end Sys2Proof.Machine
end

