-- ==== Sys2Proof/Machine/Buffers.lean ====
section
/-!
DEFINITION. Machine/Buffers.lean: the meanings of the buffer pool commands (R409 to R417, R438, R439) and of the copy
engine's (R430, R435, R436, R442, R443).
-/

namespace Sys2Proof.Machine

open Sys2Proof

/-! ### Pools -/

/-- A range of DRAM set to zero. -/
def State.memClear (s : State) (a n : Nat) : State :=
  { s with mem := s.mem.filter fun c => decide (c.1 < a) || decide (a + n ≤ c.1) }

/-- The reserves of all requesters for a pool (R409). -/
def State.reserveSum (s : State) (p : Nat) : Nat := sumOf ((List.range 32).map fun r => s.bufReserve r p)

/-- Whether a pool may be enabled (R409). -/
def State.poolFits (s : State) (p : Nat) : Bool :=
  let n := s.objN Obj.POOL_COUNT p
  n != 0 && s.reserveSum p ≤ n

/-- A pool enabled: an empty descriptor table, every handle in the free ring, READY (R409). What the ring holds afterwards is
undefined and nothing in the block reads it (log 254). -/
def State.enablePool (s : State) (p : Nat) : State :=
  let n := s.objN Obj.POOL_COUNT p
  let s1 := s.memClear (s.objN Obj.POOL_DESC_BASE p) (16 * n)
  let ring := ((List.range n).map fun i => leBytes 4 (handleOf p i)).flatten
  (s1.memWrite (s.objN Obj.POOL_RING_BASE p) ring).updPool p fun x => { x with ready := true }

/-- POOL_CTRL written: each ENABLE bit newly 1 is checked; a bit once 1 stays 1 until reset (R409). -/
def writePoolCtrl (s : State) (v : Nat) : State × Nat :=
  let was := s.objN Obj.POOL_CTRL
  let new := (List.range 5).filter fun p => tbit v p && !(tbit was p)
  if new.all s.poolFits then
    let s1 := new.foldl State.enablePool s
    (s1.setObjN Obj.POOL_CTRL (sumOf ((List.range 5).map fun p => flag (tbit was p || tbit v p) p)), rcOk)
  else s.outOfRange

/-- POOL_ENABLE. -/
def execPoolEnable (dt : Nat) (path : DictPath) (value : W64) (s : State) : Host.Outcome State Fault Refusal :=
  s.functional dt fun s => (s.writeCmd path Obj.POOL_CTRL value writePoolCtrl).progress

/-- A pool's set-up objects, writable while its ENABLE is 0 (R409). -/
def writePoolSetup (o : Obj) (p : Nat) (s : State) (v : Nat) : State × Nat :=
  if tbit (s.objN Obj.POOL_CTRL) p then s.outOfRange else s.store o p 0 v

/-- BUF_QUOTA written: no pool field below the requester's reserve, and the reserves of an enabled pool within its count; 4,095
is unlimited (R439). -/
def writeQuota (r : Nat) (s : State) (v : Nat) : State × Nat :=
  if (List.range 5).all fun p => s.bufReserve r p ≤ poolField v p
      && !(tbit (s.objN Obj.POOL_CTRL) p && s.objN Obj.POOL_COUNT p < s.reserveSum p) then s.store Obj.BUF_QUOTA r 0 v else s.outOfRange

/-- BUF_RESERVE written: no field above the quota, and an enabled pool still covers every reserve (R439). -/
def writeReserve (r : Nat) (s : State) (v : Nat) : State × Nat :=
  let ok (p : Nat) : Bool :=
    poolField v p ≤ poolField (s.objN Obj.BUF_QUOTA r) p
      && !(tbit (s.objN Obj.POOL_CTRL) p && s.objN Obj.POOL_COUNT p < s.reserveSum p - s.bufReserve r p + poolField v p)
  if (List.range 5).all ok then s.store Obj.BUF_RESERVE r 0 v else s.outOfRange

/-! ### Firmware buffers (R417) -/

/-- The requester of a processor (R410). -/
def procRequester (p : Nat) : Nat := 24 + p

/-- BUF_ALLOC read: it takes part in the arbitration of its cycle against the waiting requests and wins a buffer or answers
NOBUF (R412, R417). -/
def readBufAlloc (proc pool : Nat) (s : State) : State × Nat × Nat :=
  let r := procRequester proc
  if s.winsNow pool r then
    let g := (s.noteWinner pool r).grantBuf r pool
    (g.1, rcOk, g.2)
  else (s.bump Obj.BUF_NOBUF, rcOk, noBuf)

/-- BUF_ALLOC. -/
def execBufAlloc (dt : Nat) (proc pool : Nat) (s : State) : Host.Outcome State Fault Refusal :=
  s.functional dt fun s => if pool < 5 then s.readCmd (.cfg proc) Obj.BUF_ALLOC (readBufAlloc proc pool) pool else s

/-- The answer of a buffer operation: a refused write fails as a value out of range (R417). -/
def bufAnswer (x : State × Bool) : State × Nat := (x.1, if x.2 then rcOk else rcRange)

/-- BUF_FREE written. -/
def writeBufFree (proc : Nat) (s : State) (v : Nat) : State × Nat := bufAnswer (s.bufDrop (procRequester proc) v)

/-- BUF_FREE. -/
def execBufFree (dt : Nat) (proc : Nat) (handle : W64) (s : State) : Host.Outcome State Fault Refusal :=
  s.functional dt fun s => (s.writeCmd (.cfg proc) Obj.BUF_FREE handle (writeBufFree proc)).progress

/-- The handle of the READY pool's buffer that begins exactly at an address (R415). -/
def State.bufAtAddr (s : State) (a : Nat) : Option Nat :=
  ((List.range 5).find? fun p =>
    let b := s.objN Obj.POOL_BASE p
    (s.pool p).ready && b ≤ a && (a - b) % poolBytes p == 0 && (a - b) / poolBytes p < s.objN Obj.POOL_COUNT p).map fun p =>
      handleOf p ((a - s.objN Obj.POOL_BASE p) / poolBytes p)

/-- BUF_FREE_ADDR written. -/
def writeBufFreeAddr (proc : Nat) (s : State) (v : Nat) : State × Nat :=
  match s.bufAtAddr v with
  | some h => bufAnswer (s.bufDrop (procRequester proc) h)
  | none => (s.bufRefuse 0x20 (procRequester proc) v, rcRange)

/-- BUF_FREE_ADDR. -/
def execBufFreeAddr (dt : Nat) (proc : Nat) (addr : W64) (s : State) : Host.Outcome State Fault Refusal :=
  s.functional dt fun s => (s.writeCmd (.cfg proc) Obj.BUF_FREE_ADDR addr (writeBufFreeAddr proc)).progress

/-- BUF_REF written. -/
def writeBufRef (proc : Nat) (s : State) (v : Nat) : State × Nat := bufAnswer (s.bufRaise (procRequester proc) v)

/-- BUF_REF. -/
def execBufRef (dt : Nat) (proc : Nat) (handle : W64) (s : State) : Host.Outcome State Fault Refusal :=
  s.functional dt fun s => s.writeCmd (.cfg proc) Obj.BUF_REF handle (writeBufRef proc)

/-! ### Copy engine -/

/-- CE_CTRL written (R442, R443): while BUSY only an ABORT without START is taken. -/
def writeCeCtrl (ch : Nat) (s : State) (v : Nat) : State × Nat :=
  if (s.ceChan ch).busy then
    if tbit v 2 && !(tbit v 0) then ((s.updCe ch fun c => { c with abort := true }).ceRetry ch, rcOk) else s.outOfRange
  else if tbit v 0 then (s.ceStart ch v, rcOk)
  else (s.updCe ch fun c => { c with ctrl := setBits v 2 1 0 }, rcOk)

/-- CE_SRC, CE_DST, CE_LEN and CE_LIST, writable while BUSY is 0 (R442). -/
def writeCeField (o : Obj) (ch : Nat) (s : State) (v : Nat) : State × Nat :=
  if (s.ceChan ch).busy then s.outOfRange else s.store o 0 ch v

/-- CE_STATUS written: DONE, ERR and ELEM are cleared by 1 (R436, R443). -/
def writeCeStatus (ch : Nat) (s : State) (v : Nat) : State × Nat :=
  if (s.ceChan ch).busy then s.outOfRange
  else (s.updCe ch fun c => { c with done := c.done && !(tbit v 1), err := c.err && !(tbit v 2), elem := c.elem && !(tbit v 3) },
        rcOk)

/-- CE_START: CE_CTRL written with START = 1. -/
def execCeStart (dt : Nat) (path : DictPath) (ch : Nat) (value : W64) (s : State) : Host.Outcome State Fault Refusal :=
  s.functional dt fun s => (s.writeCmd path Obj.CE_CTRL (w64 (setBits value.toNat 0 1 1)) (writeCeCtrl ch) 0 ch).progress

/-- CE_ABORT: CE_CTRL written with ABORT = 1 and START = 0. -/
def execCeAbort (dt : Nat) (path : DictPath) (ch : Nat) (s : State) : Host.Outcome State Fault Refusal :=
  s.functional dt fun s =>
    (s.writeCmd path Obj.CE_CTRL (w64 (setBits (s.ceChan ch).ctrl 2 1 1)) (writeCeCtrl ch) 0 ch).progress

/-- CE_DONE. -/
def execCeDone (dt : Nat) (ch : Nat) (s : State) : Host.Outcome State Fault Refusal := s.functional dt fun s => s.ceEnd ch

end Sys2Proof.Machine
end

