-- ==== Sys2Proof/Machine/HostLink.lean ====
section
/-!
DEFINITION. Machine/HostLink.lean: the meanings of the host link's commands: link-up and link-down (R73, R90), credit (R74),
DATA (R92), queue resets (R94), windows (R88, R93) and stalls (R77). PACKET_SEND stands in Machine/LinkSend.lean.
-/

namespace Sys2Proof.Machine

open Sys2Proof

/-! ### Link-up and link-down -/

/-- The front end's advertisement: enough brings the link to UP_WAIT, with the block's LINK UP (R73). -/
def State.takeCrdt (s : State) (vc0 vc1 : Nat) : State :=
  if vc0 < 4 ∨ vc1 < 65 then s.toDown 14
  else
    let crc := s.objN Obj.LINK_CRC_EN != 0
    s.setLink fun l => { l with st := 2, peer0 := vc0, peer1 := vc1, tx0 := vc0, tx1 := vc1, crdtIn := none, crcSent := crc,
                                out0 := l.out0 ++ [.link 1 0 crc 0] }

/-- A LINK DOWN packet. -/
def OutPkt.isDown : OutPkt → Bool
  | .link kind _ _ _ => kind == 2
  | _ => false

/-- LINK_READY: both READY pins 1 in DOWN (R73). -/
def execLinkReady (dt : Nat) (s : State) : Host.Outcome State Fault Refusal :=
  s.functional dt fun s =>
    if s.ready && s.link.st == 0 then
      let s1 := s.setLink fun l => { l with
        st := 1, peer0 := 0, peer1 := 0
        out0 := l.out0.filter (fun p => !p.isDown) ++ [.crdt (s.objN Obj.HL_RX_VC0) (s.objN Obj.HL_RX_VC1)] }
      match s.link.crdtIn with
      | some (a, b) => (s1.setLink fun l => { l with crdtIn := none }).takeCrdt a b
      | none => s1
    else s

/-- READY_DROP: HLI_READY sampled 0 outside DOWN (R90, code 12). -/
def execReadyDrop (dt : Nat) (s : State) : Host.Outcome State Fault Refusal :=
  s.functional dt fun s => if s.link.st = 0 then s else s.toDown 12

/-- CRDT: kept while DOWN, taken in CREDIT_EXCHANGE (R73). -/
def execCrdt (dt : Nat) (pkt : Packet) (gap : Nat) (s : State) : Host.Outcome State Fault Refusal :=
  s.functional dt fun s => s.arrive 8 0 (some gap) pkt fun a p =>
    let x := hbits p.hdr 32 32
    let y := hbits p.hdr 64 32
    if a.link.st = 0 then a.setLink fun l => { l with crdtIn := some (x, y) } else a.takeCrdt x y

/-- LINK UP received: in UP_WAIT a CRC_EN equal to the block's brings the link UP (R73). In any other state it has no effect
(DESIGN CHOICE, log 235). -/
def State.peerUp (s : State) (crc : Bool) : State :=
  if s.link.st != 2 then s
  else if crc != s.link.crcSent then s.toDown 14
  else (s.setLink fun l => { l with st := 3, crcActive := crc, vc0Run := 0 }).bumpWrap Obj.HL_LINK_UPS

/-- LINK_UP. -/
def execLinkUp (dt : Nat) (pkt : Packet) (gap : Nat) (s : State) : Host.Outcome State Fault Refusal :=
  s.functional dt fun s => s.arrive 9 1 (some gap) pkt fun a p => a.peerUp (tbit p.hdr.toNat 40)

/-- LINK_DOWN (R90, code 13). -/
def execLinkDown (dt : Nat) (pkt : Packet) (gap : Nat) (s : State) : Host.Outcome State Fault Refusal :=
  s.functional dt fun s => s.arrive 9 2 (some gap) pkt fun a _ => a.toDown 13

/-- LINK_ECHO: its DETAIL is repeated in an ECHO_REPLY (R86). -/
def execLinkEcho (dt : Nat) (pkt : Packet) (gap : Nat) (s : State) : Host.Outcome State Fault Refusal :=
  s.functional dt fun s => s.arrive 9 4 (some gap) pkt fun a p =>
    a.setLink fun l => { l with out0 := l.out0 ++ [.link 5 0 false (hbits p.hdr 96 32)] }

/-! ### Credit -/

/-- CREDIT_RETURN: counters rise, each at most to the advertisement; more is excess (R74, R91). Before the front end has
advertised there is nothing to return. -/
def execCreditReturn (dt : Nat) (vc0 vc1 : Nat) (s : State) : Host.Outcome State Fault Refusal :=
  s.functional dt fun s =>
    let a := s.link.tx0 + vc0 % 16
    let b := s.link.tx1 + vc1 % 16
    if s.link.st = 0 ∨ s.link.peer0 = 0 then s
    else
      let s1 := s.setLink fun l => { l with tx0 := min a l.peer0, tx1 := min b l.peer1 }
      if s.link.peer0 < a ∨ s.link.peer1 < b then s1.countCode 16 else s1

/-- HOST_LINK_STALL: an outbound counter has stayed short for HL_STALL_NS (R77). -/
def execHostLinkStall (dt : Nat) (s : State) : Host.Outcome State Fault Refusal :=
  s.functional dt fun s =>
    let limit := s.objN Obj.HL_STALL_NS
    let beyond (since : Option Nat) : Bool := since.any fun t => t + limit ≤ s.now
    let new0 := beyond s.link.short0 && !s.link.stall0
    let new1 := beyond s.link.short1 && !s.link.stall1
    if new0 || new1 then
      let s1 := s.setLink fun l => { l with stall0 := l.stall0 || new0, stall1 := l.stall1 || new1 }
      s1.classNotice 0x58 3 0 [(4, s1.link.st + flag s1.link.crcActive 2 + flag true 3 + s1.link.lastError * 2 ^ 16),
        (4, s1.link.tx0), (4, s1.link.tx1)]
    else s

/-! ### DATA -/

/-- A DATA packet that passed: ranges not yet received are taken, a full window closes (R92). -/
def State.takeData (s : State) (p : Packet) : State :=
  match s.dataWindow p.hdr with
  | none => s
  | some w =>
    let off := hbits p.hdr 96 32
    let n := hbits p.hdr 16 16 / 4096
    let s1 := (List.range n).foldl (fun a i =>
      let r := (off - w.offset) / 4096 + i
      match a.cmd? w.stamp with
      | some c => if w.got.contains r then a else a.putRange c (off / 4096 + i) ((p.payload.drop (4096 * i)).take 4096)
      | none => a) s
    let got := distinct (w.got ++ (List.range n).map fun i => (off - w.offset) / 4096 + i)
    let others := s1.link.windows.filter fun x => x.id != w.id
    let noted := s1.link.windows.map fun x => if x.id == w.id then { x with got } else x
    let s2 := s1.setLink fun l => { l with windows := if w.len / 4096 ≤ got.length then others else noted }
    (s2.returnCredit 1 p.beats).progress

/-- DATA. -/
def execData (dt : Nat) (pkt : Packet) (s : State) : Host.Outcome State Fault Refusal :=
  s.functional dt fun s => s.arrive 3 0 none pkt State.takeData

/-- WINDOW_EXPIRED: the window has not closed in its time: its command ends with DATA_TIMEOUT (R91, R93). -/
def execWindowExpired (dt : Nat) (windowId : Nat) (s : State) : Host.Outcome State Fault Refusal :=
  s.functional dt fun s =>
    match s.link.windows.find? (fun w => w.id == windowId && w.sentAt.any fun t => t + w.timeout ≤ s.now) with
    | some w =>
      let s1 := ((s.countCode 9).dropTokens w.stamp).unlockBlocks w.stamp
      (s1.failWrite w.stamp stDataTimeout (w.id % 65536 * 65536 + w.offset % 2 ^ 32 * 2 ^ 32)).progress
    | none => s

/-- XRDY_GRANT (R88, R104). -/
def execXrdyGrant (dt : Nat) (stamp : Nat) (s : State) : Host.Outcome State Fault Refusal :=
  s.functional dt fun s => s.grantWindow stamp

/-! ### Queue reset -/

/-- A QRST taken; with QMASK 0 it is answered at once (R94). -/
def State.takeQrst (s : State) (p : Packet) : State :=
  let tag := hbits p.hdr 32 16
  let mask := hbits p.hdr 96 64
  let s1 := s.returnCredit 0 p.beats
  if mask = 0 then s1.setLink fun l => { l with out0 := l.out0 ++ [.qrst tag 0] }
  else (s1.queueReset tag mask true).progress

/-- QRST. -/
def execQrst (dt : Nat) (pkt : Packet) (s : State) : Host.Outcome State Fault Refusal :=
  s.functional dt fun s => s.arrive 0xA 0 none pkt State.takeQrst

/-- QRST_DONE: QRSTs whose covered commands have all completed, their RESPs sent, are answered in order (R94). -/
def execQrstDone (dt : Nat) (s : State) : Host.Outcome State Fault Refusal :=
  s.functional dt fun s => State.answerQrsts s.link.qrsts.length s

end Sys2Proof.Machine
end

