-- ==== Sys2Proof/Machine/Starts.lean ====
section
/-!
DEFINITION. Machine/Starts.lean: the meanings of COMMAND_START, WRITE_ACCEPT, BUF_WAIT_TIMEOUT, BUF_GRANT, PAR_SPILL and
RO_WAIT_EXPIRED (R127, R138, R152, R182, R304, R412).
-/

namespace Sys2Proof.Machine

open Sys2Proof

/-! ### Starts (R127) -/

/-- Open streams as a mask (R106, MICROCODE_BUSY). -/
def State.openMask (s : State) : Nat := sumOf ((List.range 8).map fun i => flag (s.stream i).isOpen i)

/-- ACTIVATE_MICROCODE starts (R152, R401): refused with FORCE 0 while a RASTER stream is open; clusters without a checked
standby image that covers their dies drop out; the others quiesce. -/
def State.startActivate (s : State) (c : Cmd) : State :=
  if !c.force && s.streamOpen then s.finish c.stamp stMicrocodeBusy s.openMask
  else
    let named := s.maskClusters (c.count % 256)
    let ok (k : Nat) : Bool := (mapGetD s.clusters k {}).standby.isSome && s.covers k
    let go := named.filter ok
    let s1 := go.foldl (fun a k => { a with clusters := mapUpd a.clusters k {} fun x => { x with quiescing := true } }) s
    ({ s1 with activation := some { stamp := c.stamp, mask := go, dropped := named.filter (fun k => !(ok k)),
                                    startedAt := s.now } }).updCmd c.stamp fun d => { d with phase := .started }

/-- A DISCARD takes effect whole in its start (R139, R205). -/
def State.runDiscard (s : State) (c : Cmd) : State := (s.discardWhole c).finishOk c

/-- A started command that only asks: its phase, and a first list of work. -/
def State.beginWork (s : State) (c : Cmd) (work : List (Nat × Nat × Nat)) : State :=
  s.updCmd c.stamp fun d => { d with phase := .started, work }

/-- The first step of a command of each opcode. -/
def State.startCmd (s : State) (c : Cmd) : State :=
  let p := c.ppa
  let k := classPerPage (s.ledger (ppaBlk p)).cls
  match c.opcode with
  | 1 => s.startRead c
  | 2 => (s.beginWork c []).pumpWrite c.stamp
  | 3 => s.startFlush c
  | 4 => s.runDiscard c
  | 5 => s.startSecure c
  | 0x20 => s.updCmd c.stamp fun d =>
      { d with phase := .started, drawn := ppaPage p * k, sent := if c.count = 0 then 0 else (ppaPage p + c.count) * k }
  | 0x26 => s.updCmd c.stamp fun d => { d with phase := .started, drawn := 0, sent := 0 }
  | 0x23 => s.startRawProgram c
  | 0x24 => s.beginWork c ((List.range c.count).map fun i => (ppaDie p, ppaPlane p, ppaBlock p + i))
  | 0x25 => s.startCalibrate c
  | 0x28 => s.startPurgeCmd c
  | 0x29 => s.startReplay c
  | 0x2A => s.startActivate c
  | 0x2B => ((List.range 16).foldl (fun a u => a.noteBadAll u fun _ => true) s).beginWork c ((if tbit c.subop 0 then s.groupDies (dieChannel (ppaDie p)) else [ppaDie p]).map fun d => (d, 0, 0))
  | _ => s.beginWork c []

/-- Whether a filed command may take its first step (R33, R127, R152, R365): the order rules allow it; in PARK a command that
needs the media waits for the wake; from a power failure on nothing new starts but a DISCARD or a FLUSH; one activation runs
at a time. -/
def State.startable (s : State) (c : Cmd) : Bool :=
  s.mayStart c && !([7, 8, 9, 0xA, 0xB].contains c.opcode)
    && !(s.prot.pfail && c.opcode != 3 && c.opcode != 4)
    && !((s.modes.current == .park || s.modes.poweredDown || s.parkHolds) && s.needsMedia c)
    && !(c.opcode == 0x2A && s.activation.isSome)

/-- COMMAND_START. -/
def execCommandStart (dt : Nat) (stamp : Nat) (s : State) : Host.Outcome State Fault Refusal :=
  s.functional dt fun s => s.onMedia fun s =>
    match s.cmd? stamp with
    | some c => if s.startable c then (s.startCmd c).progress else s
    | none => s

/-- WRITE_ACCEPT (R138). -/
def execWriteAccept (dt : Nat) (stamp : Nat) (s : State) : Host.Outcome State Fault Refusal :=
  s.functional dt fun s => s.onMedia fun s =>
    match s.cmd? stamp with
    | some c => if s.mayAccept c then (s.acceptWrite c).progress else s
    | none => s

/-! ### Buffer waits and grants (R412) -/

/-- The command whose buffer a request is for. -/
def State.userCmd (s : State) (u : BufUser) : Option Nat :=
  match u with
  | .write st _ | .raw st _ | .stage st _ | .move st _ => some st
  | .member id _ => ((s.rebuilds.find? fun r => r.id == id).bind fun r => s.job? r.job).bind fun j => j.purpose.owner
  | .spill _ => none

/-- A command's buffer wait has run out: it ends with DATA_TIMEOUT, cause 1. OFFSET is the byte offset at which its next window
would begin, 0 for a command without windows (R106 names the OFFSET of a window or transfer: DESIGN CHOICE, log 56). -/
def State.waitTimeout (s : State) (st : Nat) : State :=
  match s.cmd? st with
  | none => s
  | some c =>
    if c.isEnded then s
    else
      let s1 := (s.bump Obj.BUF_WAIT_TIMEOUT).dropWaits fun u => s.userCmd u == some st
      let s2 := s1.cancelMedia st
      s2.endEarly st stDataTimeout (1 + 0xFFFF * 65536 + (if c.opcode == 2 || c.opcode == 0x23 then c.granted % 2 ^ 32 else 0) * 2 ^ 32)

/-- BUF_WAIT_TIMEOUT. -/
def execBufWaitTimeout (dt : Nat) (stamp : Nat) (s : State) : Host.Outcome State Fault Refusal :=
  s.functional dt fun s => s.onMedia fun s =>
    if s.pools.any fun p => p.2.waits.any fun w => s.userCmd w.user == some stamp && s.waitOver w
    then (s.waitTimeout stamp).progress else s

/-- What a granted buffer goes to (R88, R182, R201, R304, R406). -/
def State.takeBuf (s : State) (u : BufUser) (h : Nat) : State :=
  let give (st key : Nat) : State :=
    match s.cmd? st with
    | some c => if c.isEnded || c.aborted then s.dropBuf h else s.updCmd st fun d => { d with bufs := d.bufs ++ [(key, h)] }
    | none => s.dropBuf h
  match u with
  | .write st g => give st g
  | .raw st page => give st page
  | .stage st sector => give st (2 ^ 32 + sector)
  | .move st key => s.moveGranted st key h
  | .member id m => s.memberGranted id m h
  | .spill _ => s.dropBuf h

/-- A request taken off its pool's wait list. -/
def State.dropWait (s : State) (p : Nat) (w : BufReq) : State := s.updPool p fun x => { x with waits := x.waits.erase w }

/-- One grant of a pool: the winner's first request that waits in time; a parity spill takes all of its buffers or none
(R182, R412). -/
def State.grantOne (s : State) (p : Nat) : State :=
  let live := (s.pool p).waits.filter fun w => !(s.waitOver w)
  match s.bufWinner p (distinct (live.map fun w => w.requester)) with
  | none => s
  | some r => match live.find? fun w => w.requester == r with
    | none => s
    | some w => match w.user with
      | .spill sb =>
        let x := s.spillRow sb
        if x.2 then (x.1.noteWinner p r).dropWait p w
        else if (s.openSb? sb).any fun b => b.row.any fun row => row.spilled.isEmpty then s
        else s.dropWait p w
      | u =>
        let g := ((s.noteWinner p r).dropWait p w).grantBuf r p
        g.1.takeBuf u g.2

/-- BUF_GRANT. -/
def execBufGrant (dt : Nat) (pool : Nat) (s : State) : Host.Outcome State Fault Refusal :=
  s.functional dt fun s => s.onMedia fun s => if pool < 5 then (s.grantOne pool).progress else s

/-- PAR_SPILL: an accumulator that has taken no data for PAR_SPILL_NS is spilled, or waits for its buffers (R182). -/
def execParSpill (dt : Nat) (sb : Nat) (s : State) : Host.Outcome State Fault Refusal :=
  s.functional dt fun s => s.onMedia fun s =>
    match (s.openSb? sb).bind fun b => b.row with
    | some r =>
      if !r.spilled.isEmpty || s.now < r.accAt + s.objN Obj.PAR_SPILL_NS then s
      else
        let x := s.spillRow sb
        if x.2 then x.1.progress
        else if (s.pool 4).waits.any (fun w => w.user == .spill sb) || (s.openSb? sb).any (fun b => s.accBytes b == 0) then s
        else s.bufWait 4 18 (.spill sb) none
    | none => s

/-- RO_WAIT_EXPIRED: a READ that has waited RO_WAIT_NS for a slot in a cluster stages its other sectors there (R304). -/
def execRoWaitExpired (dt : Nat) (stamp : Nat) (cluster : Nat) (s : State) : Host.Outcome State Fault Refusal :=
  s.functional dt fun s => s.onMedia fun s =>
    match s.cmd? stamp with
    | some c =>
      let late (w : Nat × Nat × Nat) : Bool := w.1 == cluster && w.2.2 == 0 && w.2.1 + s.objN Obj.RO_WAIT_NS ≤ s.now
      if c.opcode == 1 && !c.isEnded && !c.aborted && c.work.any late then
        let mark (w : Nat × Nat × Nat) : Nat × Nat × Nat := if late w then (w.1, w.2.1, 1) else w
        (s.updCmd stamp fun d => { d with work := d.work.map mark }).issueRead stamp
      else s
    | none => s

end Sys2Proof.Machine
end

