-- ==== Sys2Proof/Machine/Place.lean ====
section
/-!
DEFINITION. Machine/Place.lean: the meanings of the placement commands: program and erase status (R166, R210, R541), the
allocator (R188 to R193), background erases (R183, R211, R364, R368), firmware's block changes (R195), MAP_UNDERLAY and
MAP_SAFE_SEQ (R169, R170), die failure and the return of RASTER admission (R196, R197).
-/

namespace Sys2Proof.Machine

open Sys2Proof

/-! ### Status of programs and erases -/

/-- The started program or erase of a die ends, once it has been confirmed and its latest status read has shown ready, with the FAIL bit of
that status: its context is idle, what waited goes on (R241, R383). -/
def State.arrayEnds (s : State) (die : Nat) (good : Bool) (kind : OpKind → Bool) : State :=
  match s.ops.find? fun o => o.die == die && o.started && !o.suspended && kind o.kind && !o.resetting && o.confirmed && o.shownReady
      && tbit o.status.toNat 0 == !good with
  | some o => ((s.opDone o good).leaveCtx die o.id).progress
  | none => s

/-- PROGRAM_DONE (R166, R541). -/
def execProgramDone (dt : Nat) (die : DieNo) (good : Bool) (s : State) : Host.Outcome State Fault Refusal :=
  s.functional dt fun s => s.onMedia fun s => s.arrayEnds die good OpKind.programs

/-- ERASE_DONE (R210). -/
def execEraseDone (dt : Nat) (die : DieNo) (good : Bool) (s : State) : Host.Outcome State Fault Refusal :=
  s.functional dt fun s => s.onMedia fun s => s.arrayEnds die good OpKind.erases

/-! ### The allocator -/

/-- ALLOC_CTRL written (R188, R219): ENABLE never returns to 0; its rise starts the walk. -/
def writeAllocCtrl (s : State) (v : Nat) : State × Nat :=
  let was := s.objN Obj.ALLOC_CTRL
  if tbit was 0 then (if tbit v 0 then s.store Obj.ALLOC_CTRL 0 0 v else s.outOfRange)
  else
    let s1 := s.setObjN Obj.ALLOC_CTRL v
    if tbit v 0 then ({ s1 with walking := true }, rcOk) else (s1, rcOk)

/-- ALLOC_ENABLE. -/
def execAllocEnable (dt : Nat) (path : DictPath) (value : W64) (s : State) : Host.Outcome State Fault Refusal :=
  s.functional dt fun s => s.writeCmd path Obj.ALLOC_CTRL value writeAllocCtrl

/-- The blocks of the system areas: the parameter-save pool, the raw area and the boot region (R338, R339). -/
def State.systemBlocks (s : State) : List BlockAddr :=
  let p := s.prot
  let area (f n : Nat) : List BlockAddr :=
    ([0, 16].map fun d => (List.range n).map fun i => ({ die := d, plane := 0, block := f + i } : BlockAddr)).flatten
  let pool := ([0, 16].map fun d => ((List.range 2).map fun pl => (List.range 32).map fun b =>
    ({ die := d, plane := pl, block := b + 1 } : BlockAddr)).flatten).flatten
  pool ++ area p.rawFirst p.rawCount ++ area p.bootFirst p.bootCount

/-- The walk: every FREE_READY entry becomes FREE_UNCHECKED; the system areas are written SYSTEM (R188, R339). -/
def State.walkLedger (s : State) : State :=
  let s1 := s.ledgerBlocks.foldl (fun a b =>
    if (a.ledger b).state == lsFreeReady then a.updLedger b fun e => { e with state := lsFreeUnchecked } else a) s
  s1.systemBlocks.foldl (fun a b => a.updLedger b fun e => { e with state := lsSystem }) s1

/-- ALLOC_WALK_DONE (R188). -/
def execAllocWalkDone (dt : Nat) (s : State) : Host.Outcome State Fault Refusal :=
  s.functional dt fun s => s.onMedia fun s =>
    if s.walking then ({ s.walkLedger with walking := false, running := true }).progress else s

/-- Whether block sets of some usable class remain for a request, checked or not (R144). -/
def State.blocksRemain (s : State) (r : AllocReq) : Bool :=
  let all := s.ledgerBlocks
  let prof := s.unitStripe r.unit
  (s.classAsk r.unit r.tclass (r.prio == 1) r.fold).any fun c => s.codeFits c && (s.groups prof).any fun g =>
    match s.groupMembers prof g with
    | some ms =>
      let zeros := (ms.filter fun d => !(s.diePresent d && s.dieRuns d c && !(s.underRebuild d) && s.freeSets all d c false != 0)).length
      zeros ≤ s.objN Obj.SB_ZERO_MAX && zeros < ms.length
    | none => false

/-- What follows when a request finds no block of any usable class: accepted data waits under MEDIA_FULL (R144), purges that
move data end (R209). -/
def State.noBlocks (s : State) (r : AllocReq) : State :=
  if s.blocksRemain r then s
  else if r.maint then (s.purgesWaiting r.unit).foldl (fun a c => a.purgeFull c) s
  else s.holdFull r.unit

/-- A rescue set taken: a block number with a FREE_READY class-0 block on every plane, held as SYSTEM (R363). -/
def State.takeRescue (s : State) (d : Nat) : State :=
  let np := (s.die d).planes
  let lists := (List.range np).map fun p => s.blocksOf s.ledgerBlocks d p 0 true
  let cands := (lists.headD []).filter fun b => lists.all fun l => l.any fun x => x.block == b.block
  let worst (b : BlockAddr) : Nat := ((List.range np).map fun p => (s.ledger { b with plane := p }).eraseCount).foldl max 0
  match (if np = 0 then none else minBy (fun b => worst b * 65536 + b.block) cands) with
  | some b =>
    let set : RescueSet := { die := d, block := b.block, planeMask := 2 ^ np - 1, row := 0, member := 0, spent := false }
    let s1 := set.blocks.foldl (fun a x => a.updLedger x fun e => { e with state := lsSystem, sb := 0xFFFFFFFF }) s
    { s1 with prot := { s1.prot with rescue := s1.prot.rescue ++ [set] } }
  | none => s

/-- An interim block for a die: the least-worn FREE_READY block of class 0, else one of class 1 or 3 made class 0, held as
SYSTEM; with neither, the rows that asked are closed instead (R183). -/
def State.takeInterim (s : State) (r : AllocReq) : State :=
  let all := s.ledgerBlocks
  let wear (b : BlockAddr) : Nat := ((s.ledger b).eraseCount * 65536 + b.block) * 8 + b.plane
  let pick := match s.pickOne all r.die 0 with
    | some b => some b
    | none => minBy wear ([s.pickOne all r.die 1, s.pickOne all r.die 3].filterMap id)
  match pick with
  | some b =>
    let s1 := s.updLedger b fun e => { e with state := lsSystem, cls := 0, code := s.classCode 0, sb := 0xFFFFFFFF }
    { s1 with interimBlocks := s1.interimBlocks ++ [(r.die, b, 0)] }
  | none =>
    (s.sbs.filter fun b => b.row.any fun x => x.interimLeft.any fun m => b.members[m]? == some r.die).foldl
      (fun a b => (a.dropInterim b.sb).padRow b.sb) s

/-- One request answered in the order of R192: with a superblock, a rescue set, an interim block, or without. -/
def State.answerAlloc (s : State) : State :=
  match minBy (fun r => r.prio) s.allocReqs with
  | none => s
  | some r =>
    let s1 := { s with allocReqs := s.allocReqs.erase r }
    if r.prio = 0 then s1.takeRescue r.die
    else if r.prio = 4 then s1.takeInterim r
    else match s1.allocAnswer r, s1.sbFirstFree with
      | some (c, g, ms, sets), some i => (s1.drawFree).openSuperblock r i c g ms sets
      | some _, none => s1
      | none, _ => s1.noBlocks r

/-- ALLOC_REQUEST. -/
def execAllocRequest (dt : Nat) (s : State) : Host.Outcome State Fault Refusal :=
  s.functional dt fun s => s.onMedia fun s => if s.running && !s.prot.pfail && !s.exclusiveAtWork then s.answerAlloc.progress else s

/-- Whether the allocator may blank-check a block: BG_CHECK is 1, outside RECORD-BURST; the die is idle on a channel that is UP (R54,
R62), and its token, which the check takes and gives back in this cycle, is free (R155); the block is the
least-worn FREE_UNCHECKED one of its die, plane and class, and fewer sets than ALLOC_READY_MIN are ready (R193). -/
def State.mayBgCheck (s : State) (b : BlockAddr) : Bool :=
  let all := s.ledgerBlocks
  let e := s.ledger b
  let peers := all.filter fun x => x.die == b.die && x.plane == b.plane
    && (let f := s.ledger x
        f.state == lsFreeUnchecked && f.cls == e.cls)
  let wear (x : BlockAddr) : Nat := (s.ledger x).eraseCount
  s.running && tbit (s.objN Obj.ALLOC_CTRL) 2 && s.modes.current != .recordBurst && !s.modes.parkEntry && !s.prot.pfail && !s.exclusiveRuns
    && s.diePresent b.die && (s.chan (dieChannel b.die)).st == 3 && (s.busyOp b.die).isNone && (s.arrayOp b.die).isNone
    && e.state == lsFreeUnchecked && !(s.blockLocked b) && (s.tokenHolder b.die).isNone
    && peers.all (fun x => wear b ≤ wear x) && s.freeSets all b.die e.cls true < s.objN Obj.ALLOC_READY_MIN

/-- BG_BLANK_CHECK (R193, R369): `zeros` is the larger zero count of the two pages read. -/
def execBgBlankCheck (dt : Nat) (die plane block zeros : Nat) (s : State) : Host.Outcome State Fault Refusal :=
  s.functional dt fun s => s.onMedia fun s =>
    let b : BlockAddr := { die, plane, block }
    if s.mayBgCheck b then ((s.blankVerdict b zeros).1).progress else s

/-! ### Background erases -/

/-- Whether the block itself may erase blocks of a die now: its token is free, no such erase runs there (R155). -/
def State.mayBgErase (s : State) (d : Nat) : Bool :=
  s.diePresent d && (s.tokenHolder d).isNone && !(s.ops.any fun o => o.die == d && o.kind.erases)

/-- Blocks of one die erased by the block itself, under the die's token (R155, R211). -/
def State.bgErase (s : State) (d : Nat) (bs : List BlockAddr) : State :=
  if bs.isEmpty || !(s.mayBgErase d) then s
  else
    let s1 := bs.foldl (fun a b => a.updLedger b fun e => { e with state := lsErasing }) (s.askToken d 0)
    s1.addOp d (.erase bs none) 0 3

/-- The members of a RELEASED superblock erased; those whose die is not PRESENT leave it (R211). -/
def State.eraseReleased (s : State) (i : Nat) : State :=
  let free (b : BlockAddr) : Bool := [lsFreeReady, lsFreeUnchecked, lsRetired, lsErasing].contains (s.ledger b).state
  let bs := s.sbBlocks i
  let gone := bs.filter fun b => !(s.diePresent b.die)
  let s1 := gone.foldl (fun a b => a.updLedger b fun e => { e with sb := 0xFFFFFFFF }) s
  let todo := bs.filter fun b => s.diePresent b.die && !(free b) && !(s.blockLocked b)
  ((distinct (todo.map fun b => b.die)).foldl (fun a d => a.bgErase d (todo.filter fun b => b.die == d)) s1).checkFree i

/-- Whether every record in an interim block is superseded: no open row that its die holds parity of has a record, and no
superblock left OPEN names the block (R183). -/
def State.interimOld (s : State) (b : BlockAddr) : Bool :=
  !(s.sbs.any fun x => x.row.any fun r => (s.sbInterimPpa x.sb != 0 || !r.interim.isEmpty) &&
      (x.rowParity r).any fun m => x.members[m]? == some b.die)
    && !(s.sbUsed.any fun i => s.sbState i == sbOpen && (s.openSb? i).isNone && s.sbInterimPpa i != 0
      && ppaBlk (s.sbInterimPpa i) == b)

/-- Interim blocks whose records are all superseded, erased (R183). -/
def State.eraseInterim (s : State) : State :=
  (s.interimBlocks.filter fun x => x.2.2 != 0 && s.interimOld x.2.1 && s.mayBgErase x.1
      && !(s.ops.any fun o => o.die == x.1 && (match o.kind with
        | .interim _ _ _ => true
        | _ => false))).foldl
    (fun a x => if a.mayBgErase x.1 then
        ({ a with interimBlocks := a.interimBlocks.filter fun y => y.2.1 != x.2.1 }).bgErase x.1 [x.2.1]
      else a) s

/-- Spent rescue sets that replay has read and whose VALID counts are 0, erased under the rule of R211 (R364). -/
def State.eraseSpent (s : State) : State :=
  if !s.seqWritten || !(tbit (s.objN Obj.ALLOC_CTRL) 1) then s
  else (s.prot.rescue.filter fun r => r.spent && r.blocks.all fun b => (s.ledger b).valid == 0 && (s.ledger b).state == lsSystem).foldl
    (fun a r => a.bgErase r.die r.blocks) s

/-- Blocks found ERASING at the walk, erased again once replay has completed or ORD_WRITE_SEQ has been written (R368). -/
def State.eraseTorn (s : State) : State :=
  if !s.seqWritten then s
  else
    let queued (b : BlockAddr) : Bool := s.ops.any fun o => match o.kind with
      | .erase bs _ => bs.contains b
      | _ => false
    let left := s.ledgerBlocks.filter fun b => (s.ledger b).state == lsErasing && !(queued b) && !(s.blockLocked b)
    (distinct (left.map fun b => b.die)).foldl (fun a d => a.bgErase d (left.filter fun b => b.die == d)) s

/-- AUTO_ERASE: a RELEASED superblock whose RELEASE_SEQ lies below MAP_PERSISTED_SEQ, while AUTO_ERASE in ALLOC_CTRL is 1
(R211). A number past the table stands for the block's other erases: interim blocks, spent rescue sets and interrupted erases.
None runs in RECORD-BURST, nor in PARK entry (R33). -/
def State.autoErase (s : State) (sb : Nat) : State :=
  if !s.running || s.modes.current == .recordBurst || s.modes.parkEntry || s.prot.pfail || s.exclusiveRuns then s
  else if s.objN Obj.SB_COUNT ≤ sb then s.eraseInterim.eraseSpent.eraseTorn.progress
  else if tbit (s.objN Obj.ALLOC_CTRL) 1 && s.sbState sb == sbReleased && s.sbReleaseSeq sb < s.objN Obj.MAP_PERSISTED_SEQ then
    (s.eraseReleased sb).progress
  else s

/-- AUTO_ERASE. -/
def execAutoErase (dt : Nat) (sb : Nat) (s : State) : Host.Outcome State Fault Refusal :=
  s.functional dt fun s => s.onMedia fun s => s.autoErase sb

/-! ### Firmware's block changes (R195) -/

/-- Whether firmware may change a block's standing. -/
def State.mayChange (s : State) (p : Nat) : Bool :=
  let b := ppaBlk p
  let st := (s.ledger b).state
  b.die < s.build.dies && b.plane < s.objN Obj.LEDGER_PLANES && b.block < s.objN Obj.LEDGER_BLOCKS
    && (st == lsFreeUnchecked || st == lsFreeReady)

/-- BLOCK_RETIRE written. -/
def writeBlockRetire (s : State) (p : Nat) : State × Nat :=
  if !(s.mayChange p) then s.outOfRange
  else
    let sb := (s.ledger (ppaBlk p)).sb
    (((s.updLedger (ppaBlk p) fun e => { e with state := lsRetired }).bump Obj.RETIRED_COUNT).checkFree sb |>.burstWatch, rcOk)

/-- BLOCK_RETIRE. -/
def execBlockRetire (dt : Nat) (path : DictPath) (ppa : W64) (s : State) : Host.Outcome State Fault Refusal :=
  s.functional dt fun s => s.writeCmd path Obj.BLOCK_RETIRE ppa writeBlockRetire

/-- BLOCK_CLASS_SET written: CLASS and its code; never from a strong class to a normal one, nor to a class the die cannot
run. -/
def writeBlockClassSet (s : State) (p : Nat) : State × Nat :=
  let b := ppaBlk p
  let c := ppaClass p
  let old := (s.ledger b).cls
  if !(s.mayChange p) || 4 < c || !(s.dieRuns b.die c) || ((old == 2 || old == 4) && c != 2 && c != 4) then s.outOfRange
  else ((s.updLedger b fun e => { e with cls := c, code := s.classCode c }).burstWatch, rcOk)

/-- BLOCK_CLASS_SET. -/
def execBlockClassSet (dt : Nat) (path : DictPath) (ppa : W64) (s : State) : Host.Outcome State Fault Refusal :=
  s.functional dt fun s => s.writeCmd path Obj.BLOCK_CLASS_SET ppa writeBlockClassSet

/-! ### The map's underlay and safe sequence -/

/-- The underlay of a BUFFER entry, or the entry itself when it is no longer in the map (R170). -/
def State.underlay (s : State) (e : Nat) : Nat :=
  match s.versions.find? fun v => entryBuffer v.stamp v.handle == e && s.mapEntry v.unit v.granule == e with
  | some v => v.under.toNat
  | none => e

/-- MAP_UNDERLAY written. -/
def writeMapUnderlay (s : State) (e : Nat) : State × Nat := s.store Obj.MAP_UNDERLAY 0 0 (s.underlay e)

/-- MAP_UNDERLAY. -/
def execMapUnderlay (dt : Nat) (path : DictPath) (entry : W64) (s : State) : Host.Outcome State Fault Refusal :=
  s.functional dt fun s => s.writeCmd path Obj.MAP_UNDERLAY entry writeMapUnderlay

/-- MAP_SAFE_SEQ_READ (R169). -/
def execMapSafeSeqRead (dt : Nat) (path : DictPath) (s : State) : Host.Outcome State Fault Refusal :=
  s.functional dt fun s => s.readCmd path Obj.MAP_SAFE_SEQ fun a => (a, rcOk, a.mapSafeSeq)

/-! ### Die failures -/

/-- DIE_FAILED: the block declares a die failed (R196, R264), with a cause of its own and the opcode concerned. -/
def execDieFailed (dt : Nat) (die : DieNo) (cause opcode : Nat) (s : State) : Host.Outcome State Fault Refusal :=
  s.functional dt fun s => s.onMedia fun s =>
    if 16 ≤ cause && cause ≤ 20 && s.diePresent die then
      (s.declareFailed die cause (if cause ≤ 18 then opcode else 0)).progress
    else s

/-- The grants of RASTER WRITEs that were held go out in arrival-stamp order, each WRITE's windows as far ahead as XRDY_AHEAD lets, and
local fetches with them (R88, R197). -/
def State.grantHeld (s : State) : State :=
  let mine := s.cmds.filter fun c => c.opcode == 2 && c.phase == .started && s.queueClass c.queue == 0
  (sortBy (fun a b => a.stamp ≤ b.stamp) mine).foldl (fun a c =>
    ((List.range (s.objN Obj.XRDY_AHEAD)).foldl (fun x _ => x.grantWindow c.stamp) a).pumpWrite c.stamp) s

/-- RASTER admission resumes: each failed die's stall, from its own failure cycle, is recorded, with its DIE_LOST notice; held
grants go out (R196, R197). -/
def State.resumeAdmission (s : State) : State :=
  match s.stallFrom with
  | none => s
  | some _ =>
    let tell (a : State) (x : Nat × Nat × Nat) : State :=
      let d := min 0xFFFFFFFF (s.now - x.2.2)
      ((a.setObjN Obj.FAULT_STALL_LAST_NS d).raiseTo Obj.FAULT_STALL_MAX_NS d).classNotice 0x40 1 x.1
        [(2, x.1), (4, x.2.1), (4, d)]
    (s.lostDies.foldl tell { s with stallFrom := none, lostDies := [] }).grantHeld.progress

/-- ADMISSION_RESUME. -/
def execAdmissionResume (dt : Nat) (s : State) : Host.Outcome State Fault Refusal := s.functional dt fun s => s.onMedia State.resumeAdmission

end Sys2Proof.Machine
end

