-- ==== Sys2Proof/Machine/ReadPath.lean ====
section
/-!
DEFINITION. Machine/ReadPath.lean: the meanings of the read-path commands: a transferred codeword (R285, R287, R116, R369), a
code descriptor (R277, R281) and a run-ahead read (R249, R305).
-/

namespace Sys2Proof.Machine

open Sys2Proof

/-! ### Codewords -/

/-- A codeword has left its die: its job leaves the read operation, which ends with the last one that is still wanted (R240). -/
def State.takeOut (s : State) (o : DieOp) (job : Nat) : State :=
  match o.kind with
  | .read js =>
    let rest := js.filter fun i => i != job && (s.job? i).isSome
    if rest.isEmpty && (!o.cont || o.ended) then s.dropOp o.id else s.updOp o.id fun x => { x with kind := .read rest }
  | _ => s

/-- Whether the command that a codeword was read for takes nothing more: its data is discarded (R151). -/
def State.givenUp (s : State) (j : Job) : Bool :=
  match j.purpose.owner with
  | some st => (s.cmd? st).all fun c => c.over
  | none => false

/-- The bytes that one attempt of a job takes from its die: a whole page where it is not decoded, else the codeword, and as many times its
length again as its soft sense has confidence bits (R286, R369). -/
def State.dataNeeded (s : State) (o : DieOp) (j : Job) : Nat :=
  if j.isPage then (s.die o.die).pageBytes else (if o.spec then 2 else 1 + j.softStep) * s.codeStored (ppaCode j.ppa)

/-- Bytes of a data-out come to the read path; the last ones release the die's page register (R240), and the attempt can be decoded. Data of a
speculative sense is held (R295). -/
def State.dataCame (s : State) (o : DieOp) (j : Job) (bs : List Byte) : State :=
  let all := (if o.spec then j.specData else j.data) ++ bs
  let j1 : Job := if o.spec then { j with specData := all } else { j with data := all }
  let s1 := s.updJob j.id fun _ => j1
  if all.length < s.dataNeeded o j then s1
  else if o.spec then (s1.takeOut o j.id).updJob j.id fun x => { x with spec := .held }
  else (s1.takeOut o j.id).arriveCw j1

/-- A transferred codeword: raw pages and blank checks take it as sensed, everything else makes one decode attempt (R285). A
READ, command or rebuild that has given the codeword up gets nothing (R151). -/
def State.codeword (s : State) (j : Job) : State :=
  if s.givenUp j then s.endJob j
  else
  let page := padTo (s.die (ppaDie j.ppa)).pageBytes j.data
  match j.purpose with
  | .raw st k => (s.endJob j).rawGot st k page
  | .blank st k => (s.endJob j).blankGot st k page
  | _ => s.attempt j (s.decodeJob j)

/-- CODEWORD_DECODED: the decode of a codeword that has been transferred ends; a soft decode needs one of its cluster's soft decoders
(R285, R291). -/
def execCodewordDecoded (dt : Nat) (job : Nat) (s : State) : Host.Outcome State Fault Refusal :=
  s.functional dt fun s => s.onMedia fun s =>
    match s.job? job with
    | some j => if j.arrived && (j.softStep = 0 || j.isPage || j.soft) then (s.codeword j).progress else s
    | none => s

/-! ### Code descriptors -/

/-- CODE_DESC_c downloaded: a descriptor that passes every check loads the slot; the first check that fails is recorded
(R281). -/
def endCodeDesc (c : Nat) (bs : List Byte) (s : State) : State × Nat :=
  match descCheck bs (tbit (s.objN Obj.ALLOC_CTRL) 0) with
  | 0 => ({ s with codes := mapPut s.codes c bs }, rcOk)
  | k => ({ s with codeErr := mapPut s.codeErr c k }, rcRefused)

/-- CODE_DESC_WRITE. -/
def execCodeDescWrite (dt : Nat) (path : DictPath) (code : Nat) (image : List Byte) (s : State) :
    Host.Outcome State Fault Refusal :=
  s.functional dt fun s => if code < 4 then s.downloadCmd path Obj.CODE_DESC image (endCodeDesc code image) code else s

/-! ### The comet -/

/-- Bytes that a comet stream holds or has in flight. -/
def State.cometBytes (s : State) (id : Nat) : Nat :=
  sumOf ((s.cometHeld.filter fun h => h.stream == id).map fun h => 4096 * h.need)

/-- Slots of a cluster that run-ahead data holds. -/
def State.cometSlots (s : State) (k : Nat) : Nat :=
  sumOf ((s.cometHeld.filter fun h => dieCluster (ppaDie h.ppa) == k).map fun h => h.slots)

/-- Space for a granule of `n` sectors read ahead: reorder slots up to the comet's share, else a run-ahead buffer (R305); none
where neither can be drawn (R249, R412). -/
def State.cometSpace (s : State) (u n k : Nat) : Option (State × Nat × Option Nat) :=
  let used := mapGetD s.slotsUsed k 0
  if (s.cometSlots k + n) * 100 ≤ 256 * s.objN Obj.RO_COMET_MAX_PCT && used + n ≤ 256 then
    some ({ s with slotsUsed := mapPut s.slotsUsed k (used + n) }, n, none)
  else
    let p := s.unitPool u
    if (s.pool p).ready && s.winsNow p 17 then
      let g := (s.noteWinner p 17).grantBuf 17 p
      some (g.1, 0, some g.2)
    else none

/-- A running stream issues the read of the next granule ahead of its next LBA, while its depth lasts and the entry is MEDIA;
where it is not, the stream stops until its READs have passed that granule (R249). -/
def State.runAhead (s : State) (x : CometStream) : State :=
  let n := s.unitSectors x.unit
  let g := max x.ahead (x.next / n)
  let e := s.mapEntry x.unit g
  let p := entryLoc e
  let held := s.cometHeld.any fun h => h.unit == x.unit && h.granule == g
  if s.objN Obj.UNIT_CAPACITY 0 x.unit ≤ g * n || x.stopped.any (fun k => x.next / n ≤ k)
      || s.cometDepth < s.cometBytes x.id + 4096 * n then s
  else if entryState e != 1 || !(s.mediaGood x.unit e) then
    { s with comet := s.comet.map fun y => if y.id == x.id then { y with stopped := some g } else y }
  else if !(s.diePresent (ppaDie p)) then s
  else
    let moved (a : State) : State :=
      { a with comet := a.comet.map fun y => if y.id == x.id then { y with ahead := g + 1 } else y }
    if held then moved s
    else match s.cometSpace x.unit n (dieCluster (ppaDie p)) with
      | none => s.bump Obj.BUF_NOBUF
      | some (s1, slots, handle) =>
        let h : CometHeld := { stream := x.id, unit := x.unit, granule := g, entry := w64 e, need := n, got := [], slots, handle, ppa := p }
        let s2 := moved { s1 with cometHeld := s1.cometHeld ++ [h] }
        ((s2.granulePpas p n).zipIdx).foldl (fun a q =>
          a.addJob (.comet x.id x.unit g q.2) q.1 x.unit (g * n + q.2) 4 x.lastUse) s2

/-- COMET_READ: a stream that runs ahead (R248). -/
def execCometRead (dt : Nat) (stream : Nat) (s : State) : Host.Outcome State Fault Refusal :=
  s.functional dt fun s => s.onMedia fun s =>
    match s.comet.find? fun x => x.id == stream with
    | some x =>
      if tbit s.cometCtrl 0 && x.running && s.unitEnabled x.unit && !s.prot.pfail && !s.exclusiveAtWork then (s.runAhead x).progress else s
    | none => s

end Sys2Proof.Machine
end

