-- ==== Sys2Proof/Machine/Channels.lean ====
section
/-!
DEFINITION. Machine/Channels.lean: the meanings of the channel commands: enumeration (R230 to R235), failure declarations (R264),
status polls and time-outs (R241, R259 to R261), channel faults and recovery (R263), ID checks (R262), the end of a suspend
budget (R244), and moon banks (R255 to R258).
-/

namespace Sys2Proof.Machine

open Sys2Proof

/-! ### Enumeration -/

/-- CH_CTRL written: FAIL_CHANNEL declares the whole channel failed (R264); ENUM starts enumeration (R230). -/
def writeChCtrl (n : Nat) (s : State) (v : Nat) : State × Nat :=
  let st := (s.chan n).st
  let refused := tbit v 0 && (st == 1 || st == 2 || (s.activeImage (n / 8)).isEmpty || !s.enabledUnits.isEmpty)
  if refused then s.outOfRange
  else
    let s1 := if tbit v 1 then (s.failChannel n 21).progress else s
    let s2 := if tbit v 0 then (s1.updChan n fun c => { c with st := 1 }).setObjN Obj.CH_CTRL 1 0 n else s1
    (s2, rcOk)

/-- ENUM: a write of ENUM = 1. -/
def execEnum (dt : Nat) (path : DictPath) (ch : ChanNo) (s : State) : Host.Outcome State Fault Refusal :=
  s.functional dt fun s => if ch < 64 then s.writeCmd path Obj.CH_CTRL 1 (writeChCtrl ch) 0 ch else s

/-- FAIL_CHANNEL: a write of FAIL_CHANNEL = 1. -/
def execFailChannel (dt : Nat) (path : DictPath) (ch : ChanNo) (s : State) : Host.Outcome State Fault Refusal :=
  s.functional dt fun s => if ch < 64 then s.writeCmd path Obj.CH_CTRL 2 (writeChCtrl ch) 0 ch else s

/-- A slot as enumeration reads it; a slot with no report does not respond. -/
def reportOf (rs : List DieReport) (k : Nat) : DieReport :=
  (rs.find? fun r => r.slot == k).getD { slot := k, responds := false }

/-- The CRC-16 of a parameter page, that of ONFI: polynomial 0x8005, start value 0x4F4E, most significant bit first (PRESUMED, log
244). -/
def paramCrc (bs : List Byte) : Nat :=
  bs.foldl (fun c b =>
    (List.range 8).foldl (fun (c : Nat) i =>
      let top := (tbit c 15) != (tbit b.toNat (7 - i))
      let d := c * 2 % 65536
      if top then d ^^^ 0x8005 else d) c) 0x4F4E

/-- Whether a signature begins with those of ONFI or of JEDEC (R231, R232; the bytes: PRESUMED, log 244). -/
def signatureKnown (bs : List Byte) : Bool :=
  bs.take 4 == [0x4F, 0x4E, 0x46, 0x49] || bs.take 5 == [0x4A, 0x45, 0x44, 0x45, 0x43]

/-- The unique ID of a die: the first copy that matches its complement. -/
def goodUid (r : DieReport) : Option (BitVec 128) := (r.uids.find? fun x => x.2 == ~~~x.1).map fun x => x.1

/-- Checks 1 to 6 of R232, in order: the first cause that holds, 0 for none. A geometry of 0 declares no pages at all. -/
def earlyCheck (r : DieReport) : Nat :=
  if !r.responds || r.idBytes == 0 || r.idBytes == ~~~0 then 1
  else if !(r.copies.any fun c => paramCrc c.1 == c.2.toNat) then 2
  else if r.idAgain != r.idBytes then 3
  else if r.maker != r.idBytes.setWidth 8 || !(signatureKnown r.signature) then 4
  else if r.pageBytes * r.pages * r.blocks * r.planes != r.capacity || 8 < r.planes || 65536 < r.blocks || 65536 < r.pages || 2 < r.luns
      || r.busBits != 8 || r.planes = 0 || r.blocks = 0 || r.pages = 0 then 5
  else if (goodUid r).isNone then 6
  else 0

/-- Whether the training of a die left a lane with no eye: LEFT above RIGHT (R229, R232). -/
def noEye (r : DieReport) : Bool := (r.trained.getD []).any fun w => w.right < w.left

/-- Check 7: the unique ID of another die that passed checks 1 to 6, on this channel or held from another's enumeration. -/
def State.duplicateUid (s : State) (ch : Nat) (rs : List DieReport) (r : DieReport) : Bool :=
  (rs.any fun x => x.slot != r.slot && earlyCheck x == 0 && goodUid x == goodUid r)
    || s.dies.any fun d => dieChannel d.1 != ch && d.2.identified && some d.2.uid == goodUid r

/-- Checks 1 to 8, with the profile of a die that passes them. -/
def State.checkDie (s : State) (ch : Nat) (rs : List DieReport) (r : DieReport) : Nat × Option (Nat × Nat) :=
  if earlyCheck r != 0 then (earlyCheck r, none)
  else if s.duplicateUid ch rs r then (7, none)
  else match imageProfile (s.activeImage (ch / 8)) r.idBytes.toNat with
    | none => (8, none)
    | some p => (0, some p)

/-- The interfaces of R235 beyond enumeration that a profile region declares: IFACES without SDR. -/
def ifacesOf (img : List Byte) (w : Nat) : Nat := (profileField img w 2 1).land 0x1E

/-- Check 9, in ascending slots: the interfaces still shared, and the slots that share none of them (log 60). -/
def shareIfaces (img : List Byte) : List (Nat × Nat) → Nat × List Nat
  | [] => (0x1E, [])
  | l => l.foldl (fun acc x =>
      let both := acc.1.land (ifacesOf img x.2)
      if both = 0 then (acc.1, acc.2 ++ [x.1]) else (both, acc.2)) (0x1E, [])

/-- The interface and rate of R234: the fastest rate that all profiles declare within the caps; on a tie NV-LPDDR4, JESD230
DDR, NV-DDR3, NV-DDR2. -/
def chooseRate (img : List Byte) (ws : List Nat) (shared cap : Nat) : Nat × Nat :=
  ([3, 4, 2, 1].filter fun i => tbit shared i).foldl (fun best i =>
    let r := (ws.map fun w => profileField img w (4 + 2 * i) 2).foldl min (min cap 4800)
    if best.2 < r then (i, r) else best) (0, 0)

/-- Check 10: a die's planes, page bytes, pages per block or cell type differ from those of another. -/
def mixesWith (r : DieReport) (planes pageBytes pages cellBits : Nat) : Bool :=
  r.planes != planes || r.pageBytes != pageBytes || r.pages != pages || r.cellBits != cellBits

/-- The final cause of each slot, with its profile (R232). -/
def State.judge (s : State) (ch : Nat) (rs : List DieReport) : List (DieReport × Nat × Option (Nat × Nat)) :=
  let img := s.activeImage (ch / 8)
  let first := rs.map fun r => (r, s.checkDie ch rs r)
  let alone := (shareIfaces img (first.filterMap fun x => x.2.2.map fun p => (x.1.slot, p.2))).2
  let nine := first.map fun x => if x.2.1 == 0 && alone.contains x.1.slot then (x.1, 9, none) else (x.1, x.2.1, x.2.2)
  let own := (nine.find? fun x => x.2.1 == 0).map fun x => (ch * 16 + x.1.slot, x.1.planes, x.1.pageBytes, x.1.pages, x.1.cellBits)
  let other := (s.dies.find? fun d => dieChannel d.1 != ch && d.2.planes != 0).map fun d =>
    (d.1, d.2.planes, d.2.pageBytes, d.2.pages, d.2.cellBits)
  let ref := minBy (fun x => x.1) (own.toList ++ other.toList)
  nine.map fun x =>
    if x.2.1 != 0 then x
    else match ref with
      | some (_, pl, pb, pg, cb) =>
        if mixesWith x.1 pl pb pg cb then (x.1, 10, x.2.2) else if noEye x.1 then (x.1, 11, x.2.2) else x
      | none => x

/-- One slot as enumeration leaves it (R232, R233, R254, R266, R313). -/
def State.enumSlot (s : State) (ch : Nat) (x : DieReport × Nat × Option (Nat × Nat)) : State :=
  let r := x.1
  let c := x.2.1
  let k := r.slot
  let d := 16 * ch + k
  let ok := c == 0
  let past9 := c == 0 || c == 10 || c == 11
  let info : DieInfo :=
    { uid := (goodUid r).getD 0, identified := earlyCheck r == 0, idCheckAt := s.now
      planes := if past9 then r.planes else 0
      blocks := r.blocks, pages := r.pages, pageBytes := r.pageBytes, cellBits := r.cellBits
      freeBlockNumbers := r.freeBlockNumbers
      profile := if ok then x.2.2.map fun p => p.2 else none
      dirIndex := (x.2.2.map fun p => p.1).getD 255 }
  let detail := if c = 2 then min 3 (max 1 r.copies.length) else 0
  let s1 := { s with dies := mapPut s.dies d info }
  let s2 := (s1.setDieState d (if ok then 1 else if c = 1 then 0 else 2)).setObjN Obj.DIE_CAUSE (c + 256 * detail) k ch
  let s3 := s2.setObj Obj.DIE_ID (if c = 1 then 0 else r.idBytes) k ch
  let dq : W64 := if ok then r.dqTrim else 0
  let strobe := if ok then r.strobeTrim.toNat % 2 ^ 24 else 0
  let s4 := ((s3.setObj Obj.DIE_DQ_TRIM dq k ch).setObjN Obj.DIE_STROBE_TRIM strobe k ch).setObjN Obj.DIE_RL_GEN 0 k ch
  let s5 := ((s4.setObj Obj.MB_DQ_TRIM dq k ch).setObjN Obj.MB_STROBE_TRIM strobe k ch).setObjN Obj.MB_RL_GEN 0 k ch
  let s6 := (s5.setObjN Obj.DIE_RESETS 0 k ch).setObjN Obj.DIE_SLOW 0 k ch
  s6.enumCal d (if ok && s6.dieFlag d 5 then signedOf 8 r.temp.toNat else signedOf 8 (s6.objN Obj.CAL_TEMP_EXT))

/-- The trim words of one slot: DQ lanes, DQS, RE and Vref (R228); `only` names the items to send. -/
def trimWordsOf (k : Nat) (dq strobe : Nat) (only : Nat → Bool) : List W64 :=
  ((List.range 11).filter only).map fun i =>
    w64 (k * 2 ^ 56 + i * 2 ^ 48 + (if i < 8 then bits dq (8 * i) 8 else bits strobe (8 * (i - 8)) 8) * 2 ^ 40)

/-- What enumeration fixes for the whole block: the ledger's planes and blocks (R219), planning times by the lowest-numbered
PRESENT die's profile (R65), and the erase limits, which no source is named for: free values (log 8, log 61). -/
def State.enumWide (s : State) : State :=
  match s.presentDies with
  | [] => s
  | d :: _ =>
    let most := (s.presentDies.map fun x => (s.die x).blocks).foldl max 0
    let s1 := (s.setObjN Obj.LEDGER_PLANES (s.die d).planes).setObjN Obj.LEDGER_BLOCKS (min 65535 most)
    let s2 := (List.range 5).foldl (fun a c => a.setObjN Obj.ORBIT_TPROG_C (a.profile d (40 + 4 * c) 4) c)
      (s1.setObjN Obj.ORBIT_TBERS_NS (s1.profile d 80 4))
    (List.range 5).foldl (fun a c => (a.setObjN Obj.PE_LIMIT_C (a.freePick % 2 ^ 32) c).drawFree) s2

/-- The operations of a die that is not PRESENT any more end as those of a FAILED die do; its program units return to placement, with which
the open superblocks lose their member there (R230; DEDUCED, log 245). -/
def State.endQueue (s : State) (d : Nat) : State :=
  let s1 := s.clearQueue d
  ((s1.sbsWith d).filter fun x => (s1.openSb? x.1).isSome).foldl (fun a x => a.loseMember x.1 x.2) s1

/-- A PRESENT die of another channel that shares a unique ID becomes QUARANTINED (R232, check 7). -/
def State.quarantineTwins (s : State) (ch : Nat) (rs : List DieReport) : State :=
  let twins := (s.dies.filter fun d => dieChannel d.1 != ch && d.2.identified && s.diePresent d.1
    && rs.any fun r => earlyCheck r == 0 && goodUid r == some d.2.uid).map fun d => d.1
  twins.foldl (fun a d =>
    ((a.setDieState d 2).setObjN Obj.DIE_CAUSE 7 (dieSlot d) (dieChannel d)).endQueue d) s

/-- Enumeration of a channel ends (R230 to R235). -/
def State.enumEnd (s : State) (ch : Nat) (reports : List DieReport) : State :=
  let rs := (List.range 16).map (reportOf reports)
  let verdict := s.judge ch rs
  let img := s.activeImage (ch / 8)
  let good := verdict.filterMap fun x => if x.2.1 == 0 then x.2.2.map fun p => (x.1.slot, p.2) else none
  let shared := (shareIfaces img good).1
  let rate := if good.isEmpty then (0, 0) else chooseRate img (good.map fun x => x.2) shared (s.objN Obj.CH_RATE_MAX 0 ch)
  let locked := if good.isEmpty then (s.chan ch).phy else 5
  let s1 := verdict.foldl (fun a x => a.enumSlot ch x) (s.quarantineTwins ch rs)
  let s2 := (((s1.setObjN Obj.CH_FAULTS 0 0 ch).setObjN Obj.CH_RETRAINS 0 0 ch).setObjN Obj.CH_SUSPENDS 0 0 ch).setObjN Obj.CH_CTRL 0 0 ch
  let words := (good.map fun x => trimWordsOf x.1 (s2.objN Obj.DIE_DQ_TRIM x.1 ch) (s2.objN Obj.DIE_STROBE_TRIM x.1 ch) fun _ => true).flatten
  let s3 := s2.updChan ch fun c => { c with st := if good.isEmpty then 6 else 3, iface := rate.1, rate := rate.2, busOwner := none
                                            enumerated := true, lockWait := false, training := false, trainReq := false, phy := locked
                                            ce := [], wpN := !s.prot.pfailDone && !s.modes.poweredDown
                                            trimWords := words, trimLoad := !words.isEmpty
                                            trimHold := none, trimResult := [], trimPending := false, trigTrim := false }
  let s4 := { s3 with ctxs := s3.ctxs.filter fun x => x.seq != ch && !(x.seq == 64 + ch % 4 && x.ctx == ch / 4) }
  let lost := (List.range 16).map (fun k => 16 * ch + k) |>.filter fun d => !(s4.diePresent d)
  ((lost.foldl State.endQueue s4).enumWide).progress

/-- Whether a die that passed the checks before it is still to be trained. -/
def State.untrained (s : State) (ch : Nat) (reports : List DieReport) : Bool :=
  (s.judge ch ((List.range 16).map (reportOf reports))).any fun x => x.2.1 == 0 && x.1.trained.isNone

/-- Training begins: the interface and the rate are those chosen, and the channel is in state TRAINING (R231, R234, R267; the state begins
with the choice of the interface: DESIGN CHOICE, log 246). -/
def State.beginTraining (s : State) (ch : Nat) (reports : List DieReport) : State :=
  let img := s.activeImage (ch / 8)
  let good := (s.judge ch ((List.range 16).map (reportOf reports))).filterMap fun x => if x.2.1 == 0 then x.2.2.map fun p => (x.1.slot, p.2) else none
  let rate := chooseRate img (good.map fun x => x.2) (shareIfaces img good).1 (s.objN Obj.CH_RATE_MAX 0 ch)
  s.updChan ch fun c => { c with st := 2, iface := rate.1, rate := rate.2, lockWait := true, trainMode := 0, eyes := [] }

/-- ENUM_DONE: once the operations that had started on the channel's dies have ended, the dies that pass are trained, and with their
training enumeration ends (R230, R231). -/
def execEnumDone (dt : Nat) (ch : ChanNo) (reports : List DieReport) (s : State) : Host.Outcome State Fault Refusal :=
  s.functional dt fun s => s.onMedia fun s =>
    let st := (s.chan ch).st
    if (st == 1 || st == 2) && !(s.ops.any fun o => dieChannel o.die == ch && o.started) then
      (if s.untrained ch reports then s.beginTraining ch reports else s.enumEnd ch reports)
    else s

/-- CH_DIE_FAIL written (R264). -/
def writeChDieFail (n : Nat) (s : State) (v : Nat) : State × Nat :=
  ((((List.range 16).filter fun k => tbit v k).foldl (fun a k => a.declareFailed (16 * n + k) 21 0) s).progress, rcOk)

/-- CH_DIE_FAIL. -/
def execChDieFail (dt : Nat) (path : DictPath) (ch : ChanNo) (mask : W64) (s : State) : Host.Outcome State Fault Refusal :=
  s.functional dt fun s => if ch < 64 then s.writeCmd path Obj.CH_DIE_FAIL mask (writeChDieFail ch) 0 ch else s

/-! ### Status polls and time-outs -/

/-- The declared typical time of an operation (R241, R395). -/
def State.opTypNs (s : State) (o : DieOp) : Nat :=
  match o.kind with
  | .read _ => s.profile o.die 32 4
  | .program sb _ _ | .parity sb _ _ _ => s.profile o.die (40 + 4 * s.sbClass sb) 4
  | .interim _ _ _ | .rawProgram _ | .zeroFill _ _ _ | .rescue _ _ _ _ => s.profile o.die 40 4
  | .erase _ _ => s.profile o.die 80 4

/-- Whether a status poll of an operation is due (R241). -/
def State.pollIsDue (s : State) (o : DieOp) : Bool :=
  o.pollDue || (match o.polledAt with
    | some t => t + s.objN Obj.CH_POLL_NS 0 (dieChannel o.die) ≤ s.now
    | none => o.startedAt + s.opTypNs o + o.suspendedNs ≤ s.now)

/-- A bad status byte (R260). Bit 2 is taken as the bit both interfaces reserve (PRESUMED, log 62). -/
def State.badStatus (s : State) (o : DieOp) (status : Nat) : Bool :=
  (tbit status 2 && !(tbit (s.profile o.die 135 1) 2)) || (!(tbit status 7) && (s.chan (dieChannel o.die)).wpN)
    || status == 0 || status == 0xFF || (o.shownReady && !(tbit status 6))

/-- An operation times out (R259): the die gets a LUN reset, which cuts off everything it has started; where every PRESENT die
of the channel has timed out within CH_POLL_NS, the channel is at fault (R263). -/
def State.timeOut (s : State) (o : DieOp) : State :=
  let ch := dieChannel o.die
  let s1 := (s.updDie o.die fun i => { i with timedOutAt := some s.now }).lunReset o.die
  let recent (d : Nat) : Bool := (s1.die d).timedOutAt.any fun t => s.now ≤ t + s.objN Obj.CH_POLL_NS 0 ch
  if (s1.chan ch).st == 3 && (s1.channelDies ch).all recent then s1.recoverFrom ch 6 else s1

/-- A status read of the operation that keeps a die busy (R241, R260, R261). -/
def State.statusRead (s : State) (o : DieOp) (status : Nat) : State :=
  let s1 := s.updOp o.id fun x => { x with polledAt := some s.now, pollDue := false }
  if s.badStatus o status then
    let s2 := s1.updOp o.id fun x => { x with badReads := x.badReads + 1, pollDue := true }
    if 2 ≤ o.badReads then s2.timeOut o else s2
  else
    let ready := tbit status 6
    let s2 := s1.updOp o.id fun x => { x with badReads := 0, shownReady := x.shownReady || ready, status := BitVec.ofNat 8 status }
    if ready && !o.shownReady && o.kind.reads then s2.noteSlow o else s2

/-- STATUS_POLL: a due poll of the operation that keeps the die busy. -/
def execStatusPoll (dt : Nat) (die : DieNo) (status : Byte) (s : State) : Host.Outcome State Fault Refusal :=
  s.functional dt fun s => s.onMedia fun s =>
    match s.busyOp die with
    | some o => if !o.resetting && s.pollIsDue o then (s.statusRead o status.toNat).progress else s
    | none => s

/-- RB_RISE: RB_N of the CE is 1, and a poll of its dies is due (R226, R241). -/
def execRbRise (dt : Nat) (ch : ChanNo) (ce : Nat) (s : State) : Host.Outcome State Fault Refusal :=
  s.functional dt fun s => s.onMedia fun s =>
    let hit (o : DieOp) : Bool := dieChannel o.die == ch && dieSlot o.die / 2 == ce && o.started && !o.suspended
    { s with ops := s.ops.map fun (o : DieOp) => if hit o then { o with pollDue := true } else o
             chans := mapUpd s.chans ch {} fun c => { c with rbN := if c.rbN.contains ce then c.rbN else c.rbN ++ [ce] } }

/-- DIE_OP_TIMEOUT: the operation has not shown ready by its limit (R259). -/
def execDieOpTimeout (dt : Nat) (die : DieNo) (s : State) : Host.Outcome State Fault Refusal :=
  s.functional dt fun s => s.onMedia fun s =>
    match s.busyOp die with
    | some o => if o.confirmed && !o.resetting && !o.shownReady && o.startedAt + s.opLimit o ≤ s.now then (s.timeOut o).progress else s
    | none => s

/-- The opcode byte of an operation: its first NAND command (R235, R268). -/
def OpKind.nandOpcode (k : OpKind) : Nat := if k.reads then 0x00 else if k.erases then 0x60 else 0x80

/-- Whether the IDs read from a die are those enumerated (R262). -/
def State.sameId (s : State) (d : Nat) (idBytes : W64) (uid : BitVec 128) : Bool :=
  s.obj Obj.DIE_ID (dieSlot d) (dieChannel d) == idBytes && (s.die d).uid == uid

/-- A LUN reset ended (R259, R262): the die is FAILED, or its reset counts, its IDs are compared, and what was cut off counts as
failed. -/
def State.resetEnded (s : State) (d : Nat) (ready : Bool) (idBytes : W64) (uid : BitVec 128) : State :=
  let cut := s.ops.filter fun o => o.die == d && o.resetting
  let code := (cut.head?.map fun o => o.kind.nandOpcode).getD 0
  let s0 := (s.idleCtx d).updDie d fun i => { i with resetting := false, idCheckAt := s.now }
  if !ready then s0.declareFailed d (if cut.any fun o => 3 ≤ o.badReads then 18 else 16) code
  else
    let times := ((s0.die d).resetTimes ++ [s.now]).filter fun t => s.now < t + 10000000000
    let s1 := (s0.bump Obj.DIE_RESETS (dieSlot d) (dieChannel d)).updDie d fun i => { i with resetTimes := times }
    if 3 ≤ times.length then s1.declareFailed d 17 code
    else if !(s.sameId d idBytes uid) then s1.declareFailed d 19 0
    else cut.foldl (fun a x => a.opFailed { x with suspended := false } true) s1

/-- LUN_RESET_DONE. -/
def execLunResetDone (dt : Nat) (die : DieNo) (ready : Bool) (idBytes : W64) (uid : BitVec 128) (s : State) :
    Host.Outcome State Fault Refusal :=
  s.functional dt fun s => s.onMedia fun s => if (s.die die).resetting then (s.resetEnded die ready idBytes uid).progress else s

/-- ID_CHECK (R262): every CH_ID_CHECK_S seconds, on a die that is free (R54, R62); CH_ID_CHECK_S = 0 disables the periodic check. -/
def execIdCheck (dt : Nat) (die : DieNo) (idBytes : W64) (uid : BitVec 128) (s : State) : Host.Outcome State Fault Refusal :=
  s.functional dt fun s => s.onMedia fun s =>
    let p := s.objN Obj.CH_ID_CHECK_S 0 (dieChannel die)
    if s.dieFree die && p != 0 && (s.die die).idCheckAt + 1000000000 * p ≤ s.now then
      let s1 := s.updDie die fun i => { i with idCheckAt := s.now }
      if s.sameId die idBytes uid then s1 else (s1.declareFailed die 19 0).progress
    else s

/-! ### Channel faults -/

/-- PHY_FAULT (R263): LOCKED falling while the channel is UP, or any other PHY fault, takes the channel into RECOVERING. One that is
RECOVERING or FAILED already takes no new fault (DESIGN CHOICE, log 243). -/
def execPhyFault (dt : Nat) (ch : ChanNo) (cause phy : Nat) (s : State) : Host.Outcome State Fault Refusal :=
  s.functional dt fun s => s.onMedia fun s =>
    let s1 := s.updChan ch fun c => { c with phy := phy % 16 }
    let st := (s.chan ch).st
    if (cause == 1 && st == 3) || (2 ≤ cause && cause ≤ 5 && st != 4 && st != 5) then (s1.recoverFrom ch cause).progress else s1

/-- CHANNEL_RECOVERY_DONE (R263): within CH_RECOVER_NS the channel returns to UP, its live trims reloaded, each die whose operation was cut
off given a LUN reset. A channel that was not UP returns to EMPTY, or to DOWN where no enumeration has ended (DESIGN CHOICE, log
243). -/
def execChannelRecoveryDone (dt : Nat) (ch : ChanNo) (s : State) : Host.Outcome State Fault Refusal :=
  s.functional dt fun s => s.onMedia fun s =>
    let c := s.chan ch
    if c.st == 4 && s.now < c.recoverAt + s.objN Obj.CH_RECOVER_NS 0 ch then
      let words := ((s.channelDies ch).map fun d =>
        trimWordsOf (dieSlot d) (s.objN Obj.DIE_DQ_TRIM (dieSlot d) ch) (s.objN Obj.DIE_STROBE_TRIM (dieSlot d) ch) fun _ => true).flatten
      let st := if !c.enumerated then 0 else if (s.channelDies ch).isEmpty then 6 else 3
      let s1 := (s.updChan ch fun x => { x with st, phy := x.phy / 2 * 2 + 1, trimWords := words, trimLoad := !words.isEmpty
                                                ce := [], beats := [] }).bump Obj.CH_RETRAINS 0 ch
      (((s1.channelDies ch).filter fun d => (s1.die d).resetting).foldl State.lunReset s1).progress
    else s

/-- RECOVER_TIMEOUT (R263): recovery has not ended within CH_RECOVER_NS. -/
def execRecoverTimeout (dt : Nat) (ch : ChanNo) (s : State) : Host.Outcome State Fault Refusal :=
  s.functional dt fun s => s.onMedia fun s =>
    let c := s.chan ch
    if c.st == 4 && c.recoverAt + s.objN Obj.CH_RECOVER_NS 0 ch ≤ s.now then (s.failChannel ch 20).progress else s

/-! ### Suspends -/

/-- The resume routine of a suspended operation starts on its die's context, under the token it holds (R244, R390). -/
def State.startResume (s : State) (o : DieOp) : State :=
  (s.updOp o.id fun x => { x with sent := false }).runRoutine o { kind := if o.kind.erases then 20 else 18 }

/-- SUSPEND_BUDGET_EXPIRED (R244): the operation is resumed, after a read that has started has run to its end. -/
def execSuspendBudgetExpired (dt : Nat) (die : DieNo) (s : State) : Host.Outcome State Fault Refusal :=
  s.functional dt fun s => s.onMedia fun s =>
    match s.ops.find? fun o => o.die == die && o.suspended with
    | some o => if s.suspOver o && (s.busyOp die).isNone && !o.resetting then s.startResume o else s
    | none => s

/-! ### Moon banks -/

/-- MB_CTRL written (R255, R257): SHADOW_LATE is cleared; ARM and LOCK are as written. -/
def writeMbCtrl (n : Nat) (s : State) (v : Nat) : State × Nat :=
  if 2 ≤ bits v 1 2 then s.outOfRange
  else (((s.setObjN Obj.MB_CTRL v 0 n).updChan n fun c => { c with shadowLate := false, tickSince := false }).armAll, rcOk)

/-- MB_CTRL. -/
def execMbCtrl (dt : Nat) (path : DictPath) (ch : ChanNo) (value : W64) (s : State) : Host.Outcome State Fault Refusal :=
  s.functional dt fun s => if ch < 64 then s.writeCmd path Obj.MB_CTRL value (writeMbCtrl ch) 0 ch else s

/-- A bank field written (R257, R329): in the bank only; while ARM is 1 it sets SHADOW_LATE. MB_RL_GEN takes only the value it
holds. -/
def writeMbField (o : Obj) (n i : Nat) (s : State) (v : Nat) : State × Nat :=
  if o.key == Obj.MB_RL_GEN.key && v != s.objN Obj.MB_RL_GEN i n then s.outOfRange
  else
    let armed := tbit (s.objN Obj.MB_CTRL 0 n) 0
    ((s.setObjN o v i n).updChan n fun c => { c with shadowLate := c.shadowLate || armed }, rcOk)

/-- MB_FIELD_WRITE: `sub` is the subindex of the field. -/
def execMbFieldWrite (dt : Nat) (path : DictPath) (ch : ChanNo) (sub : Nat) (value : W64) (s : State) :
    Host.Outcome State Fault Refusal :=
  s.functional dt fun s =>
    match objFind (0x210000 + 256 * ch + sub) with
    | some (o, i, n) => if o.acc == .rws then s.writeCmd path o value (writeMbField o n i) i n else s
    | none => s

/-- Trim items of one slot that differ between bank and live set. -/
def State.changedTrims (s : State) (n k : Nat) : List W64 :=
  let dq := s.objN Obj.MB_DQ_TRIM k n
  let st := s.objN Obj.MB_STROBE_TRIM k n
  let dq0 := s.objN Obj.DIE_DQ_TRIM k n
  let st0 := s.objN Obj.DIE_STROBE_TRIM k n
  trimWordsOf k dq st fun i => if i < 8 then bits dq (8 * i) 8 != bits dq0 (8 * i) 8
    else bits st (8 * (i - 8)) 8 != bits st0 (8 * (i - 8)) 8

/-- Whether a quiet point that HANDOVER_AT allows is now: no transaction is in progress, or the channel is DOWN, RECOVERING, FAILED or
EMPTY (R256). No hand-over carries a switch
while a snapshot is read (R331). -/
def State.mayHandOver (s : State) (n : Nat) : Bool :=
  let c := s.chan n
  let ctrl := s.objN Obj.MB_CTRL 0 n
  let switches := c.trimPending || (List.range 16).any fun k => (s.calDie (16 * n + k)).switchPending
  tbit ctrl 0 && !c.shadowLate && (bits ctrl 1 2 == 0 || c.tickSince) && ([0, 4, 5, 6].contains c.st || c.busOwner.isNone)
    && !(switches && s.calSnapFrom.isSome)

/-- The sampling edge (R256): the bank is copied into the live set, changed trims are sent, switches take place (R327). -/
def State.handOver (s : State) (n : Nat) : State :=
  let words := ((List.range 16).map fun k => s.changedTrims n k).flatten
  let turned := (List.range 16).filter fun k => s.objN Obj.MB_RL_GEN k n != s.objN Obj.DIE_RL_GEN k n
  let trims := (s.chan n).trimPending
  let s1 := (List.range 16).foldl (fun a k =>
    ((a.setObj Obj.DIE_DQ_TRIM (a.obj Obj.MB_DQ_TRIM k n) k n).setObj Obj.DIE_STROBE_TRIM (a.obj Obj.MB_STROBE_TRIM k n) k n).setObj
      Obj.DIE_RL_GEN (a.obj Obj.MB_RL_GEN k n) k n) s
  let s2 := ((s1.setObjN Obj.MB_CTRL (s1.objN Obj.MB_CTRL 0 n / 2 * 2) 0 n).bumpWrap Obj.MB_GENERATION 0 n).setObjN
    Obj.MB_HANDOVER_TIME s.now 0 n
  let s3 := s2.updChan n fun c =>
    { c with handPos := s.pos, trimWords := words, trimLoad := !words.isEmpty, beats := if words.isEmpty then c.beats else [] }
  let s4 := (turned.map fun k => 16 * n + k).foldl (fun a d => if (a.calDie d).switchPending then a.switchDie d else a) s3
  (if trims then s4.switchTrims n else s4).armAll

/-- MB_HANDOVER. -/
def execMbHandover (dt : Nat) (ch : ChanNo) (s : State) : Host.Outcome State Fault Refusal :=
  s.functional dt fun s => s.onMedia fun s => if ch < s.build.channels && s.mayHandOver ch then (s.handOver ch).progress else s

end Sys2Proof.Machine
end

