-- ==== Sys2Proof/Machine/Calibration.lean ====
section
/-!
DEFINITION. Machine/Calibration.lean: the meanings of the calibration commands: temperatures and triggers (R315 to R317),
read-level runs (R320 to R323), PHY-trim runs (R319, R324 to R326), the hold (R328), snapshots and restores (R331, R332).
-/

namespace Sys2Proof.Machine

open Sys2Proof

/-! ### Triggers -/

/-- Whether a die is to be polled: CAL_TEMP_POLL_MS has passed since its latest poll, or it has woken since (R315). -/
def State.tempDue (s : State) (d : Nat) : Bool :=
  (s.die d).mustPoll || (s.calDie d).polledAt + 1000000 * s.objN Obj.CAL_TEMP_POLL_MS ≤ s.now

/-- TEMP_POLL (R315): dies in deep power-down are not polled; a die without a sensor takes CAL_TEMP_EXT. -/
def execTempPoll (dt : Nat) (die : DieNo) (temp : Byte) (s : State) : Host.Outcome State Fault Refusal :=
  s.functional dt fun s => s.onMedia fun s =>
    if !(s.dieFree die) || !(s.tempDue die) || s.modes.poweredDown then s
    else
      let t := if s.dieFlag die 5 then signedOf 8 temp.toNat else signedOf 8 (s.objN Obj.CAL_TEMP_EXT)
      (((s.updCal die fun c => { c with tempNow := t, polledAt := s.now }).updDie die fun i => { i with mustPoll := false }).tempTriggers die t)

/-- CAL_AGE_TRIGGER (R316). -/
def execCalAgeTrigger (dt : Nat) (die : DieNo) (s : State) : Host.Outcome State Fault Refusal :=
  s.functional dt fun s => s.onMedia fun s =>
    let p := s.objN Obj.CAL_PERIOD_S
    if s.diePresent die && s.calCtrl 0 && s.calCtrl 3 && p != 0 && (s.calDie die).timeLast + 1000000000 * p ≤ s.now then
      s.updCal die fun c => { c with trigRl := true }
    else s

/-! ### Whether a run may take place -/

/-- Whether block-triggered runs are allowed now (R22, R317). -/
def State.calAllowed (s : State) : Bool :=
  !([Mode.park, .recordBurst, .sanitize].contains s.modes.current) && !s.modes.parkEntry && !s.prot.pfail && !s.exclusiveRuns

/-- Whether a run's media reads may start on a die (R318): it is idle, no program for it waits, and in an orbit mode its next slot lies at
least the profile's tR maximum and one page transfer ahead, so that no slot is delayed (R62). -/
def State.probeMayStart (s : State) (d : Nat) : Bool :=
  let page := xferNs (s.die d).pageBytes (s.chan (dieChannel d)).rate
  s.dieFree d && !(s.ops.any fun o => o.die == d && o.kind.programs)
    && (!s.modes.current.orbit || (s.nextSlotNs d).all fun n => s.profile d 36 4 + page ≤ n)

/-- Whether an eye scan may start on a channel (R319): at a quiet point, no RASTER read or slot-due program waits there, its dies are idle,
and in an orbit mode no slot of a group with a member on it falls due within CAL_EYE_GUARD_NS. -/
def State.scanMayStart (s : State) (n : Nat) : Bool :=
  (s.chan n).busOwner.isNone && (s.channelDies n).all s.dieFree
    && !(s.ops.any fun o => dieChannel o.die == n && !o.started && (o.kind.reads && o.cls == 0 || o.due))
    && (!s.modes.current.orbit || (s.channelDies n).all fun d => (s.nextSlotNs d).all fun t => s.objN Obj.CAL_EYE_GUARD_NS < t)

/-- The started CALIBRATE that asks for a part on a die (0 read levels) or its channel (1 trims), and has its tokens. -/
def State.calCmd (s : State) (d part : Nat) : Option Cmd :=
  s.cmds.find? fun c => c.opcode == 0x25 && c.isStarted && !c.aborted && c.work.any (fun w => w.2.1 == part)
    && (if part = 0 then ppaDie c.ppa == d else dieChannel (ppaDie c.ppa) == dieChannel d)

/-- Who a read-level run of a die answers, if one is due and may run: a CALIBRATE with its token, its trims first (R327), or the
block's own trigger with the token free (R155, R317, R318), where its reads may start. -/
def State.levelsDue (s : State) (d : Nat) : Option (Option Nat) :=
  let c := s.calDie d
  let ch := s.chan (dieChannel d)
  if c.hold.isSome || c.switchPending || (s.die d).mustPoll then none
  else match s.calCmd d 0 with
    | some k =>
      let trimsFirst := k.work.any (fun w => w.2.1 == 1) && !(ch.trimCmd == some k.stamp && (ch.trimHold.isSome || ch.trimPending))
      let free := s.probeMayStart d || !(s.diePresent d) || ch.st != 3
      if s.holdsToken d k.stamp && !trimsFirst && !s.prot.pfail && free then some (some k.stamp) else none
    | none => if c.trigRl && s.calAllowed && s.probeMayStart d && (s.tokenHolder d).isNone then some none else none

/-- Who a PHY-trim run of a channel answers, with every die token of the channel (R155, R318). -/
def State.trimsDue (s : State) (n : Nat) : Option (Option Nat) :=
  let c := s.chan n
  let ds := s.channelDies n
  if c.trimHold.isSome || c.trimPending || ds.any fun d => (s.die d).mustPoll then none
  else match s.calCmd (16 * n) 1 with
    | some k =>
      let free := c.st != 3 || s.scanMayStart n
      if ds.all (fun d => s.holdsToken d k.stamp) && !s.prot.pfail && free then some (some k.stamp) else none
    | none =>
      if c.trigTrim && s.calAllowed && s.scanMayStart n && !ds.isEmpty && ds.all fun d => (s.tokenHolder d).isNone then
        some none
      else none

/-! ### Read levels (R321 to R323) -/

/-- The nearest integer to num / den, halves away from zero (R322); `den` is positive. -/
def roundDiv (num den : Int) : Int := if 0 ≤ num then (2 * num + den) / (2 * den) else -((-2 * num + den) / (2 * den))

/-- The bits of `n` sensed payloads. -/
def sensedBits (n : Nat) : Int := 32896 * n

/-- Stage one: the shift that the ones-density asks for (R321). -/
def densityShift (ones n : Nat) (ppm : Int) : Int :=
  if ppm = 0 then 0
  else
    let num := 1000000 * (sensedBits n - 2 * ones)
    let den := 2 * sensedBits n * ppm
    if 0 < den then roundDiv num den else roundDiv (-num) (-den)

/-- Stage two: the valley of the probes' syndrome weights; where there is none, the probe with the lowest weight, ties to the centre
(R322). -/
def valley (c p sMinus sZero sPlus : Int) : Int :=
  let den := sMinus - 2 * sZero + sPlus
  if 0 < den then clampInt (c - p) (c + p) (roundDiv (2 * den * c + p * (sMinus - sPlus)) (2 * den))
  else if sMinus < sZero && sMinus < sPlus then c - p else if sPlus < sZero && sPlus < sMinus then c + p else c

/-- The entry of a bucket. -/
def Bucket.entry (b : Bucket) : Nat := b.group * 8 + b.type

/-- The signed profile byte at an offset. -/
def State.profileI8 (s : State) (d off : Nat) : Int := signedOf 8 (s.profile d off 1)

/-- The density slope of a page type (R321, R395). -/
def State.densityPpm (s : State) (d t : Nat) : Int := signedOf 16 (s.profile d (112 + 2 * t) 2)

/-- The new offset of an examined bucket (R321, R322). -/
def State.newLevel (s : State) (d : Nat) (b : Bucket) (m : BucketMeas) : Int :=
  let old := s.liveLevel d b.entry
  let mx : Int := s.objN Obj.CAL_STEP_MAX
  let c := old + clampInt (-mx) mx (densityShift b.ones b.n (s.densityPpm d b.type))
  let t := valley c (s.objN Obj.CAL_PROBE) m.sMinus m.sZero m.sPlus
  clampInt (s.profileI8 d 110) (s.profileI8 d 111) (old + clampInt (-mx) mx (t - old))

/-- Whether a changed bucket passes its verification (R323). -/
def State.verified (s : State) (d : Nat) (b : Bucket) (m : BucketMeas) : Bool :=
  let n := s.objN Obj.CAL_VERIFY_CW
  m.verifySum * b.n * 100 ≤ b.sw * s.objN Obj.CAL_VERIFY_PCT * n
    && (s.densityPpm d b.type == 0 || (2 * (m.verifyOnes : Int) - sensedBits n).natAbs * 1000000
      ≤ 2 * s.objN Obj.CAL_DENSITY_TOL_PPM * (32896 * n))

/-- What was measured for a bucket. -/
def measOf (ms : List BucketMeas) (b : Bucket) : BucketMeas :=
  (ms.find? fun m => m.group == b.group && m.type == b.type).getD
    { group := b.group, type := b.type, sMinus := 0, sZero := 0, sPlus := 0, verifySum := 0, verifyOnes := 0 }

/-- A read-level run of a die judged: its cause (0: switch) and the changed entries. -/
def State.judgeLevels (s : State) (d : Nat) (moved : Bool) (ms : List BucketMeas) : Nat × List (Nat × Int) :=
  let examined := (s.calDie d).stats.filter fun b => s.objN Obj.CAL_MIN_CW ≤ b.n
  let changed := examined.filter fun b => s.newLevel d b (measOf ms b) != s.liveLevel d b.entry
  let good := changed.filter fun b => s.verified d b (measOf ms b)
  let failed := changed.length - good.length
  if s.calBase = 0 then (9, [])
  else if !(s.diePresent d) || (s.chan (dieChannel d)).st != 3 then (4, [])
  else if examined.isEmpty then (1, [])
  else if s.objN Obj.CAL_REJECT_PCT * examined.length < failed * 100 then (2, [])
  else if moved then (3, [])
  else if good.isEmpty then (1, [])
  else (0, good.map fun b => (b.entry, s.newLevel d b (measOf ms b)))

/-- Temperature at the end of a run on a die: what its sensor read, where it has one. -/
def State.endTemp (s : State) (d : Nat) (ts : List (DieNo × Byte)) : Int :=
  if s.dieFlag d 5 then ((ts.find? fun t => t.1 == d).map fun t => signedOf 8 t.2.toNat).getD (s.dieTemp d) else s.dieTemp d

/-- Whether the temperature moved by half CAL_TEMP_DELTA, rounded up, during a run (R323, cause 3). -/
def State.runMoved (s : State) (d : Nat) (ts : List (DieNo × Byte)) : Bool :=
  s.dieTemp d != -128 && tempMoved (s.endTemp d ts) (s.dieTemp d) (ceilDiv (s.objN Obj.CAL_TEMP_DELTA) 2)

/-- A read-level run of a die (R320 to R323): results wait to be armed, or the run ends. -/
def State.runLevels (s : State) (d : Nat) (cmd : Option Nat) (ts : List (DieNo × Byte)) (ms : List BucketMeas) : State :=
  let j := s.judgeLevels d (s.runMoved d ts) ms
  let upd (c : CalDie) : CalDie :=
    { c with trigRl := if cmd.isNone then false else c.trigRl, cmd, kind := 1
             tempNow := if s.dieFlag d 5 then s.endTemp d ts else c.tempNow
             hold := if j.1 = 0 then some s.now else none, result := j.2, changed := j.2.length }
  let s1 := s.updCal d upd
  if j.1 = 0 then s1 else (s1.endRun 1 d 0 j.1).calPart cmd 0 (2 ≤ j.1 && j.1 ≤ 7)

/-! ### PHY trims (R324 to R326) -/

/-- Whether a lane passes (R325). -/
def State.laneOk (s : State) (w : EyeWord) : Bool :=
  (s.objN Obj.CAL_EYE_MIN : Int) ≤ w.right - w.left + 1 && 1000000 * w.errors ≤ s.objN Obj.CAL_EYE_BER_PPM * w.samples

/-- The new delay of a lane (R324). -/
def State.newDelay (s : State) (live : Int) (w : EyeWord) : Int :=
  let mx : Int := s.objN Obj.CAL_TRIM_STEP_MAX
  live + clampInt (-mx) mx ((w.left + w.right) / 2 - live)

/-- The live delays of a slot: lanes 0 to 9. -/
def State.liveDelay (s : State) (n k lane : Nat) : Int :=
  if lane < 8 then signedOf 8 (bits (s.objN Obj.DIE_DQ_TRIM k n) (8 * lane) 8)
  else signedOf 8 (bits (s.objN Obj.DIE_STROBE_TRIM k n) (8 * (lane - 8)) 8)

/-- The eye words of a slot, one for each lane 0 to 9; none where a lane fails (R325, R326). -/
def State.slotEyes (s : State) (eyes : List EyeWord) (k : Nat) : Option (List EyeWord) :=
  let ws := (List.range 10).filterMap fun l => (eyes.find? fun w => w.slot == k && w.lane == l).filter s.laneOk
  if ws.length = 10 then some ws else none

/-- The new trims of a slot, with the count of changed lanes; the Vref code stays (R324). -/
def State.slotTrims (s : State) (n k : Nat) (ws : List EyeWord) : (Nat × W64 × W32) × Nat :=
  let new := ws.map fun w => s.newDelay (s.liveDelay n k w.lane) w
  let byte (l : Nat) : Nat := unsignedOf 8 (new.getD l 0)
  let dq := sumOf ((List.range 8).map fun l => byte l * 2 ^ (8 * l))
  let strobe := byte 8 + byte 9 * 2 ^ 8 + bits (s.objN Obj.DIE_STROBE_TRIM k n) 16 8 * 2 ^ 16
  let changed := ((List.range 10).filter fun l => new.getD l 0 != s.liveDelay n k l).length
  ((k, w64 dq, BitVec.ofNat 32 strobe), changed)

/-- A PHY-trim run of a channel, on the eye-result words of its scan; causes 3 and 4 are judged for every die of the channel (R229, R324 to
R326). -/
def State.runTrims (s : State) (n : Nat) (cmd : Option Nat) (ts : List (DieNo × Byte)) (eyes : List EyeWord) : State :=
  let moved := (s.channelDies n).any fun d => s.runMoved d ts
  let ks := (s.channelDies n).map dieSlot
  let words := ks.map fun k => (k, s.slotEyes eyes k)
  let cause := if ks.isEmpty || (s.chan n).st != 3 then 4 else if moved then 3 else if words.any fun w => w.2.isNone then 6 else 0
  let trims := words.filterMap fun w => w.2.map fun ws => s.slotTrims n w.1 ws
  let s1 := s.updChan n fun c =>
    { c with trigTrim := if cmd.isNone then false else c.trigTrim, trimCmd := cmd, trainMode := 5, eyes
             trimHold := if cause = 0 then some s.now else none
             trimResult := if cause = 0 then trims.map fun x => x.1 else []
             trimChanged := sumOf (trims.map fun x => x.2) }
  let s2 := (s.channelDies n).foldl (fun a d => a.updCal d fun c => { c with tempNow := if s.dieFlag d 5 then s.endTemp d ts else c.tempNow }) s1
  if cause = 0 then s2 else (s2.endRun 2 (s.trimDie n) 0 cause).calPart cmd 1 true

/-- CALIBRATION_RUN: a due run takes place, with the temperatures at its end, what its probe and verify reads measured and what its eye scan
returned; its results are armed as soon as they may be (R327; the run as one command: DEDUCED, log 84). -/
def execCalibrationRun (dt : Nat) (die : DieNo) (trim : Bool) (temps : List (DieNo × Byte)) (meas : List BucketMeas) (eyes : List EyeWord)
    (s : State) : Host.Outcome State Fault Refusal :=
  s.functional dt fun s => s.onMedia fun s =>
    let n := dieChannel die
    if trim then match s.trimsDue n with
      | some cmd => (s.runTrims n cmd temps eyes).progress
      | none => s
    else match s.levelsDue die with
      | some cmd => (s.runLevels die cmd temps meas).progress
      | none => s

/-- EYE_SCAN_OVERRUN (R319, R326): the scan of a due trim run has not ended within CAL_EYE_GUARD_NS. -/
def execEyeScanOverrun (dt : Nat) (ch : ChanNo) (s : State) : Host.Outcome State Fault Refusal :=
  s.functional dt fun s =>
    match s.trimsDue ch with
    | some cmd =>
      let s1 := s.updChan ch fun c => { c with trigTrim := if cmd.isNone then false else c.trigTrim, trimCmd := cmd }
      ((s1.endRun 2 (s.trimDie ch) 0 7).calPart cmd 1 true).progress
    | none => s

/-- CAL_HOLD_EXPIRED (R323 cause 5, R328): the hold does not run while a snapshot is read. -/
def execCalHoldExpired (dt : Nat) (die : DieNo) (s : State) : Host.Outcome State Fault Refusal :=
  s.functional dt fun s => s.onMedia fun s =>
    let n := dieChannel die
    let beyond (h : Option Nat) : Bool := s.calSnapFrom.isNone && h.any fun t => t + 1000000 * s.objN Obj.CAL_HOLD_MS ≤ s.now
    let s1 := if beyond (s.calDie die).hold then s.dropLevels die 5 else s
    if beyond (s.calDie die).hold || beyond (s.chan n).trimHold then
      (if beyond (s1.chan n).trimHold then s1.dropTrims n 5 else s1).progress
    else s

/-! ### Snapshots and restores -/

/-- The image of the live tables (R331). -/
def State.calImage (s : State) : List Byte :=
  let ds := s.presentDies
  let chs := (List.range s.build.channels).filter fun n => (s.chan n).st == 3
  let dieRec (d : Nat) : List Byte :=
    leBytes 2 d ++ leBytes 1 (unsignedOf 8 (s.calDie d).tempLast) ++ leBytes 1 0 ++ leBytes 4 (s.calDie d).gen
      ++ leBytes 8 (s.objN Obj.DIE_ID (dieSlot d) (dieChannel d)) ++ s.liveCopy d
  let chRec (n : Nat) : List Byte :=
    leBytes 1 n ++ leBytes 3 0 ++ ((List.range 16).map fun k =>
      leBytes 8 (s.objN Obj.DIE_DQ_TRIM k n) ++ leBytes 4 (s.objN Obj.DIE_STROBE_TRIM k n)).flatten
  let body := (ds.map dieRec).flatten ++ (chs.map chRec).flatten
  let head := leBytes 4 0x534C4143 ++ leBytes 2 1 ++ leBytes 2 s.build.channels ++ leBytes 2 ds.length ++ leBytes 2 chs.length
    ++ leBytes 4 (64 + 2064 * ds.length + 196 * chs.length) ++ leBytes 8 (s.objN Obj.CAL_SNAP_SEQ) ++ leBytes 8 s.now
    ++ List.replicate 28 0
  head ++ leBytes 4 (crc32c (head ++ body)) ++ body

/-- A snapshot taken: CAL_SNAP_SEQ rises by 1 (R331). -/
def State.takeSnapshot (s : State) : State × Sum Nat (List Byte) :=
  (s.setObjN Obj.CAL_SNAP_SEQ (s.objN Obj.CAL_SNAP_SEQ + 1), .inr s.calImage)

/-- CAL_SNAPSHOT_READ. -/
def execCalSnapshotRead (dt : Nat) (path : DictPath) (s : State) : Host.Outcome State Fault Refusal :=
  s.functional dt fun s => s.uploadCmd path Obj.CAL_SNAPSHOT State.takeSnapshot

/-- Whether a die's profile has a page type: type 0 always, the others where a class that the die runs maps a page to them. -/
def State.hasType (s : State) (d t : Nat) : Bool :=
  let inMap (off : Nat) : Bool := (List.range 256).any fun p => bits (s.profile d (off + p / 2) 1) (p % 2 * 4) 4 == t
  t == 0 || (t < 4 && (s.dieRuns d 1 || s.dieRuns d 2) && inMap 512) || (4 ≤ t && (s.dieRuns d 3 || s.dieRuns d 4) && inMap 640)

/-- Whether a die record of an image is skipped (R332). -/
def State.skipRecord (s : State) (r : List Byte) : Bool :=
  let d := leAt r 0 2
  !(s.diePresent d) || leAt r 8 8 != s.objN Obj.DIE_ID (dieSlot d) (dieChannel d)
    || (List.range 2048).any fun i =>
      let v := signedOf 8 (byteAt r (16 + i)).toNat
      v < s.profileI8 d 110 || s.profileI8 d 111 < v || (v != 0 && !(s.hasType d (i % 8)))

/-- A die record goes into force as a run would, without token or media time (R332); results that still waited give way. -/
def State.applyRecord (s : State) (r : List Byte) : State :=
  let d := leAt r 0 2
  let s1 := if (s.calDie d).hold.isSome then s.dropLevels d 1 else s
  let old := s1.liveCopy d
  let new := (List.range 2048).map fun i => (i, signedOf 8 (byteAt r (16 + i)).toNat)
  let changed := (new.filter fun x => signedOf 8 (byteAt old x.1).toNat != x.2).length
  s1.updCal d fun c => { c with hold := some s.now, result := new, kind := 3, changed, cmd := none
                                newTemp := signedOf 8 (leAt r 2 1), newTime := s.now }

/-- The check of R332 that an image fails first: its result, or 1. -/
def State.restoreCheck (s : State) (b : List Byte) : Nat :=
  let len := 64 + 2064 * leAt b 8 2 + 196 * leAt b 10 2
  if leAt b 0 4 != 0x534C4143 || leAt b 4 2 != 1 || leAt b 12 4 != len || b.length != len then 2
  else if leAt b 60 4 != crc32c (b.take 60 ++ b.drop 64) then 3
  else if leAt b 6 2 != s.build.channels then 4
  else if s.calBase = 0 then 5
  else 1

/-- An image written to CAL_SNAPSHOT (R332). -/
def endCalRestore (b : List Byte) (s : State) : State × Nat :=
  let res := s.restoreCheck b
  if res != 1 then (s.setObjN Obj.CAL_RESTORE_STATUS res, rcRefused)
  else
    let recs := (List.range (leAt b 8 2)).map fun i => (b.drop (64 + 2064 * i)).take 2064
    let good := recs.filter fun r => !(s.skipRecord r)
    let s1 := good.foldl State.applyRecord s
    let s2 := s1.setObjN Obj.CAL_RESTORE_STATUS (1 + (recs.length - good.length) % 2 ^ 12 * 2 ^ 8 + good.length % 2 ^ 12 * 2 ^ 20)
    ((s2.setObjN Obj.CAL_SNAP_SEQ (max (s2.objN Obj.CAL_SNAP_SEQ) (leAt b 16 8 + 1))).armAll, rcOk)

/-- CAL_RESTORE. -/
def execCalRestore (dt : Nat) (path : DictPath) (image : List Byte) (s : State) : Host.Outcome State Fault Refusal :=
  s.functional dt fun s => s.downloadCmd path Obj.CAL_SNAPSHOT image (endCalRestore image)

end Sys2Proof.Machine
end

