-- ==== Sys2Proof/Machine/Filing.lean ====
section
/-!
DEFINITION. Machine/Filing.lean: the meanings of the command opcodes, each filed by its path (R97, R103, R110, R116), and of
LSW_GO (R122, R123). What a filed command does when it starts stands with COMMAND_START and the steps that follow.
-/

namespace Sys2Proof.Machine

open Sys2Proof

/-- READ (R109, R132), opcode 0x01. -/
def execRead (dt : Nat) (via : CmdVia) (hdr : Header) (s : State) : Host.Outcome State Fault Refusal :=
  s.functional dt fun s => s.submit 0x01 via hdr

/-- WRITE (R109, R138), opcode 0x02. -/
def execWrite (dt : Nat) (via : CmdVia) (hdr : Header) (s : State) : Host.Outcome State Fault Refusal :=
  s.functional dt fun s => s.submit 0x02 via hdr

/-- FLUSH (R110, R142), opcode 0x03. -/
def execFlush (dt : Nat) (via : CmdVia) (hdr : Header) (s : State) : Host.Outcome State Fault Refusal :=
  s.functional dt fun s => s.submit 0x03 via hdr

/-- DISCARD (R109, R139), opcode 0x04. -/
def execDiscard (dt : Nat) (via : CmdVia) (hdr : Header) (s : State) : Host.Outcome State Fault Refusal :=
  s.functional dt fun s => s.submit 0x04 via hdr

/-- SECURE_DISCARD (R109, R140), opcode 0x05. -/
def execSecureDiscard (dt : Nat) (via : CmdVia) (hdr : Header) (s : State) : Host.Outcome State Fault Refusal :=
  s.functional dt fun s => s.submit 0x05 via hdr

/-- FENCE (R110, R137), opcode 0x07. -/
def execFence (dt : Nat) (via : CmdVia) (hdr : Header) (s : State) : Host.Outcome State Fault Refusal :=
  s.functional dt fun s => s.submit 0x07 via hdr

/-- STREAM_OPEN (R112), opcode 0x08. -/
def execStreamOpen (dt : Nat) (via : CmdVia) (hdr : Header) (s : State) : Host.Outcome State Fault Refusal :=
  s.functional dt fun s => s.submit 0x08 via hdr

/-- STREAM_CLOSE (R113), opcode 0x09. -/
def execStreamClose (dt : Nat) (via : CmdVia) (hdr : Header) (s : State) : Host.Outcome State Fault Refusal :=
  s.functional dt fun s => s.submit 0x09 via hdr

/-- PARK (R110, R153), opcode 0x0A. -/
def execPark (dt : Nat) (via : CmdVia) (hdr : Header) (s : State) : Host.Outcome State Fault Refusal :=
  s.functional dt fun s => s.submit 0x0A via hdr

/-- MODE (R111, R28), opcode 0x0B. -/
def execMode (dt : Nat) (via : CmdVia) (hdr : Header) (s : State) : Host.Outcome State Fault Refusal :=
  s.functional dt fun s => s.submit 0x0B via hdr

/-- COPY (R116), opcode 0x20. -/
def execCopy (dt : Nat) (via : CmdVia) (hdr : Header) (s : State) : Host.Outcome State Fault Refusal :=
  s.functional dt fun s => s.submit 0x20 via hdr

/-- ERASE (R116), opcode 0x21. -/
def execErase (dt : Nat) (via : CmdVia) (hdr : Header) (s : State) : Host.Outcome State Fault Refusal :=
  s.functional dt fun s => s.submit 0x21 via hdr

/-- RAW_READ (R116), opcode 0x22. -/
def execRawRead (dt : Nat) (via : CmdVia) (hdr : Header) (s : State) : Host.Outcome State Fault Refusal :=
  s.functional dt fun s => s.submit 0x22 via hdr

/-- RAW_PROGRAM (R116), opcode 0x23. -/
def execRawProgram (dt : Nat) (via : CmdVia) (hdr : Header) (s : State) : Host.Outcome State Fault Refusal :=
  s.functional dt fun s => s.submit 0x23 via hdr

/-- SCRUB (R116), opcode 0x24. -/
def execScrub (dt : Nat) (via : CmdVia) (hdr : Header) (s : State) : Host.Outcome State Fault Refusal :=
  s.functional dt fun s => s.submit 0x24 via hdr

/-- CALIBRATE (R116), opcode 0x25. -/
def execCalibrate (dt : Nat) (via : CmdVia) (hdr : Header) (s : State) : Host.Outcome State Fault Refusal :=
  s.functional dt fun s => s.submit 0x25 via hdr

/-- FOLD (R116), opcode 0x26. -/
def execFold (dt : Nat) (via : CmdVia) (hdr : Header) (s : State) : Host.Outcome State Fault Refusal :=
  s.functional dt fun s => s.submit 0x26 via hdr

/-- BLANK_CHECK (R116), opcode 0x27. -/
def execBlankCheck (dt : Nat) (via : CmdVia) (hdr : Header) (s : State) : Host.Outcome State Fault Refusal :=
  s.functional dt fun s => s.submit 0x27 via hdr

/-- PURGE (R116), opcode 0x28. -/
def execPurge (dt : Nat) (via : CmdVia) (hdr : Header) (s : State) : Host.Outcome State Fault Refusal :=
  s.functional dt fun s => s.submit 0x28 via hdr

/-- REPLAY_SCAN (R116), opcode 0x29. -/
def execReplayScan (dt : Nat) (via : CmdVia) (hdr : Header) (s : State) : Host.Outcome State Fault Refusal :=
  s.functional dt fun s => s.submit 0x29 via hdr

/-- ACTIVATE_MICROCODE (R116), opcode 0x2A. -/
def execActivateMicrocode (dt : Nat) (via : CmdVia) (hdr : Header) (s : State) : Host.Outcome State Fault Refusal :=
  s.functional dt fun s => s.submit 0x2A via hdr

/-- PARITY_REBUILD (R116), opcode 0x2B. -/
def execParityRebuild (dt : Nat) (via : CmdVia) (hdr : Header) (s : State) : Host.Outcome State Fault Refusal :=
  s.functional dt fun s => s.submit 0x2B via hdr

/-- LSW_GO written: 1 submits the header of the processor's window (R122, R123). -/
def writeLswGo (p : Nat) (s : State) (v : Nat) : State × Nat :=
  if v != 1 then s.outOfRange else (s.localCmd p (s.proc p).lswHdr, rcOk)

/-- LSW_GO. -/
def execLswGo (dt : Nat) (path : DictPath) (value : W64) (s : State) : Host.Outcome State Fault Refusal :=
  s.functional dt fun s => s.writeCmd path Obj.LSW_GO value (writeLswGo (pathProc path))

end Sys2Proof.Machine
end

