-- ==== Sys2Proof/Machine/Interrupts.lean ====
section
/-!
DEFINITION. Machine/Interrupts.lean: the meanings of the interrupt controller's commands (R446, R447, R450, R452, R454, R456,
R458).
-/

namespace Sys2Proof.Machine

open Sys2Proof

/-- A processor's priority stack changed (R451). -/
def State.updStack (s : State) (p : Nat) (f : List (Nat × Nat) → List (Nat × Nat)) : State :=
  { s with ints := { s.ints with handlers := listUpd s.ints.handlers p f } }

/-- INT_CLAIM read: the best eligible source becomes active and its entry is pushed, a latch is cleared; an empty claim is
counted (R450). -/
def readIntClaim (p : Nat) (s : State) : State × Nat × Nat :=
  match s.intBest p with
  | some k =>
    let prio := s.intPrio k
    ((s.updStack p fun st => st ++ [(keyId k, prio)]).clearLatch k, rcOk, keyId k + prio * 2 ^ 12)
  | none => (s.updProc p fun x => { x with empty := satAdd 0xFFFFFFFF x.empty 1 }, rcOk, 0x80000000)

/-- INT_CLAIM. -/
def execIntClaim (dt : Nat) (proc : Nat) (s : State) : Host.Outcome State Fault Refusal :=
  s.functional dt fun s => s.readCmd (.cfg proc) Obj.INT_CLAIM (readIntClaim proc)

/-- INT_EOI written: the source's entry leaves the stack, wherever it stands; else the write is a stray (R452). -/
def writeIntEoi (p : Nat) (s : State) (v : Nat) : State × Nat :=
  let k := intKey p (bits v 0 9)
  if s.activeFor p k then (s.updStack p fun st => st.filter fun e => intKey p e.1 != k, rcOk)
  else (s.updProc p fun x => { x with stray := satAdd 0xFFFFFFFF x.stray 1 }, rcOk)

/-- INT_EOI. -/
def execIntEoi (dt : Nat) (proc : Nat) (value : W64) (s : State) : Host.Outcome State Fault Refusal :=
  s.functional dt fun s => s.writeCmd (.cfg proc) Obj.INT_EOI value (writeIntEoi proc)

/-- INT_SOFT written: the latch of software source N in the bank of each processor named (R447). -/
def writeIntSoft (s : State) (v : Nat) : State × Nat :=
  (((List.range 8).filter fun p => tbit v (8 + p)).foldl (fun a p => a.setLatch (512 + 32 * p + bits v 0 4)) s, rcOk)

/-- INT_SOFT. -/
def execIntSoft (dt : Nat) (proc : Nat) (value : W64) (s : State) : Host.Outcome State Fault Refusal :=
  s.functional dt fun s => s.writeCmd (.cfg proc) Obj.INT_SOFT value writeIntSoft

/-- The synchronized level of SLEEP_IND of a processor (R458). -/
def State.setSleep (proc : Nat) (level : Bool) (s : State) : State :=
  { s with ints := { s.ints with sleep := listUpd s.ints.sleep proc fun _ => level } }

/-- SLEEP_IND: the synchronized level of a processor; while it is 1, every group of it with items opens as the cycle settles
(R458). -/
def execSleepInd (dt : Nat) (proc : Nat) (level : Bool) (s : State) : Host.Outcome State Fault Refusal :=
  s.onPin dt (State.setSleep proc level) (State.setSleep proc level)

/-- COAL_TIMER: a group whose time threshold has passed opens (R456). -/
def execCoalTimer (dt : Nat) (group : Nat) (s : State) : Host.Outcome State Fault Refusal :=
  s.functional dt fun s => if s.coalExpired group then s.coalOpen group false else s

/-- INT_SEL written (R446). -/
def writeIntSel (p : Nat) (s : State) (v : Nat) : State × Nat :=
  if v < 512 then (s.updProc p fun x => { x with intSel := v }, rcOk) else s.outOfRange

/-- INT_CFG written: a member's target must be its group's (R446). -/
def writeIntCfg (p : Nat) (s : State) (v : Nat) : State × Nat :=
  let id := (s.proc p).intSel
  let k := intKey p id
  let cfg := v.land 0xFCEF01
  let target := if id < 480 then bits cfg 13 3 else p
  if tbit cfg 23 && s.coalTarget (bits cfg 18 5) != target then s.outOfRange
  else
    let kept := if id < 480 then cfg else setBits cfg 13 3 0
    let put := if kept = 0 then mapDel s.ints.cfg k else mapPut s.ints.cfg k (BitVec.ofNat 32 kept)
    ({ s with ints := { s.ints with cfg := put } }, rcOk)

/-- INT_COAL written (R454). -/
def writeIntCoal (g : Nat) (s : State) (v : Nat) : State × Nat :=
  let time := bits v 32 32
  let most := if tbit v 16 then 65535 else 4000000000
  if bits v 0 8 = 0 || time = 0 || most < time || (bits v 8 3 != s.coalTarget g && !(s.groupSources g).isEmpty) then s.outOfRange
  else s.store Obj.INT_COAL g 0 v

end Sys2Proof.Machine
end

