-- ==== Sys2Proof/Machine/Protection.lean ====
section
/-!
DEFINITION. Machine/Protection.lean: the meanings of the protection and power-loss commands: the pool scan (R344), levels and the
seal (R348, R353), system areas (R339, R357), the boot window (R358 to R361), parameter saves (R345), the raw unlock (R354), the
sanitize sequence (R370, R371) and the power-fail drain (R362 to R367).
-/

namespace Sys2Proof.Machine

open Sys2Proof

/-! ### The pool scan (R344) -/

/-- A page of the scan with its block and its record, if it holds a valid one. -/
structure ScanPage where
  at_ : BlockAddr
  page : Nat
  rec_ : Option (Nat × Nat × Nat × List Byte)
  deriving DecidableEq, Repr

/-- The pages of pool blocks on the usable system dies (R338, R342). -/
def scanPages (usable0 usable1 : Bool) (pages : List PoolPage) : List ScanPage :=
  (pages.filter fun p => (if p.sysDie = 0 then usable0 else usable1 && p.sysDie == 1) && p.plane < 2 && 1 ≤ p.block && p.block ≤ 32).map
    fun p => { at_ := { die := 16 * p.sysDie, plane := p.plane, block := p.block }, page := p.page, rec_ := parseRecord p.bytes }

/-- The pool blocks with a valid header, their ERASES, and the pages found in use in them (R341, R343). -/
def scanBlocks (ps : List ScanPage) : List PoolBlk :=
  ps.filterMap fun p => match p.rec_ with
    | some (0, _, _, b) =>
      if p.page = 0 then
        some { at_ := p.at_, erases := leAt b 0 4, used := ((ps.filter fun q => q.at_ == p.at_).map fun q => q.page + 1).foldl max 1 }
      else none
    | _ => none

/-- The latest record of each KIND and SLOT in blocks with a header, with the blocks that hold it. -/
def scanRecords (ps : List ScanPage) (blocks : List PoolBlk) : List PoolRec :=
  let rs := ps.filterMap fun p => match p.rec_ with
    | some (k, sl, q, b) => if k != 0 && blocks.any fun x => x.at_ == p.at_ then some (p.at_, k, sl, q, b) else none
    | none => none
  rs.foldl (fun acc r =>
    let same (x : PoolRec) : Bool := x.kind == r.2.1 && x.slot == r.2.2.1
    match acc.find? same with
    | none => acc ++ [{ kind := r.2.1, slot := r.2.2.1, seq := r.2.2.2.1, payload := r.2.2.2.2, homes := [r.1] }]
    | some x =>
      if x.seq < r.2.2.2.1 then
        (acc.filter fun y => !(same y)) ++ [{ x with seq := r.2.2.2.1, payload := r.2.2.2.2, homes := [r.1] }]
      else if x.seq = r.2.2.2.1 then acc.map fun y => if same y then { y with homes := y.homes ++ [r.1] } else y
      else acc) []

/-- LAST_END (R367). -/
def lastEndOf (records : List PoolRec) (spent : Bool) : Nat :=
  match records.find? fun r => r.kind == 3 with
  | none => 0
  | some d =>
    if !spent then 0
    else match records.find? fun r => r.kind == 4 with
      | some r => if leAt r.payload 0 8 == d.seq then leAt r.payload 32 1 else 3
      | none => 3

/-- The SLC-mode pages per block that a parameter page implies (R357). -/
def slcPagesOf (r : DieReport) : Nat := r.pages / max 1 r.cellBits

/-- What the scan finds, taken into force (R344, R364): a system die is usable where it passes checks 1 to 6 of R232 (R340), and `spent` are
the dies whose rescue set shows a programmed page. -/
def State.takeScan (s : State) (sys0 sys1 : DieReport) (spent : List Nat) (pages : List PoolPage) : State :=
  let usable0 := earlyCheck sys0 == 0
  let usable1 := earlyCheck sys1 == 0
  let slc0 := if usable0 then slcPagesOf sys0 else 0
  let slc1 := if usable1 then slcPagesOf sys1 else 0
  let ps := scanPages usable0 usable1 pages
  let blocks := scanBlocks ps
  let records := scanRecords ps blocks
  let seq := (ps.filterMap fun p => p.rec_.map fun r => r.2.2.1).foldl max 0
  let dir := match records.find? fun r => r.kind == 3 with
    | some r => dirSets r.payload spent
    | none => []
  let p := { s.prot with ready := true, usable0, usable1, slc0, slc1, records, pool := blocks, poolSeq := seq
                         rescue := dir, rescueDir := dir, lastEnd := lastEndOf records (dir.any fun r => r.spent) }
  let p1 : ProtSt := if !usable0 && !usable1 then { p with level := 2, noSystemDie := true }
    else if blocks.isEmpty then { p with level := 0, poolBlank := true }
    else match records.find? fun r => r.kind == 1 with
      | none => { p with level := 2, recordLost := true }
      | some r =>
        let b := r.payload
        let cut := leAt b 1 1 != 0
        { p with level := min 2 (leAt b 0 1), sanInterrupted := cut, sanTarget := leAt b 2 1, bootFirst := leAt b 4 2
                 bootCount := leAt b 6 2, rawFirst := leAt b 8 2, rawCount := leAt b 10 2, levelChanges := leAt b 12 4
                 sanResult := if cut then 5 else 0 }
  { s with prot := p1, phase := .running }

/-- PROT_READY: the pool scan ends. -/
def execProtReady (dt : Nat) (sys0 sys1 : DieReport) (spent : List Nat) (pages : List PoolPage) (s : State) :
    Host.Outcome State Fault Refusal :=
  s.functional dt fun s =>
    if s.phase == .scanning then (s.takeScan sys0 sys1 spent pages).progress else s

/-! ### Level, seal and system areas -/

/-- A protection record written before what it says is in force; without a pool that can take it, and from a power failure on,
the write fails and changes nothing. -/
def State.protWrite (s : State) (level changes : Nat) (boot raw : Nat × Nat) (f : State → State) : State × Nat :=
  let r := s.writeProt level changes boot raw
  if s.prot.pfail || !r.2 then s.outOfRange else (f r.1, rcOk)

/-- PROT_LEVEL_RAISE written (R348). -/
def writeLevel (s : State) (v : Nat) : State × Nat :=
  let p := s.prot
  let n := (p.levelChanges + 1) % 2 ^ 32
  if p.sanRunning || v < p.level || 2 < v then s.outOfRange
  else if v = p.level then (s, rcOk)
  else s.protWrite v n (p.bootFirst, p.bootCount) (p.rawFirst, p.rawCount) fun a =>
    { a with prot := { a.prot with level := v, levelChanges := n } }

/-- PROT_LEVEL_RAISE. -/
def execProtLevelRaise (dt : Nat) (path : DictPath) (value : W64) (s : State) : Host.Outcome State Fault Refusal :=
  s.functional dt fun s => s.writeCmd path Obj.PROT_LEVEL_RAISE value writeLevel

/-- SEAL written (R353). -/
def writeSeal (s : State) (v : Nat) : State × Nat :=
  if v != 0x5EA1 || s.prot.sealed then s.outOfRange else ({ s with prot := { s.prot with sealed := true } }, rcOk)

/-- SEAL. -/
def execSeal (dt : Nat) (path : DictPath) (value : W64) (s : State) : Host.Outcome State Fault Refusal :=
  s.functional dt fun s => s.writeCmd path Obj.SEAL value writeSeal

/-- Whether `n` blocks from `f` lie inside an area of `m` blocks from `g`. -/
def areaWithin (f n g m : Nat) : Bool := n == 0 || (g ≤ f && f + n ≤ g + m)

/-- BOOT_REGION written (R357). -/
def writeBootRegion (s : State) (v : Nat) : State × Nat :=
  let p := s.prot
  let first := bits v 16 16
  let count := bits v 0 16
  if !(areaWithin first count p.rawFirst p.rawCount) then s.outOfRange
  else s.protWrite p.level p.levelChanges (first, count) (p.rawFirst, p.rawCount) fun a =>
    { a with prot := { a.prot with bootFirst := first, bootCount := count, bwHeld := [] } }

/-- BOOT_REGION_WRITE. -/
def execBootRegionWrite (dt : Nat) (path : DictPath) (value : W64) (s : State) : Host.Outcome State Fault Refusal :=
  s.functional dt fun s => s.writeCmd path Obj.BOOT_REGION value writeBootRegion

/-- The blocks of a raw area on the system dies that are usable (R338). -/
def State.rawBlocks (s : State) (first count : Nat) : List BlockAddr :=
  (s.sysDies.map fun d => (List.range count).map fun i => ({ die := d, plane := 0, block := first + i } : BlockAddr)).flatten

/-- RAW_AREA written (R339, R374): while the allocator is enabled, added blocks must be free and become SYSTEM, and blocks that
leave become FREE_UNCHECKED. -/
def writeRawArea (s : State) (v : Nat) : State × Nat :=
  let p := s.prot
  let first := bits v 16 16
  let count := bits v 0 16
  let old := s.rawBlocks p.rawFirst p.rawCount
  let new := s.rawBlocks first count
  let on := tbit (s.objN Obj.ALLOC_CTRL) 0
  let added := new.filter fun b => !(old.contains b)
  let left := old.filter fun b => !(new.contains b)
  let free (b : BlockAddr) : Bool := (s.ledger b).state == lsFreeUnchecked || (s.ledger b).state == lsFreeReady
  let mark (st : Nat) (l : List BlockAddr) (a : State) : State :=
    if on then l.foldl (fun x b => x.updLedger b fun e => { e with state := st }) a else a
  if first < 33 || !(areaWithin p.bootFirst p.bootCount first count) || (on && !(added.all free)) then s.outOfRange
  else s.protWrite p.level p.levelChanges (p.bootFirst, p.bootCount) (first, count) fun a =>
    let b := { a with prot := { a.prot with rawFirst := first, rawCount := count
                                            rawNext := a.prot.rawNext.filter fun x => !(left.contains x.1) } }
    (mark lsFreeUnchecked left (mark lsSystem added b)).progress

/-- RAW_AREA_WRITE. -/
def execRawAreaWrite (dt : Nat) (path : DictPath) (value : W64) (s : State) : Host.Outcome State Fault Refusal :=
  s.functional dt fun s => s.writeCmd path Obj.RAW_AREA value writeRawArea

/-! ### The boot window -/

/-- BW_CTRL written (R361). -/
def writeBwCtrl (s : State) (v : Nat) : State × Nat :=
  if tbit v 0 && s.prot.sealed then s.outOfRange
  else ({ s with prot := { s.prot with bwOpen := tbit v 0, bwHeld := [] } }, rcOk)

/-- BW_CTRL_WRITE. -/
def execBwCtrlWrite (dt : Nat) (path : DictPath) (value : W64) (s : State) : Host.Outcome State Fault Refusal :=
  s.functional dt fun s => s.writeCmd path Obj.BW_CTRL value writeBwCtrl

/-- BW_FETCH (R358 to R361, R529): ignored while the window is closed and from a power failure on; ignored and counted where a
fetch is outstanding or the address is not a multiple of 64; taken at any time after release, it waits for PROT_READY. -/
def execBwFetch (dt : Nat) (addr : Nat) (page0 page1 : Option (List Byte)) (ahead : List (List Byte)) (s : State) :
    Host.Outcome State Fault Refusal :=
  if s.testMode = false ∧ s.phase = .clearing then .next ((s.elapse dt).holdFetch addr page0 page1 ahead)
  else s.functional dt fun s =>
    let a := s.holdFetch addr page0 page1 ahead
    if !s.prot.bwOpen || s.prot.pfail then s else if s.fetchBad addr then a else State.serveBoot 3 a

/-- BW_FETCH_WAIT_EXPIRED (R360): a fetch whose die has stayed busy for the profile's tBERS maximum goes to the other one. -/
def execBwFetchWaitExpired (dt : Nat) (s : State) : Host.Outcome State Fault Refusal :=
  s.functional dt fun s =>
    match s.prot.bwPending with
    | some f =>
      if !s.prot.pfail && (s.bootBusy f.which).isSome && s.bootDie (1 - f.which) && f.since + s.profile (16 * f.which) 84 4 ≤ s.now then
        State.serveBoot 3 { s with prot := { s.prot with bwPending := some { f with which := 1 - f.which, since := s.now } } }
      else s
    | none => s

/-! ### Parameter saves (R345) -/

/-- The result of a save or a read of PSAVE_DATA recorded. -/
def State.psaved (s : State) (result : Nat) : State := { s with prot := { s.prot with psaveResult := result } }

/-- A block of the pool whose program failed holds no valid header any more (R343). -/
def State.dropPoolTarget (s : State) : State :=
  match s.formatPool.poolTarget s.sysDies with
  | some b => { s.formatPool with prot := { s.formatPool.prot with pool := s.formatPool.prot.pool.filter fun x => x.at_ != b.at_ } }
  | none => s

/-- A download to PSAVE_DATA ends (R345, R373); `programmed` is what the program of its record returned. -/
def endPsave (bs : List Byte) (programmed : Bool) (s : State) : State × Nat :=
  if s.prot.pfail || s.prot.sanRunning then (s.psaved 5, rcRefused)
  else if 16320 < bs.length then (s.psaved 2, rcRefused)
  else if s.prot.noSystemDie then (s.psaved 3, rcRefused)
  else if !programmed then (s.dropPoolTarget.psaved 3, rcRefused)
  else
    let r := s.writeRecord 2 (s.objN Obj.PSAVE_SLOT) bs
    if r.2 then (r.1.psaved 1, rcOk) else (s.psaved 3, rcRefused)

/-- PSAVE_DATA read: the latest valid record of the selected slot (R345). -/
def readPsave (s : State) : State × Sum Nat (List Byte) :=
  match s.recordOf 2 (s.objN Obj.PSAVE_SLOT) with
  | some r => (s, .inr r.payload)
  | none => (s.psaved 4, .inl rcNoData)

/-- PSAVE_DATA_WRITE. -/
def execPsaveDataWrite (dt : Nat) (path : DictPath) (bytes : List Byte) (programmed : Bool) (s : State) :
    Host.Outcome State Fault Refusal :=
  s.functional dt fun s => s.downloadCmd path Obj.PSAVE_DATA bytes (endPsave bytes programmed)

/-! ### The raw unlock (R354) -/

def State.armOf (s : State) (p : Nat) : Arm := (s.prot.arms.find? fun a => a.path == p).getD { path := p }

/-- The unlock state of a path set; a path with neither stage nor arm is not listed. -/
def State.setArm (s : State) (a : Arm) : State :=
  let rest := s.prot.arms.filter fun x => x.path != a.path
  { s with prot := { s.prot with arms := if a.staged.isNone && a.armed.isNone then rest else rest ++ [a] } }

/-- A failed key write: the path's stage and arm are cleared, it is counted, and LAST_ERR says why (R354, R374). -/
def State.keyFail (s : State) (p err : Nat) : State × Nat :=
  let s1 := (s.bump Obj.RMP_KEY_ERR).setArm { path := p }
  ({ s1 with prot := { s1.prot with rmpLastErr := err } }, rcRange)

/-- RMP_KEY1 written through a path. -/
def writeKey1 (p : Nat) (s : State) (v : Nat) : State × Nat :=
  if v != 0x4B4C then s.keyFail p 1 else (s.setArm { s.armOf p with staged := some s.now }, rcOk)

/-- RMP_KEY2 written through a path. -/
def writeKey2 (p : Nat) (s : State) (v : Nat) : State × Nat :=
  if v != 0xB4B3 then s.keyFail p 2
  else match (s.armOf p).staged with
    | none => s.keyFail p 3
    | some t =>
      if t + s.objN Obj.RMP_ARM_NS < s.now then s.keyFail p 4
      else (s.setArm { path := p, staged := none, armed := some s.now }, rcOk)

/-- RMP_KEY1. -/
def execRmpKey1 (dt : Nat) (path : DictPath) (value : W64) (s : State) : Host.Outcome State Fault Refusal :=
  s.functional dt fun s => s.writeCmd path Obj.RMP_KEY1 value (writeKey1 (pathArm path))

/-- RMP_KEY2. -/
def execRmpKey2 (dt : Nat) (path : DictPath) (value : W64) (s : State) : Host.Outcome State Fault Refusal :=
  s.functional dt fun s => s.writeCmd path Obj.RMP_KEY2 value (writeKey2 (pathArm path))

/-- RMP_ARM_LAPSE: a stage or an arm of a path older than RMP_ARM_NS is gone (R354). -/
def execRmpArmLapse (dt : Nat) (path : DictPath) (s : State) : Host.Outcome State Fault Refusal :=
  s.functional dt fun s =>
    let a := s.armOf (pathArm path)
    let late (x : Option Nat) : Bool := x.any fun t => t + s.objN Obj.RMP_ARM_NS < s.now
    if path != .fn && (late a.staged || late a.armed) then
      let s1 := s.setArm { a with staged := if late a.staged then none else a.staged, armed := if late a.armed then none else a.armed }
      { s1 with prot := { s1.prot with rmpLastErr := 4 } }
    else s

/-! ### The sanitize sequence -/

/-- SAN_CTRL written (R370). -/
def writeSanCtrl (s : State) (v : Nat) : State × Nat :=
  let op := bits v 0 2
  let target := bits v 8 2
  if s.modes.current != .sanitize || s.prot.sanRunning || s.prot.pfail || op = 0 || (op = 3 && s.prot.level ≤ target) then s.outOfRange
  else
    let p := { s.prot with sanRunning := true, sanBegun := false, sanOp := op, sanResult := 1
                           sanTarget := if op = 3 then target else s.prot.level }
    ((({ s with prot := p }).beginSanitize).sanErases, rcOk)

/-- A write of SAN_CTRL with the OP of a command; another value is not this command. -/
def State.sanCmd (s : State) (path : DictPath) (op : Nat) (value : W64) : State :=
  if fld value 0 2 = op then s.writeCmd path Obj.SAN_CTRL value writeSanCtrl else s

/-- ERASE_USER: OP 1. -/
def execEraseUser (dt : Nat) (path : DictPath) (value : W64) (s : State) : Host.Outcome State Fault Refusal :=
  s.functional dt fun s => s.sanCmd path 1 value

/-- ERASE_ALL: OP 2. -/
def execEraseAll (dt : Nat) (path : DictPath) (value : W64) (s : State) : Host.Outcome State Fault Refusal :=
  s.functional dt fun s => s.sanCmd path 2 value

/-- LOWER: OP 3. -/
def execLower (dt : Nat) (path : DictPath) (value : W64) (s : State) : Host.Outcome State Fault Refusal :=
  s.functional dt fun s => s.sanCmd path 3 value

/-- What the block holds of the media's contents ends with their erase: superblocks, interim blocks, buffered versions. -/
def State.forgetMedia (s : State) : State :=
  let s1 := (s.versions.map fun v => v.id).foldl State.dropVersion s
  let s2 := s1.sbUsed.foldl (fun a i => a.setSbField i 0 1 sbFree) s1
  let s3 := s2.cometDiscard fun _ => true
  { s3 with sbs := [], interimBlocks := [], zeroFrom := [], origins := [], allocReqs := [] }

/-- Every listed map entry of every enabled unit written UNMAPPED (R371, step 5). -/
def State.unmapAll (s : State) : State :=
  s.enabledUnits.foldl (fun a u => (a.listedGranules u).foldl (fun b g => b.mapSet u g 0) a) s

/-- An erased block in the ledger: FREE_READY, one more erase, empty, its wear judged as after each good erase; system areas stay SYSTEM
(R185, R194, R339, R371, step 5). -/
def State.sanFree (s : State) (b : BlockAddr) : State :=
  let sys := s.systemBlocks.contains b
  let s1 := s.updLedger b fun e =>
    { e with state := if sys then lsSystem else lsFreeReady, eraseCount := satAdd 0xFFFFFFFF e.eraseCount 1
             eraseTime := s.now / 1000000000 % 2 ^ 32, valid := 0, minLba := lbaEmptyMin, maxLba := 0, sb := 0xFFFFFFFF }
  (if sys then s1 else s1.judgeWear b).dropRescue b

/-- The pool rewritten: headers, the directory and the protection record alone (R371, step 4). -/
def State.rewritePool (s : State) : State :=
  let keep := s.prot.records.filter fun r => r.kind == 1 || r.kind == 3
  let s1 := { s with prot := { s.prot with records := [], pool := s.prot.pool.map fun (b : PoolBlk) => { b with erases := b.erases + 1, used := 1 } } }
  keep.foldl (fun a r => (a.writeRecord r.kind r.slot r.payload).1) s1

/-- Whether every selected block is done with: erased, filled with zeros, or not to be cleared (R371, step 3). -/
def State.sanOver (s : State) : Bool :=
  s.prot.sanBegun && !s.prot.pfail && s.prot.sanBlocks.isEmpty && !(s.ops.any fun o => o.kind.ofSanitize)

/-- SANITIZE_DONE: the sequence runs to its end once every selected block has been seen to (R371, steps 3 to 6). A block that could only
be filled with zeros is GROWN_BAD (R209), as is one that was not cleared, which keeps the level and gives RESULT 3. -/
def execSanitizeDone (dt : Nat) (s : State) : Host.Outcome State Fault Refusal :=
  s.functional dt fun s =>
    if !s.sanOver then s
    else
      let op := s.prot.sanOp
      let bad := s.prot.sanBad
      let on := tbit (s.objN Obj.ALLOC_CTRL) 0
      let s1 := (s.unmapAll).forgetMedia
      let s2 := if on then (bad ++ s.prot.sanFilled).foldl State.growBad (s.prot.sanGood.foldl State.sanFree s1)
        else (s.prot.sanGood ++ s.prot.sanFilled ++ bad).foldl State.dropRescue s1
      let s3 := { s2 with prot := { s2.prot with bwHeld := [], rawNext := if op = 1 then s2.prot.rawNext else [] } }
      let s4 := if op = 1 then s3 else s3.rewritePool
      let p := s4.prot
      let level := if op = 3 && bad.isEmpty then p.sanTarget else p.level
      let boot := if op = 1 then (p.bootFirst, p.bootCount) else (0, 0)
      let r := s4.writeProtRecord level 0 level p.levelChanges boot.1 boot.2 p.rawFirst p.rawCount
      let s5 := if r.2 then
          { r.1 with prot := { r.1.prot with level, bootFirst := boot.1, bootCount := boot.2, sanInterrupted := false, recordLost := false } }
        else s4
      ((s5.dropTokens 0).endSanitize (if bad.isEmpty && r.2 then 2 else 3)).progress

/-! ### Power failure (R362, R365) -/

/-- A place for a version in the rescue area: (row, member, plane, codewords already there). -/
structure RescueLane where
  row : Nat
  member : Nat
  plane : Nat
  cws : List (Nat × Nat)
  room : Nat
  deriving DecidableEq, Repr

/-- The lanes of data members of the unspent rows of the directory in force. -/
def State.rescueLanes (s : State) : List RescueLane :=
  let sets := s.prot.rescueDir.filter fun r => !r.spent && s.diePresent r.die && r.member < 15
  (sets.map fun r => (r.blocks.map fun b =>
    ({ row := r.row, member := r.member, plane := b.plane, cws := [], room := 4 * s.classPages r.die 0 } : RescueLane))).flatten

/-- A version's codewords put whole into the least filled lane of the first row with room; the flag falls at the first version
that finds none, and nothing after it is placed: an early end loses the newest data (R365). -/
def placeRescue (acc : List RescueLane × Bool) (v : Version) : List RescueLane × Bool :=
  let ls := acc.1
  let fits := if acc.2 then ls.filter fun l => l.cws.length + v.size ≤ l.room else []
  match minBy (fun l => l.row * 2 ^ 20 + l.cws.length) fits with
  | none => (ls, false)
  | some l =>
    let put (x : RescueLane) : RescueLane :=
      if x.row == l.row && x.member == l.member && x.plane == l.plane then
        { x with cws := x.cws ++ (List.range v.size).map fun i => (v.id, i) } else x
    (ls.map put, true)

/-- The die of a member of a rescue row. -/
def State.rescueDie (s : State) (row member : Nat) : Option Nat :=
  (s.prot.rescueDir.find? fun r => r.row == row && r.member == member).map fun r => r.die

/-- The rescue programs of a row, page by page, each page's parity unit after its data (R365, step 3). -/
def State.rescueOps (s : State) (ls : List RescueLane) (row : Nat) : State :=
  let mine := ls.filter fun l => l.row == row
  let pages := ceilDiv ((mine.map fun l => l.cws.length).foldl max 0) 4
  (List.range pages).foldl (fun a k =>
    let s1 := (distinct (mine.map fun l => l.member)).foldl (fun b m =>
      let cws := ((mine.filter fun l => l.member == m).map fun l =>
        (((l.cws.drop (4 * k)).take 4).zipIdx).map fun c => (4 * l.plane + c.2, c.1.1, c.1.2)).flatten
      match a.rescueDie row m with
      | some d => if cws.isEmpty then b else b.addOp d (.rescue row m k cws) (row * 2 ^ 20 + k) 0
      | none => b) a
    match a.rescueDie row 15 with
    | some d => s1.addOp d (.rescue row 15 k []) (row * 2 ^ 20 + k) 0
    | none => s1) s

/-- The drain's work laid out at T0 (R363, R365): accepted versions not yet programmed, in ascending write sequence. -/
def State.layDrain (s : State) : State :=
  let vs := sortBy (fun (a b : Version) => a.wseqs.foldl min (2 ^ 64) ≤ b.wseqs.foldl min (2 ^ 64)) (s.versions.filter fun v => v.moveFrom.isNone)
  let r := (vs.foldl placeRescue (s.rescueLanes, true)).1
  let pages := (distinct (r.map fun l => l.row)).map fun row =>
    (row, ceilDiv (((r.filter fun l => l.row == row).map fun l => l.cws.length).foldl max 0) 4)
  let s1 := { s with prot := { s.prot with drainQueue := vs.map fun v => v.id, drainPages := sortBy (fun a b => a.1 ≤ b.1) pages } }
  (distinct (r.map fun l => l.row)).foldl (fun a row => a.rescueOps r row) s1

/-- Accumulators of open rows dropped, spilled ones with their buffers (R365, step 2). -/
def State.dropAccumulators (s : State) : State :=
  s.sbs.foldl (fun a b =>
    let held := match b.row with
      | some r => r.spilled
      | none => []
    (a.dropBufs held).updSb b.sb fun x => { x with row := x.row.map fun r => { r with accP := [], accQ := [], spilled := [] } }) s

/-- PFAIL_N takes effect (R35, R154, R362, R365): T0. An activation is cancelled and its command not completed; dies in deep
power-down are brought out by DPD_EXIT. -/
def State.powerFail (s : State) : State :=
  let s1 := s.event 0x04 0 s.drainBudget
  let s2 := { s1 with prot := { s1.prot with pfail := true, draining := true, drainT0 := s.now, drainCws := 0, drainHigh := 0 } }
  let s3 := match s2.modes.pending with
    | some r => ({ s2 with modes := { s2.modes with pending := none, parkEntry := false, draining := false } }).refuseMode r.cmd 5
    | none => s2
  let s4 := if s3.modes.poweredDown then
      { s3 with modes := { s3.modes with poweredDown := false }
                chans := s3.chans.map fun (c : Nat × Chan) => (c.1, { c.2 with wpN := c.2.enumerated }) }
    else s3
  let s5 := (s4.cancelActivation).dropAccumulators
  let s6 := { s5 with ops := s5.ops.filter fun o => o.started || s5.opDrains o }
  if s6.running then s6.layDrain else s6

/-- PFAIL. -/
def execPfail (dt : Nat) (s : State) : Host.Outcome State Fault Refusal :=
  s.functional dt fun s => if s.prot.pfail then s else s.powerFail.progress

/-- DRAIN_DONE: no rescue unit is left; the drain record, PFAIL_DONE, and WP_N falls (R365, steps 4 and 5; R367). -/
def execDrainDone (dt : Nat) (s : State) : Host.Outcome State Fault Refusal :=
  s.functional dt fun s =>
    let p := s.prot
    let left := s.ops.any fun o => match o.kind with
      | .rescue _ _ _ _ => true
      | _ => false
    if !p.draining || p.pfailDone || left then s
    else
      let rec_ := leBytes 8 (((s.recordOf 3 0).map fun r => r.seq).getD 0) ++ leBytes 8 p.drainCws ++ leBytes 8 p.drainHigh
        ++ leBytes 8 p.drainT0 ++ leBytes 1 (if p.drainQueue.isEmpty then 1 else 2)
      let s1 := if s.running then (s.writeRecord 4 0 rec_).1 else s
      { s1 with prot := { s1.prot with draining := false, pfailDone := true }
                chans := s1.chans.map fun (c : Nat × Chan) => (c.1, { c.2 with wpN := false }) }

end Sys2Proof.Machine
end

