-- ==== Sys2Proof/Machine/Forust.lean ====
section
/-!
DEFINITION. Machine/Forust.lean: microwords (R380 to R386, R388), Forust images and their profiles (R395 to R398), and the checks
of a load (R400).
-/

namespace Sys2Proof.Machine

open Sys2Proof

/-! ### Microwords (R380) -/

def uwCommit (w : Nat) : Bool := tbit w 127
def uwYield (w : Nat) : Bool := tbit w 126
def uwRpt (w : Nat) : Nat := bits w 122 4
def uwNext (w : Nat) : Nat := bits w 119 3
def uwTarget (w : Nat) : Nat := bits w 106 13
def uwCond (w : Nat) : Nat := bits w 101 5
def uwCneg (w : Nat) : Bool := tbit w 100
def uwWait (w : Nat) : Nat := bits w 95 5
def uwBkind (w : Nat) : Nat := bits w 92 3
def uwBsrc (w : Nat) : Nat := bits w 89 3
def uwRsink (w : Nat) : Nat := bits w 87 2
def uwCeop (w : Nat) : Nat := bits w 85 2
def uwBcnt (w : Nat) : Nat := bits w 73 12
def uwAgop (w : Nat) : Nat := bits w 71 2
def uwAop (w : Nat) : Nat := bits w 67 4
def uwDst (w : Nat) : Nat := bits w 64 3
def uwSrca (w : Nat) : Nat := bits w 60 4
def uwEff (w : Nat) : Nat := bits w 56 4
def uwLcop (w : Nat) : Nat := bits w 54 2
def uwLsel (w : Nat) : Bool := tbit w 53
def uwImm (w : Nat) : Nat := bits w 16 32

/-- A reserved bit or code, or a field outside its range (R380 to R386). A CMD or ADDR word with BCNT 0 emits one byte, as the
worked program of the chapter has it (log 63). -/
def uwReserved (w : Nat) : Bool :=
  let b := uwBkind w
  bits w 48 5 != 0 || bits w 0 16 != 0 || uwNext w == 7 || 10 ≤ uwWait w || b == 7 || 6 ≤ uwBsrc w || 9 ≤ uwAop w || uwSrca w == 7
    || 12 ≤ uwEff w || uwLcop w == 3 || 15 ≤ uwCond w || (uwNext w == 6 && uwCond w != 0) || (uwWait w == 3 && 9 ≤ bits (uwImm w) 0 4)
    || ((b == 1 || b == 2) && (16 < uwBcnt w || uwBsrc w == 3)) || (b == 5 && uwBcnt w == 0)
    || (b == 6 && (uwBcnt w != 0 || bits (uwImm w) 0 3 == 0 || 6 ≤ bits (uwImm w) 0 3))

/-- IMM users of a word (R381). -/
def uwImmUsers (w : Nat) : Nat :=
  let b := uwBkind w
  (if 1 ≤ b ∧ b ≤ 3 ∧ uwBsrc w = 0 then 1 else 0) + (if b = 6 then 1 else 0) + (if 1 ≤ uwWait w ∧ uwWait w ≤ 3 then 1 else 0)
    + (if uwSrca w = 0 ∧ (uwAop w ≠ 0 ∨ uwLcop w = 1) then 1 else 0)

/-- A YIELD word has no beats and no operation but AGOP (R388). -/
def uwYieldBad (w : Nat) : Bool :=
  uwYield w && (uwBkind w != 0 || uwCeop w != 0 || uwAop w != 0 || uwLcop w != 0 || uwEff w != 0)

/-- Whether a NEXT form uses TARGET (R384). -/
def uwJumps (w : Nat) : Bool := uwNext w == 1 || uwNext w == 2 || uwNext w == 6

/-! ### Images (R397, R398) -/

def imgWords (img : List Byte) : Nat := leAt img 16 2
def imgProfiles (img : List Byte) : Nat := leAt img 18 2
def imgGeneric (img : List Byte) : Nat := leAt img 20 2

/-- Word `i` of an image. -/
def imgWord (img : List Byte) (i : Nat) : Nat := leAt img (imageCode img + 16 * i) 16

/-- The profile regions: the addresses of the directory, and the generic one; entries may share a region. -/
def imgRegions (img : List Byte) : List Nat :=
  distinct ((List.range (imgProfiles img)).map (fun i => leAt img (64 + 16 * i + 12) 2) ++ [imgGeneric img])

/-- Whether word `i` is a code word: a loaded word outside every profile region (R398). -/
def imgIsCode (img : List Byte) (i : Nat) : Bool :=
  i < imgWords img && !((imgRegions img).any fun r => r ≤ i && i < r + 64)

/-- Whether the regions lie inside the loaded words without overlap. -/
def imgRegionsOk (img : List Byte) : Bool :=
  let rs := imgRegions img
  rs.all fun r => r + 64 ≤ imgWords img && rs.all fun q => q == r || r + 64 ≤ q || q + 64 ≤ r

/-! ### Profiles (R395, R396) -/

/-- The dispatch address of a kind in a profile region; 0xFFFF means absent. -/
def profDispatch (img : List Byte) (r k : Nat) : Nat := profileField img r (136 + 2 * k) 2

def profHas (img : List Byte) (r k : Nat) : Bool := profDispatch img r k != 0xFFFF

/-- The RESUME address of (kind, RPT) in a profile region (R395, R401). -/
def profResume (img : List Byte) (r kind rpt : Nat) : Option Nat :=
  ((List.range 16).find? fun i => profileField img r (200 + 4 * i) 1 == kind && profileField img r (201 + 4 * i) 1 == rpt).map
    fun i => profileField img r (202 + 4 * i) 2

/-- A typical time and its maximum. -/
def timeOk (img : List Byte) (r typ max : Nat) : Bool :=
  profileField img r typ 4 != 0 && profileField img r typ 4 ≤ profileField img r max 4

def zerosAt (img : List Byte) (r off n : Nat) : Bool := (List.range n).all fun i => profileField img r (off + i) 1 == 0

/-- Every DISPATCH and RESUME address lies in the code. -/
def profAddrsOk (img : List Byte) (r : Nat) : Bool :=
  ((List.range 32).all fun k => !(profHas img r k) || imgIsCode img (profDispatch img r k))
    && (List.range 16).all fun i => profileField img r (200 + 4 * i) 1 == 0xFF || imgIsCode img (profileField img r (202 + 4 * i) 2)

/-- The checks of R396 on the fields of a profile, its addresses, and the kinds that its flags call for. -/
def profFields (img : List Byte) (r : Nat) : Bool :=
  let f (off n : Nat) : Nat := profileField img r off n
  let fl (i : Nat) : Bool := tbit (f 3 1) i
  let has (k : Nat) : Bool := profHas img r k
  let iface (i : Nat) : Bool := !(tbit (f 2 1) i)
    || (100 ≤ f (4 + 2 * i) 2 && f (4 + 2 * i) 2 ≤ 4800 && f (16 + 3 * i) 1 != 0 && f (16 + 3 * i) 1 % 8 == 0)
  bits (f 2 1) 0 5 != 0 && (List.range 5).all iface
    && timeOk img r 32 36 && ((List.range 5).all fun c => timeOk img r (40 + 4 * c) (60 + 4 * c)) && timeOk img r 80 84
    && (f 103 1 != 0 || f 105 1 != 0) && ((List.range 5).all fun c => f (102 + c) 1 ≤ 8)
    && signedOf 8 (f 110 1) ≤ 0 && 0 ≤ signedOf 8 (f 111 1)
    && 1 ≤ f 132 1 && f 132 1 ≤ 16 && 1 ≤ f 133 1 && f 133 1 ≤ 16 && 8 ≤ f 134 1 && f 134 1 ≤ 31
    && zerosAt img r 14 2 && zerosAt img r 31 1 && zerosAt img r 129 3 && zerosAt img r 472 40 && zerosAt img r 768 256
    && profAddrsOk img r
    && ([11, 12, 13].all fun k => has k == fl 1) && has 15 == fl 2 && ([17, 18].all fun k => has k == fl 3)
    && ([19, 20].all fun k => has k == fl 4) && has 25 == fl 5 && has 22 == decide (0 < f 128 1)

/-- The checks of R396 on a die's profile. -/
def profOk (img : List Byte) (r : Nat) : Bool :=
  profFields img r && [0, 2, 3, 5, 6, 7, 8, 9, 10, 14, 16, 21, 23, 24, 26, 27].all fun k => profHas img r k

/-- What R396 asks of the generic profile: the kinds that it serves, in place of a die's, and SDR (DEDUCED, log 103). -/
def genericOk (img : List Byte) : Bool :=
  let r := imgGeneric img
  profFields img r && ([0, 1, 3, 4].all fun k => profHas img r k) && tbit (profileField img r 2 1) 0

/-! ### The checks of a load (R400) -/

/-- A code word's own check. -/
def codeWordOk (img : List Byte) (i : Nat) : Bool :=
  let w := imgWord img i
  !(uwReserved w) && uwImmUsers w ≤ 1 && !(uwYieldBad w) && (!(uwJumps w) || imgIsCode img (uwTarget w))

/-- The first failing check with its detail; 1 where the image passes. -/
def imageCheck (version : Nat) (img : List Byte) : Nat × Nat :=
  let len := leAt img 12 4
  let min := leAt img 24 4
  let badWord := (List.range (imgWords img)).find? fun i => imgIsCode img i && !(codeWordOk img i)
  let badProf := (List.range (imgProfiles img)).find? fun i => !(profOk img (leAt img (64 + 16 * i + 12) 2))
  if leAt img 0 4 != 0x54535246 || leAt img 4 2 != 1 then (2, 0)
  else if img.length != len || len != 64 + 16 * imgProfiles img + 16 * imgWords img then (3, 0)
  else if leAt img 60 4 != crc32c (img.take 60 ++ img.drop 64) then (4, 0)
  else if bits min 16 16 != bits version 16 16 || version < min then (5, 0)
  else if imgWords img = 0 || 8192 < imgWords img || imgProfiles img = 0 || 64 < imgProfiles img || imageVer img = 0
      || !(imgRegionsOk img) then (6, 0)
  else match badWord with
    | some i => (7, i)
    | none => match badProf with
      | some i => (8, i)
      | none => if genericOk img then (1, 0) else (9, imgGeneric img)

end Sys2Proof.Machine
end

