-- ==== Sys2Proof/Machine/Microcode.lean ====
section
/-!
DEFINITION. Machine/Microcode.lean: the meanings of the microcode commands: image loads (R399), dispatch (R376, R377, R393), one
microword (R380 to R391), faults (R392) and the swap of an activation (R401, R402).
-/

namespace Sys2Proof.Machine

open Sys2Proof

/-! ### Loads (R399) -/

/-- The clusters a load writes. -/
def State.loadMask (s : State) : List Nat := (List.range s.build.clusters).filter fun k => tbit s.loadMaskValue k

/-- The result of a load recorded. -/
def State.loadStatus (s : State) (result detail : Nat) : State := s.setObjN Obj.UCODE_LOAD_STATUS (detail * 2 ^ 16 + result)

/-- The first segment of a load: refused while a named cluster quiesces or after a power failure; else the standby banks are
EMPTY. -/
def State.beginLoad (s : State) : State × Nat :=
  if s.prot.pfail || s.loadMask.any fun k => (mapGetD s.clusters k {}).quiescing then (s.loadStatus 10 0, rcRefused)
  else
    let drop (a : State) (k : Nat) : State := { a with clusters := mapUpd a.clusters k {} fun c => { c with standby := none } }
    (s.loadMask.foldl drop s, rcOk)

/-- The end of a load: the image is checked, and one that passes fills the standby banks (R400). -/
def State.endLoad (s : State) (img : List Byte) : State × Nat :=
  let r := imageCheck 0x10300 img
  let s1 := s.loadStatus r.1 r.2
  if r.1 != 1 then (s1, rcRefused)
  else
    let fill (a : State) (k : Nat) : State := { a with clusters := mapUpd a.clusters k {} fun c => { c with standby := some img } }
    (s1.loadMask.foldl fill s1, rcOk)

/-- A whole load. -/
def loadImage (img : List Byte) (s : State) : State × Nat :=
  let b := s.beginLoad
  if b.2 != rcOk then b else b.1.endLoad img

/-- UCODE_IMAGE read: the image in the standby bank of the lowest cluster of the mask. -/
def readImage (s : State) : State × Sum Nat (List Byte) :=
  match (s.loadMask.head?).bind fun k => (mapGetD s.clusters k {}).standby with
  | some img => (s, .inr img)
  | none => (s, .inl rcNoData)

/-- UCODE_LOAD. -/
def execUcodeLoad (dt : Nat) (path : DictPath) (image : List Byte) (s : State) : Host.Outcome State Fault Refusal :=
  s.functional dt fun s => s.downloadCmd path Obj.UCODE_IMAGE image (loadImage image)

/-! ### Contexts (R375) -/

def State.ctxAt (s : State) (seq ctx : Nat) : Option Ctx := s.ctxs.find? fun c => c.seq == seq && c.ctx == ctx

def State.setCtx (s : State) (c : Ctx) : State :=
  { s with ctxs := s.ctxs.filter (fun x => !(x.seq == c.seq && x.ctx == c.ctx)) ++ [c] }

def State.dropCtx (s : State) (c : Ctx) : State := { s with ctxs := s.ctxs.filter fun x => !(x.seq == c.seq && x.ctx == c.ctx) }

/-- Housekeeping sequencer h is number 64 + h; its context k serves channel 4 k + h (R375). -/
def Ctx.housekeeping (c : Ctx) : Bool := 64 ≤ c.seq
def Ctx.channel (c : Ctx) : Nat := if c.housekeeping then 4 * c.ctx + (c.seq - 64) else c.seq
def Ctx.die (c : Ctx) : Nat := 16 * c.seq + c.ctx
def Ctx.cluster (c : Ctx) : Nat := c.channel / 8

/-- The profile region a context works from: its die's; the generic one for kind 1 or a die without one; the lowest PRESENT
die's for deep power-down (R393, R394). -/
def State.ctxRegion (s : State) (c : Ctx) (img : List Byte) : Nat :=
  let g := imgGeneric img
  if c.housekeeping then
    if c.kind = 1 then g
    else ((s.channelDies c.channel).head?.bind fun d => (s.die d).profile).getD g
  else ((s.die c.die).profile).getD g

/-- The operation a context works for. -/
def State.ctxOp (s : State) (c : Ctx) : Option DieOp := c.op.bind s.op?

/-! ### The address generator (R385) -/

/-- The planes of an operation, in order. -/
def State.opPlanes (s : State) (o : DieOp) : List Nat :=
  match o.kind with
  | .read js => distinct ((js.filterMap s.job?).map fun j => ppaPlane j.ppa)
  | .program _ _ _ | .parity _ _ _ _ => List.range (s.die o.die).planes
  | .erase bs _ => bs.map fun b => b.plane
  | .rescue row m _ _ => match s.prot.rescueDir.find? fun r => r.row == row && r.member == m with
    | some r => r.blocks.map fun b => b.plane
    | none => [0]
  | _ => [(s.opPlace o).1]

/-- The block of an operation on a plane. -/
def State.opBlock (s : State) (o : DieOp) (plane : Nat) : Nat :=
  match o.kind with
  | .read js => (((js.filterMap s.job?).find? fun j => ppaPlane j.ppa == plane).map fun j => ppaBlock j.ppa).getD (s.opPlace o).2.1
  | .program sb _ m | .parity sb _ m _ => s.sbBlock sb m plane
  | .erase bs _ => ((bs.find? fun b => b.plane == plane).map fun b => b.block).getD 0
  | _ => (s.opPlace o).2.1

/-- The row address a context emits. -/
def State.ctxRow (s : State) (c : Ctx) : Nat :=
  match s.ctxOp c with
  | some o => s.rowAddr o.die c.plane (s.opBlock o c.plane) c.page
  | none => if c.housekeeping then 0 else s.rowAddr c.die 0 0 0

/-- L of a context's operation. -/
def State.ctxStored (s : State) (c : Ctx) : Nat := ((s.ctxOp c).map s.opStored).getD (s.codeStored 0)

/-- AGOP applied (R385). -/
def State.agop (s : State) (c : Ctx) (op : Nat) : Ctx :=
  let first := match s.ctxOp c with
    | some o => s.opPlace o
    | none => (0, 0, 0)
  let col0 := if c.kind = 10 then c.args.getD 1 0 * s.ctxStored c else 0
  if op = 1 then { c with plane := if c.kind = 10 then c.args.getD 2 0 else first.1, page := first.2.2, col := col0 }
  else if op = 2 then
    let ps := ((s.ctxOp c).map s.opPlanes).getD []
    { c with plane := (ps.filter fun p => c.plane < p).headD c.plane, col := col0 }
  else if op = 3 then { c with col := c.col + s.ctxStored c }
  else c

/-! ### Data of a word (R381) -/

/-- The levels a read applies: for each threshold 1 to 15, the live entry of its bucket plus its retry entry, clamped (R288, R314). -/
def State.applySet (s : State) (o : DieOp) : List Byte :=
  match o.kind with
  | .read _ => match s.focusJob o with
    | some j =>
      let d := o.die
      let level := s.liveLevel d (s.bucketKey j.ppa)
      let retry := if j.step = 0 then none else if j.step ≤ j.h then j.hardLeft.head? else j.bestSw.map (·.2)
      (List.range 15).map fun i =>
        let extra : Int := match retry with
          | some e => signedOf 8 (s.profile d (264 + 16 * e + i) 1)
          | none => 0
        BitVec.ofInt 8 (clampInt (s.profileI8 d 110) (s.profileI8 d 111) (level + extra))
    | none => []
  | _ => []

/-- Payload and place of codeword `k` that an operation programs (R180, R183, R365), with the code it is encoded with; a raw page
has none. -/
def State.opPayload (s : State) (o : DieOp) (k : Nat) : Option (Nat × List Byte) :=
  match o.kind with
  | .program sb wl m => ((s.openSb? sb).bind fun b => (s.unitPlaces b m wl)[k]?).map fun x => (x.2.1, s.cwPayload x.2.2)
  | .parity sb wl m q => (s.openSb? sb).bind fun b => b.row.map fun r =>
      let per := s.perRow b
      let acc := if q then r.accQ else r.accP
      (s.placePpa sb m (k / per) (wl * per + k % per), padTo 4112 (((acc.find? fun a => a.1 == k).map fun a => a.2).getD []))
  | .interim sb wl m => (s.openSb? sb).bind fun b => b.row.map fun r =>
      let acc := if (b.rowParity r).head? != some m then r.intQ else r.intP
      let head := leBytes 4 sb ++ leBytes 2 wl ++ leBytes 4 (sumOf (r.interim.map fun x => 2 ^ x)) ++ leBytes 8 r.intSeq
      let first := match s.opPlace o with
        | (p, b, g) => ppaOf o.die p b g 0 0 (s.classCode 0)
      (interimPpa first k, padTo 4112 (if k = 0 then head ++ leBytes 4 (crc32c head)
        else ((acc.find? fun a => a.1 == k - 1).map fun a => a.2).getD []))
  | .rescue row m page cws =>
    let at_ (key : Nat) : Nat := ppaOf o.die (key / 4) (s.opBlock o (key / 4)) page (key % 4) 0 (s.classCode 0)
    if m = 15 then some (at_ k, padTo 4112 (((s.prot.rescueAcc.find? fun a => a.1 == rescueKey row page k).map fun a => a.2).getD []))
    else (cws[k]?).map fun c => (at_ c.1, s.cwPayload (.ver c.2.1 c.2.2))
  | _ => none

/-- The next codeword of an operation from the encoder: randomized and encoded (R276, R283), a raw page's bytes as they are (R356), all
zero bits for a purge's block (R209). What lies behind the codewords of a page is 0xFF (R272). -/
def State.streamBytes (s : State) (o : DieOp) (k n : Nat) : List Byte :=
  match o.kind with
  | .rawProgram st => match s.cmd? st with
    | some c => padTo n (c.rawData.drop ((s.die o.die).pageBytes * c.sent + n * k))
    | none => padTo n []
  | .zeroFill _ _ _ => padTo n []
  | _ =>
    let cw := match s.opPayload o k with
      | some (ppa, p) => encodeCodeword (s.codeDesc (s.opCode o)) (randomize ppa p)
      | none => []
    cw.take n ++ List.replicate (n - cw.length) 0xFF

/-- The bytes a word sends (R381). -/
def State.wordBytesOut (s : State) (c : Ctx) (w : Nat) (img : List Byte) : List Byte :=
  let r := s.ctxRegion c img
  let n := uwBcnt w
  let cnt := if uwBkind w = 3 then (if n = 0 then s.ctxStored c else n) else max 1 n
  let row := leBytes (profileField img r 109 1) (s.ctxRow c)
  let src := match uwBsrc w with
    | 0 => List.replicate cnt (BitVec.ofNat 8 (uwImm w))
    | 1 => leBytes (profileField img r 108 1) c.col ++ row
    | 2 => row
    | 3 => match s.ctxOp c with
      | some o => s.streamBytes o c.cws cnt
      | none => []
    | 4 => leBytes 4 (c.gp.getD (uwDst w) 0).toNat
    | _ => ((s.ctxOp c).map s.applySet).getD []
  padTo cnt src

/-- The beats of a word: (kind, byte), kinds 0 IDLE, 1 CMD, 2 ADDR, 3 DOUT, 4 a read beat, with the padding of its interface (R224,
R381). -/
def State.wordBeats (s : State) (c : Ctx) (w : Nat) (img : List Byte) : List (Nat × Byte) :=
  let r := s.ctxRegion c img
  let i := (s.chan c.channel).iface
  let pad (k : Nat) : List (Nat × Byte) := List.replicate (profileField img r (16 + 3 * i + k) 1) (0, 0)
  let b := uwBkind w
  if b = 1 ∨ b = 2 then ((s.wordBytesOut c w img).map fun x => (b, x) :: (pad 0).drop 1).flatten
  else if b = 3 then pad 1 ++ (s.wordBytesOut c w img).map (fun x => (3, x)) ++ pad 2
  else if b = 4 then pad 1 ++ List.replicate (if uwBcnt w = 0 then s.ctxStored c else uwBcnt w) (4, 0) ++ pad 2
  else if b = 5 then List.replicate (uwBcnt w) (0, 0)
  else []

/-! ### Registers (R385) -/

/-- Operand A. -/
def Ctx.operand (c : Ctx) (w : Nat) : W32 :=
  let a := uwSrca w
  if a = 0 then BitVec.ofNat 32 (uwImm w)
  else if a = 1 then c.sts.zeroExtend 32
  else if a = 2 then BitVec.ofNat 32 c.lc0
  else if a = 3 then BitVec.ofNat 32 c.lc1
  else if a < 7 then BitVec.ofNat 32 (c.args.getD (a - 4) 0)
  else c.gp.getD (a - 8) 0

/-- AOP on GP[DST]. -/
def aluOp (op : Nat) (g a : W32) : W32 :=
  match op with
  | 1 => a
  | 2 => g + a
  | 3 => g - a
  | 4 => g &&& a
  | 5 => g ||| a
  | 6 => g ^^^ a
  | 7 => g <<< (a.toNat % 32)
  | 8 => g >>> (a.toNat % 32)
  | _ => g

/-- AOP and LCOP applied. -/
def Ctx.compute (c : Ctx) (w : Nat) : Ctx :=
  let a := c.operand w
  let d := uwDst w
  let lc := if uwLsel w then c.lc1 else c.lc0
  let n := match uwLcop w with
    | 1 => a.toNat % 65536
    | 2 => lc - 1
    | _ => lc
  { c with gp := if uwAop w = 0 then c.gp else c.gp.set d (aluOp (uwAop w) (c.gp.getD d 0) a)
           lc0 := if uwLsel w then c.lc0 else n, lc1 := if uwLsel w then n else c.lc1 }

/-- The bytes of a READ run taken into its sink (R381). -/
def Ctx.takeRead (c : Ctx) (w : Nat) (bs : List Byte) : Ctx :=
  if uwBkind w != 4 then c
  else match uwRsink w with
    | 1 => { c with sts := bs.getLastD c.sts }
    | 2 => { c with gp := c.gp.set (uwDst w) (BitVec.ofNat 32 (leAt bs 0 4)) }
    | 3 => { c with capture := c.capture ++ bs }
    | _ => c

/-! ### Readiness and rank (R239, R376) -/

/-- Whether a routine's ARRAY_START starts clocks of its own: those of an operation stand while it is suspended or resumed (DEDUCED, log 253). -/
def State.ownClock (s : State) (c : Ctx) : Bool := (s.ctxOp c).isNone || (17 ≤ c.kind && c.kind ≤ 20)

/-- The profile time of WAIT 3 (R382), from the confirm, suspended and parked time not counted. -/
def State.ptimeMet (s : State) (c : Ctx) (img : List Byte) (sel : Nat) : Bool :=
  let r := s.ctxRegion c img
  let cls := match (s.ctxOp c).map fun o => o.kind with
    | some (.program sb _ _) => s.sbClass sb
    | some (.parity sb _ _ _) => s.sbClass sb
    | _ => 0
  let off := [32, 36, 40 + 4 * cls, 60 + 4 * cls, 80, 84, 88, 92, 96].getD sel 32
  if s.ownClock c then c.arrayAt.any fun t => t + profileField img r off 4 ≤ s.now
  else match s.ctxOp c with
    | some o => o.startedAt + profileField img r off 4 + o.suspendedNs ≤ s.now
    | none => true

/-- The suspend that an engine presents at a yield point (R389): its die's operation, where R242 and R243 allow it. -/
def State.suspendAt (s : State) (c : Ctx) (w : Nat) : Option DieOp :=
  if c.token.isSome || !([14, 15, 16].contains c.kind) || !(3 ≤ uwWait w && uwWait w ≤ 5) then none
  else (s.ctxOp c).filter fun o => o.confirmed && s.suspendWanted o

/-- The rank of the transaction that a routine of an operation starts with (R239): 0 to 2 a suspend, a due poll, a resume; 6 ranks as rank 3,
8 to 11 as rank 4, 14 to 20 as ranks 5 to 9. The drain's transactions rank above all but the first two (R365). -/
def State.kindRank (s : State) (o : DieOp) (kind : Nat) : Nat :=
  let aged := s.opAged o
  if kind = 17 ∨ kind = 19 then 0
  else if s.prot.pfail then 5
  else if kind = 18 ∨ kind = 20 then 2
  else if kind = 10 then (if o.cls = 0 || aged then 6 else if o.cls = 1 then 15 else 16 + readTier o.cls)
  else if kind = 14 ∨ kind = 15 then (if o.due then 14 else if aged then 6 else 16)
  else if kind = 16 then (if aged then 6 else 20)
  else if kind = 2 then 1
  else 8 + readTier o.cls

/-- The rank of a context's next transaction, with the arrival stamp (R239). -/
def State.ctxRank (s : State) (c : Ctx) : Nat :=
  let w := imgWord (s.activeImage c.cluster) c.pc
  match s.ctxOp c with
  | some o =>
    let r := if (s.suspendAt c w).isSome then 0 else if uwWait w = 4 then 1 else s.kindRank o c.kind
    r * 2 ^ 80 + s.opStamp o
  | none => 2 ^ 80

/-- Whether a context that does not run is ready: preempted, or its wait has ended, as far as the block's own state tells (R376). -/
def State.ctxReady (s : State) (c : Ctx) : Bool :=
  let img := s.activeImage c.cluster
  let w := imgWord img c.pc
  c.run == 2 || (c.run == 3 && ((s.suspendAt c w).isSome || (uwWait w = 3 && s.ptimeMet c img (bits (uwImm w) 0 4))
    || (uwWait w = 4 && (s.ctxOp c).any s.pollIsDue)))

/-- What a free channel sequencer can start (R376): the next routine of an operation in progress, the resume of a suspended one that no
read waits for (R244), a new operation, or a context that is ready to go on. -/
inductive Start where
  | routine (o : DieOp)
  | resume (o : DieOp)
  | fresh (o : DieOp)
  | ready (c : Ctx)
  deriving DecidableEq, Repr

/-- Whether a suspended operation is to be resumed: its budget is spent, no read or boot-window fetch that may use the suspend is left
(R244), or its channel is to be enumerated (R230). -/
def State.resumeDue (s : State) (o : DieOp) : Bool :=
  o.suspended && !s.prot.pfail && !o.resetting && (s.busyOp o.die).isNone && ((s.ctxOf o.die).any fun c => c.run == 4)
    && (s.suspOver o || (s.chan (dieChannel o.die)).st != 3
      || (!(s.bootWaits o.die) && !(s.ops.any fun r => r.die == o.die && r.queued && !r.started && s.readJoins r o)))

/-- The candidates of a channel's sequencer, with their ranks. -/
def State.starts (s : State) (ch : Nat) : List (Nat × Start) :=
  let mine := s.ops.filter fun o => dieChannel o.die == ch && !o.resetting
  let next := (mine.filter fun o => o.started && s.mayGo o).map fun o =>
    (((s.routineOf o).map fun r => s.kindRank o r.kind * 2 ^ 80 + s.opStamp o).getD 0, Start.routine o)
  let back := (mine.filter s.resumeDue).map fun o => (2 * 2 ^ 80 + s.opStamp o, Start.resume o)
  let new := ((s.bestOp ch).toList.filter s.mayGo).map fun o => (s.opRank o, Start.fresh o)
  let on := (s.ctxs.filter fun c => c.seq == ch && s.ctxReady c).map fun c => (s.ctxRank c, Start.ready c)
  next ++ back ++ new ++ on

/-- Whether a preemption waits for a context of a channel: something else that is ready ranks higher (R383, R389). -/
def State.outranked (s : State) (c : Ctx) : Bool :=
  !c.housekeeping && (s.starts c.channel).any fun x => x.1 < s.ctxRank c && (match x.2 with
    | .ready y => y.ctx != c.ctx
    | _ => true)

/-- Whether an operation has been cancelled: no codeword that it reads is wanted any more (R151, R295). -/
def State.cancelled (s : State) (o : DieOp) : Bool := o.kind.reads && (s.readJobs o).all s.givenUp

/-! ### Waits and conditions (R382, R383) -/

/-- Whether a WAIT holds (R382). The times of one word run from its start; a PCLK cycle is eight beats, and in SDR, whose rate the spec gives
no number, its length is the environment's, as are the PHY's lines, its lock and its training, and the stream or sink. The bus is granted
while no other context holds it. -/
def State.waitHolds (s : State) (c : Ctx) (img : List Byte) (w : Nat) (env : UcodeEnv) : Bool :=
  match uwWait w with
  | 0 => true
  | 1 => c.wordAt.any fun t => t + uwImm w ≤ s.now
  | 2 =>
    let rate := (s.chan c.channel).rate
    if rate = 0 then env.waitMet else c.wordAt.any fun t => t + ceilDiv (uwImm w * 8 * 1000) rate ≤ s.now
  | 3 => s.ptimeMet c img (bits (uwImm w) 0 4)
  | 4 => match s.ctxOp c with
    | some o => s.pollIsDue o
    | none => env.pollDue
  | 5 => env.rbHigh
  | 6 => (s.chan c.channel).busOwner.all fun x => x == (if c.housekeeping then 16 else c.ctx)
  | 7 => env.dataReady
  | 8 => env.locked
  | _ => env.trainDone

/-- COND before CNEG (R383). -/
def State.condTrue (s : State) (c : Ctx) (img : List Byte) (w : Nat) : Bool :=
  let st := c.sts.toNat
  match uwCond w with
  | 0 => true
  | 1 => tbit st 6
  | 2 => tbit st 5
  | 3 => tbit st 0
  | 4 => st.land (profileField img (s.ctxRegion c img) 135 1) != 0
  | 5 => c.lc0 == 0
  | 6 => c.lc1 == 0
  | 7 => c.gp.getD (uwDst w) 0 == 0
  | 8 => ((s.ctxOp c).map fun o => (s.opPlanes o).all fun p => p ≤ c.plane).getD true
  | 9 => match s.ctxOp c with
    | some o => (s.codePerPage (s.opCode o) - 1) * s.opStored o ≤ c.col
    | none => true
  | 10 => (s.ctxOp c).any s.cancelled
  | 11 => match s.ctxOp c with
    | some o => (s.die o.die).shadow == s.applySet o
    | none => false
  | 12 => s.outranked c || (s.ctxOp c).any s.suspendWanted || (mapGetD s.clusters c.cluster {}).quiescing
  | 13 => !c.housekeeping && s.diePresent (16 * c.seq + c.ctx / 2 * 2) && s.diePresent (16 * c.seq + c.ctx / 2 * 2 + 1)
  | _ => match s.ctxOp c with
    | some o => o.startedAt + s.opLimit o ≤ s.now
    | none => false

/-! ### Faults (R392) -/

/-- UCODE_LAST_FAULT (R405). -/
def Ctx.faultWord (c : Ctx) (code : Nat) : Nat :=
  code * 2 ^ 56 + c.seq * 2 ^ 48 + c.ctx * 2 ^ 44 + c.kind * 2 ^ 39 + c.pc * 2 ^ 26

/-- A fault counted, recorded and reported. -/
def State.noteFault (s : State) (c : Ctx) (code : Nat) : State :=
  let v := c.faultWord code
  let s1 := (s.bump Obj.UCODE_FAULTS).setObjN Obj.UCODE_LAST_FAULT v
  (s1.event 0x28 c.seq v).classNotice 0x43 1 c.seq [(8, v)]

/-- The CEs that a context asserted released, its transaction over. -/
def State.releaseBus (s : State) (c : Ctx) : State :=
  if c.txOpen || c.housekeeping then s.updChan c.channel fun x => { x with ce := [], busOwner := none } else s

/-- Each PRESENT die of a channel reset under R259. -/
def State.resetDies (s : State) (ch : Nat) : State :=
  (s.channelDies ch).foldl (fun a d => (a.updDie d fun i => { i with powered := true }).lunReset d) s

/-- A fault: the routine is over, and its operation goes on as the table of R392 states. -/
def State.ucodeFault (s : State) (c : Ctx) (code : Nat) : State :=
  let s1 := ((s.noteFault c code).releaseBus c).dropCtx c
  let ch := c.channel
  if c.housekeeping then
    if c.kind = 1 then s1.enumEnd ch []
    else if c.kind = 26 then
      { s1.setCtx { seq := c.seq, ctx := c.ctx, kind := 26, parkedAt := s.modes.changeCount + 1 } with dies := s1.dies.map fun (d : Nat × DieInfo) => if dieChannel d.1 == ch then (d.1, { d.2 with powered := true }) else d }
    else s1.resetDies ch
  else if c.kind = 2 then (s1.declareFailed c.die 16 0).progress
  else match s1.ops.find? fun o => o.die == c.die && (some o.id == c.op || o.suspended) with
    | some o => (s1.timeOut o).progress
    | none => s1

/-! ### Effects (R386) -/

/-- The array command of a read is issued: its page is read under the die's generation in force (R256). -/
def State.senseGen (s : State) (o : DieOp) : State :=
  let mine := if o.spec then [] else (s.readJobs o).filter fun j => o.sensing == some (ppaPage j.ppa)
  { s with jobs := s.jobs.map fun (j : Job) => if mine.any (fun x => x.id == j.id) then { j with gen := (s.calDie o.die).gen } else j }

/-- One staged effect takes place. -/
def State.effect (s : State) (c : Ctx) (eff : Nat) : State × Ctx :=
  let op := s.ctxOp c
  let power (on : Bool) : State :=
    { s with dies := s.dies.map fun (d : Nat × DieInfo) =>
        if d.1 == c.die && !c.housekeeping || c.housekeeping && dieChannel d.1 == c.channel then (d.1, { d.2 with powered := on }) else d }
  match eff with
  | 1 => (match op with
    | some o => if o.kind.reads || o.resetting then s else s.opDone o true
    | none => s, c)
  | 2 => (match op with
    | some o => if o.resetting then s else if o.kind.reads then s.timeOut o else s.opDone o false
    | none => s, c)
  | 3 => if s.ownClock c then (s, { c with arrayAt := some s.now }) else (match op with
    | some o => (s.updOp o.id fun x =>
        { x with startedAt := s.now, confirmed := true, suspendedNs := 0, polledAt := none, shownReady := false, badReads := 0 }).senseGen o
    | none => s, c)
  | 4 => (s, { c with cws := c.cws + 1 })
  | 5 => (match op with
    | some o => s.updOp o.id fun x => { x with cached := x.loading.or x.cached, loading := none }
    | none => s, c)
  | 6 => (match op with
    | some o => s.updDie o.die fun i => { i with shadow := s.applySet o }
    | none => s, c)
  | 7 => (match op with
    | some o => s.suspendOp o
    | none => s, c)
  | 8 => (match op with
    | some o => s.resumeOp o
    | none => s, c)
  | 9 => (power false, c)
  | 10 => (power true, c)
  | 11 => (s, { c with capture := [] })
  | _ => (s, c)

/-- COMMIT: every staged effect takes place, in order (R388). -/
def State.commit (s : State) (c : Ctx) : State × Ctx :=
  let r := c.stage.foldl (fun (acc : State × Ctx) e => acc.1.effect acc.2 e) (s, c)
  (r.1, { r.2 with stage := [] })

/-! ### Routine ends and tokens (R390) -/

/-- The token a context saves at a yield word. -/
def Ctx.save (c : Ctx) (rpt : Nat) : Token :=
  { pc := c.pc, stack := c.stack, gp := c.gp, lc0 := c.lc0, lc1 := c.lc1, sts := c.sts, plane := c.plane, page := c.page, col := c.col
    kind := c.kind, rpt }

/-- A token restored: the context continues at the yield word. -/
def Ctx.restore (c : Ctx) (t : Token) : Ctx :=
  { c with pc := t.pc, stack := t.stack, gp := t.gp, lc0 := t.lc0, lc1 := t.lc1, sts := t.sts, plane := t.plane, page := t.page
           col := t.col, kind := t.kind, token := none, stage := [], run := 2, wordAt := none }

/-- END: suspend and resume routines give the token back when the operation is not, or no longer, suspended; any other routine
leaves its context idle or holding the token (R390). -/
def State.routineEnds (s : State) (c : Ctx) : State :=
  if c.housekeeping then (s.releaseBus c).setCtx { c with run := 0, stack := [], op := none }
  else if 17 ≤ c.kind ∧ c.kind ≤ 20 then
    match c.token, s.ctxOp c with
    | some t, some o => if o.suspended then s.setCtx { c with run := 4 } else s.setCtx (c.restore t)
    | some t, none => s.setCtx (c.restore t)
    | none, _ => s.dropCtx c
  else match c.op with
    | some i => (s.setCtx c).leaveCtx c.die i
    | none => s.dropCtx c

/-! ### Yield points (R388, R389, R401) -/

/-- The RESUME address a context would park for: its word has an RPT, its stack is empty, it holds no token, the standby
profile of its die has the entry, and no channel of its cluster is being enumerated (R401). -/
def State.parkAddr (s : State) (c : Ctx) (rpt : Nat) : Option Nat :=
  let k := mapGetD s.clusters c.cluster {}
  let enumerating := (List.range 8).any fun i => [1, 2].contains (s.chan (8 * c.cluster + i)).st
  if !k.quiescing || rpt = 0 || !c.stack.isEmpty || c.token.isSome || enumerating then none
  else match k.standby with
    | none => none
    | some img =>
      let d := if c.housekeeping then (s.channelDies c.channel).head? else some c.die
      let region := match d.bind fun x => imageProfile img (s.objN Obj.DIE_ID (dieSlot x) (dieChannel x)) with
        | some p => some p.2
        | none => if c.housekeeping then some (imgGeneric img) else none
      region.bind fun r => profResume img r c.kind rpt

/-! ### One word (R387) -/

/-- NEXT (R384): the next state, or the fault it meets. -/
def State.nextWord (s : State) (c0 : Ctx) (img : List Byte) (w : Nat) : State :=
  let c := { c0 with wordAt := none }
  let go (pc : Nat) : State := s.setCtx { c with pc, run := 1 }
  let t := xor (s.condTrue c img w) (uwCneg w)
  let lc := if uwLsel w then c.lc1 else c.lc0
  match uwNext w with
  | 1 => go (if t then uwTarget w else c.pc + 1)
  | 2 =>
    if !t then go (c.pc + 1)
    else if 4 ≤ c.stack.length then s.ucodeFault c 2
    else s.setCtx { c with pc := uwTarget w, stack := c.stack ++ [c.pc + 1], run := 1 }
  | 3 =>
    if !t then go (c.pc + 1)
    else match c.stack.getLast? with
      | some a => s.setCtx { c with pc := a, stack := c.stack.dropLast, run := 1 }
      | none => s.ucodeFault c 3
  | 4 =>
    let a := profDispatch img (s.ctxRegion c img) (bits (uwImm w) 0 5)
    if !t then go (c.pc + 1) else if a = 0xFFFF then s.ucodeFault c 1 else go a
  | 5 =>
    if !t then go (c.pc + 1)
    else if !c.stage.isEmpty || c.txOpen then s.ucodeFault c 6
    else s.routineEnds c
  | 6 => go (if lc = 0 then c.pc + 1 else uwTarget w)
  | _ => go (c.pc + 1)

/-- Whether a word asserts a CE, which opens a transaction (R381). -/
def uwOpens (w : Nat) : Bool := uwCeop w == 1 || uwCeop w == 3

/-- Whether a word must not send its beats yet: the data of a DOUT run or the sink of a READ run is not ready (R378), a change of IFACE_SEL waits for LOCKED (R227), a training step has not ended (R229), and a
transaction does not open while another context holds the bus, while a moon bank is PENDING (R256), or, if it transfers data, while
another program's data-in holds the CE (R238). -/
def State.beatsHeld (s : State) (c : Ctx) (w : Nat) (env : UcodeEnv) : Bool :=
  let ch := s.chan c.channel
  let other := ch.busOwner.any fun x => x != (if c.housekeeping then 16 else c.ctx)
  let pending := tbit (s.objN Obj.MB_CTRL 0 c.channel) 0 && !ch.shadowLate
  let data := [10, 14, 15].contains c.kind && (s.ctxOp c).any s.ceTaken
  let run := uwBkind w == 3 || uwBkind w == 4
  (uwBkind w != 0 || uwOpens w) && ((run && !env.dataReady) || (ch.lockWait && !env.locked) || (ch.training && !env.trainDone)
    || (uwOpens w && (other || pending || data)))

/-- What the PHY shows in the cycle of a word (R222, R227, R229): RB_N of the context's CE; LOCKED, where a change of IFACE_SEL waits for it;
eye-result words and the end of a training step in progress. -/
def State.phyIn (s : State) (c : Ctx) (env : UcodeEnv) : State :=
  s.updChan c.channel fun x =>
    let ce := c.ctx / 2
    let others := x.rbN.filter fun k => k != ce
    let rb := if c.housekeeping then x.rbN else if env.rbHigh then ce :: others else others
    let x1 : Chan := { x with rbN := rb, trainReq := false, trainAck := x.training && (env.trainDone || !env.eyes.isEmpty) }
    let x2 : Chan := if x1.lockWait && env.locked then { x1 with lockWait := false, phy := x1.phy / 2 * 2 + 1 } else x1
    let x3 : Chan := if x2.training && 3 ≤ x2.trainMode then { x2 with eyes := x2.eyes ++ env.eyes } else x2
    if x3.training && env.trainDone then
      { x3 with training := false, dqInValid := false, phy := if x3.trainMode = 1 then x3.phy ||| 4 else x3.phy }
    else x3

/-- What a word's beats mean for its operation (R54, R239, R241, R243, R381): the codeword of a data-out has been transferred; a program's
data-in has begun, late when its slot's tick is over; the first transaction of a suspend or resume routine fixes the time of its
confirm; a status read of an array operation is judged. -/
def State.opBeats (s : State) (c : Ctx) (w : Nat) (bs : List Byte) : State :=
  match s.ctxOp c with
  | none => s
  | some o =>
    let b := uwBkind w
    if b = 4 && uwRsink w = 0 then match o.focus.bind s.job? with
      | some j => s.dataCame o j bs
      | none => s
    else if b = 3 && uwBsrc w = 3 && !o.dataIn then
      let s1 := s.updOp o.id fun x => { x with dataIn := true }
      if o.cls == 0 && o.kind.unit then s1.updDie o.die fun i => { i with slotLate := !(s.inOwnTick o) } else s1
    else if (c.kind = 17 || c.kind = 19) && !o.sent then
      s.updOp o.id fun x => { x with suspendedAt := if b = 1 || b = 2 then s.now else x.suspendedAt, sent := uwCeop w == 2 }
    else if (c.kind = 18 || c.kind = 20) && !o.sent then
      s.updOp o.id fun x => { x with resumedAt := if b = 1 || b = 2 then s.now else x.resumedAt, sent := uwCeop w == 2 }
    else if b = 4 && uwRsink w = 1 && [9, 11, 12, 14, 15, 16].contains c.kind && o.confirmed then
      s.statusRead o ((bs.getLast?.map fun x => x.toNat).getD 0)
    else s

/-- Steps 2 to 5 of R387 for a word whose WAIT holds. -/
def State.runWord (s : State) (c : Ctx) (img : List Byte) (w : Nat) (env : UcodeEnv) : State :=
  let ch := c.channel
  let opens := uwOpens w
  let train := uwBkind w == 6
  let ces := if uwCeop w = 3 then List.range 8 else [c.ctx / 2]
  let beats := s.wordBeats c w img
  let s1 := s.updChan ch fun x =>
    { x with ce := if opens then ces else x.ce
             busOwner := if opens then some (if c.housekeeping then 16 else c.ctx) else x.busOwner
             beats := if beats.isEmpty then x.beats else beats
             trimLoad := x.trimLoad && beats.isEmpty
             trainReq := train, training := train || x.training
             trainMode := if train then bits (uwImm w) 0 3 else x.trainMode
             eyes := if train then [] else x.eyes
             phy := if train && bits (uwImm w) 0 3 = 1 then x.phy &&& 11 else x.phy
             dqIn := if uwBkind w = 4 then env.readBytes else x.dqIn
             dqInValid := if uwBkind w = 4 then !env.readBytes.isEmpty else x.dqInValid }
  let s2 := if uwCeop w = 2 then s1.updChan ch fun x => { x with ce := [], busOwner := if c.housekeeping then x.busOwner else none } else s1
  let n := if uwBcnt w = 0 then s.ctxStored c else uwBcnt w
  let c1 := { c with txOpen := if opens then true else if uwCeop w = 2 then false else c.txOpen }
  let bs := padTo n env.readBytes
  let s3 := (s2.setCtx c1).opBeats c1 w bs
  let c2 := ((s3.agop (c1.takeRead w bs) (uwAgop w)).compute w)
  if (s3.ctxAt c.seq c.ctx) != some c1 then s3
  else if uwEff w != 0 && 8 ≤ c2.stage.length then s3.ucodeFault c2 4
  else
    let c3 := if uwEff w = 0 then c2 else { c2 with stage := c2.stage ++ [uwEff w] }
    let r := if uwCommit w then s3.commit c3 else (s3, c3)
    r.1.nextWord r.2 img w

/-- A YIELD word (R387 to R391): COMMIT first; then, at a yield point, a suspend, a quiesce, or what ranks higher takes the sequencer; else it waits or goes on. With a staged effect or an open transaction it is no yield point, which is reported. -/
def State.yieldWord (s : State) (c : Ctx) (img : List Byte) (w : Nat) (env : UcodeEnv) : State :=
  let r := if uwCommit w then s.commit c else (s, c)
  let a := r.1
  let c1 := r.2
  if !c1.stage.isEmpty || c1.txOpen then
    let b := if c.wordAt.isNone then a.noteFault c1 5 else a
    if b.waitHolds c1 img w env then (b.agop c1 (uwAgop w)) |> fun c2 => b.nextWord c2 img w
    else b.setCtx { c1 with run := 1, wordAt := c.wordAt.or (some a.now) }
  else
    let c1 := { c1 with wordAt := c.wordAt.or (some a.now), runAt := a.now }
    match a.suspendAt c1 w with
    | some o =>
      let k := if o.kind.erases then 19 else 17
      (a.issueSuspend o).setCtx
        { seq := c1.seq, ctx := c1.ctx, run := 1, kind := k, pc := a.dispatchAddr o.die k, plane := c1.plane, page := c1.page
          args := c1.args, token := some (c1.save (uwRpt w)), op := some o.id, cws := c1.cws, runAt := a.now }
    | none =>
      if (a.parkAddr c1 (uwRpt w)).isSome then a.setCtx { c1 with run := 5, rpt := uwRpt w, parkedAt := a.now, wordAt := none }
      else if a.outranked c1 then a.setCtx { c1 with run := 2, wordAt := none }
      else if a.waitHolds c1 img w env then a.nextWord (a.agop c1 (uwAgop w)) img w
      else a.setCtx { c1 with run := 3 }

/-- Whether a context may execute a word now: it runs, or it is ready or waits at a yield point and its sequencer is free (R376). -/
def State.mayRun (s : State) (c : Ctx) : Bool :=
  c.run == 1 || ((c.run == 2 || c.run == 3) && !(s.ctxs.any fun x => x.seq == c.seq && x.run == 1))

/-- MICROWORD. -/
def execMicroword (dt : Nat) (seq ctx : Nat) (env : UcodeEnv) (s : State) : Host.Outcome State Fault Refusal :=
  s.functional dt fun s => s.onMedia fun s =>
    match s.ctxAt seq ctx with
    | none => s
    | some c0 =>
      let img := s.activeImage c0.cluster
      let w := imgWord img c0.pc
      let c := if uwYield w then c0 else { c0 with wordAt := c0.wordAt.or (some s.now) }
      let a := s.phyIn c env
      if !(s.mayRun c) then s
      else if !(imgIsCode img c.pc) || uwReserved w || (uwCeop w == 3 && !c.housekeeping) then (a.ucodeFault c 1).progress
      else if uwYield w then (a.yieldWord c img w env).progress
      else if a.waitHolds c img w env && !(s.beatsHeld c w env) then (a.runWord c img w env).progress
      else a.setCtx { c with run := 1 }

/-- UCODE_WATCHDOG (R392): a running context has gone UCODE_WATCHDOG core cycles, at most 1.2 of them a nanosecond (R18), without a yield
point or its end. -/
def execUcodeWatchdog (dt : Nat) (seq ctx : Nat) (s : State) : Host.Outcome State Fault Refusal :=
  s.functional dt fun s => s.onMedia fun s =>
    match s.ctxAt seq ctx with
    | some c => if c.run == 1 && c.runAt + ceilDiv (5 * s.objN Obj.UCODE_WATCHDOG) 6 ≤ s.now then (s.ucodeFault c 7).progress else s
    | none => s

/-! ### Dispatch (R375 to R377, R393) -/

/-- A start takes place. -/
def State.takeStart (s : State) (x : Start) : State :=
  match x with
  | .routine o => s.takeRoutine o.id
  | .resume o => s.startResume o
  | .fresh o => (s.noteTurn o).startOp o
  | .ready c => s.setCtx { c with run := 1, wordAt := none, runAt := s.now }

/-- The channel-scope routine a channel waits for: RESET_ALL while it is enumerated, once the operations started there have ended,
DPD_ENTER at the end of PARK entry, DPD_EXIT where its dies lie powered down and are wanted (R33, R230, R375). -/
def State.channelRoutine (s : State) (ch : Nat) (last : Option Nat) : Option Nat :=
  let down := (s.channelDies ch).any fun d => !(s.die d).powered
  let wanted := s.ops.any fun o => dieChannel o.die == ch
  let quiet := s.modes.pending.isSome && s.parkQuiet
  if (s.chan ch).st == 1 then
    (if last == some 1 || s.ops.any fun o => dieChannel o.die == ch && o.started then none else some 1)
  else if (s.chan ch).st != 3 then none
  else if s.modes.parkEntry && quiet && !down && !wanted then some 26
  else if down && (s.prot.pfail || (s.modes.current != .park && (!s.modes.parkEntry || wanted))) then some 27
  else none

/-- The next channel-scope routine of a housekeeping sequencer starts, on a channel whose bus is at a quiet point (R377); a DPD_ENTER that
faulted is not run again in the same PARK entry (R392); the broadcast reset of enumeration runs with IFACE_SEL at SDR (R227, R231). -/
def State.housekeep (s : State) (h : Nat) : State :=
  let busy := s.ctxs.any fun c => c.seq == 64 + h && c.run == 1
  let next := (List.range 16).findSome? fun k =>
    let ch := 4 * k + h
    let old := s.ctxAt (64 + h) k
    if s.build.channels ≤ ch || (old.any fun c => c.run != 0) || (s.chan ch).busOwner.isSome
        || (mapGetD s.clusters (ch / 8) {}).quiescing && (s.chan ch).st != 1 then none
    else if old.any fun c => c.kind == 26 && c.parkedAt == s.modes.changeCount + 1 && (s.chan ch).st == 3 && !((s.channelDies ch).any fun d => !(s.die d).powered) then none
    else (s.channelRoutine ch (old.map fun c => c.kind)).map fun kind => (k, ch, kind)
  match next with
  | some (k, ch, kind) =>
    if busy then s
    else
      let c : Ctx := { seq := 64 + h, ctx := k, run := 1, kind, runAt := s.now }
      let img := s.activeImage (ch / 8)
      let sdr (x : Chan) : Chan := if kind = 1 then { x with iface := 0, rate := 0, lockWait := x.iface != 0 } else x
      (s.updChan ch fun x => { sdr x with busOwner := some 16 }).setCtx { c with pc := profDispatch img (s.ctxRegion c img) kind }
  | none => s

/-- A housekeeping sequencer that is about to power dies down waits for step 3 of PARK entry, which is taken first (R33). -/
def State.parkStep (s : State) (seq : Nat) : State :=
  if 64 ≤ seq && seq < 68 && (List.range 16).any (fun k => s.channelRoutine (4 * k + (seq - 64)) none == some 26) then s.parkFlush else s

/-- DIE_OP_DISPATCH: a free sequencer starts what ranks first (R376). -/
def execDieOpDispatch (dt : Nat) (seq : Nat) (s : State) : Host.Outcome State Fault Refusal :=
  s.functional dt fun s => (s.parkStep seq).onMedia fun s =>
    if 64 ≤ seq then (if seq < 68 then s.housekeep (seq - 64) else s)
    else if (s.ctxs.any fun c => c.seq == seq && c.run == 1) || !([1, 3].contains (s.chan seq).st) || (s.chan seq).busOwner == some 16 then s
    else match minBy (fun x => x.1) (s.starts seq) with
      | some x => (s.takeStart x.2).progress
      | none => s

/-! ### The swap (R402) -/

/-- Whether every context of a cluster has quiesced, no channel of it enumerating, no operation of it suspended (R401, R403). -/
def State.quiesced (s : State) (k : Nat) : Bool :=
  (s.ctxs.all fun c => c.cluster != k || c.run == 0 || c.run == 5)
    && (List.range 8).all fun i => !([1, 2].contains (s.chan (8 * k + i)).st)

/-- A parked context goes on at its RESUME address; its operation's limit grows by the time parked (R401, R402). -/
def State.unpark (s : State) (c : Ctx) (pc : Nat) : State :=
  let s1 := s.setCtx { c with pc, run := 2, wordAt := none }
  match s1.ctxOp c with
  | some o => s1.updOp o.id fun x => { x with suspendedNs := x.suspendedNs + (s.now - c.parkedAt) }
  | none => s1

/-- One cluster swaps: banks, profiles, parked contexts. -/
def State.swapCluster (s : State) (k : Nat) : State :=
  let parked := s.ctxs.filter fun c => c.cluster == k && c.run == 5
  let addrs := parked.map fun c => (c, (s.parkAddr c c.rpt).getD c.pc)
  let s1 := { s with clusters := mapUpd s.clusters k {} fun c => { active := c.standby, standby := c.active, quiescing := false } }
  let img := s1.activeImage k
  let s2 := (s1.presentDies.filter fun d => dieCluster d == k).foldl (fun a d =>
    let p := imageProfile img (a.objN Obj.DIE_ID (dieSlot d) (dieChannel d))
    a.updDie d fun i => { i with profile := p.map fun x => x.2, dirIndex := (p.map fun x => x.1).getD 255 }) s1
  addrs.foldl (fun a x => a.unpark x.1 x.2) s2

/-- UCODE_SWAP (R152, R402). -/
def execUcodeSwap (dt : Nat) (s : State) : Host.Outcome State Fault Refusal :=
  s.functional dt fun s => s.onMedia fun s =>
    match s.activation with
    | none => s
    | some a =>
      if !(a.mask.all s.quiesced) then s
      else
        let s1 := a.mask.foldl State.swapCluster s
        let mask (l : List Nat) : Nat := sumOf (l.map fun k => 2 ^ k)
        let v := mask a.dropped * 256 + mask a.mask
        let s2 := ((s1.setObjN Obj.UCODE_LAST_ACT v).setObjN Obj.UCODE_QUIESCE_NS (min 0xFFFFFFFF (s.now - a.startedAt))).classNotice 0x44 1 0 [(4, v)]
        let s3 := { s2 with activation := none }
        (s3.finish a.stamp stOk 0).progress

end Sys2Proof.Machine
end

