-- ==== Sys2Proof/Machine/Notices.lean ====
section
/-!
DEFINITION. Machine/Notices.lean: the meanings of the notice queues' commands (R418 to R429, R440, R441) and of the memory
ports' (R512 to R517).
-/

namespace Sys2Proof.Machine

open Sys2Proof

/-! ### Pops (R424) -/

/-- A pop answered with a word: bytes 0 to 3 on the port, the whole word in the reader's latches. -/
def State.popAnswer (s : State) (p key : Nat) (w : BitVec 128) : State :=
  let s1 := s.updProc p fun x => { x with popWait := none, nqLatch := w, rdLatch := w64 (w.toNat % 2 ^ 64) }
  (s1.account (.cfg p) key false rcOk (w.toNat % 2 ^ 32)).notePrev (.cfg p) key false 0

/-- The next word of a queue popped by a processor; words behind it move on (R418, R422). -/
def State.popWord (s : State) (p q key : Nat) : State :=
  match (s.nq q).tail with
  | w :: rest => (((s.updNq q fun n => { n with tail := rest }).nqAdvance q).nqPennant q).popAnswer p key w
  | [] => s

/-- Whether a FLUSH that waits is complete: every word that entered before it is in the tail stage, or the tail is full and no
burst of the ring is in transit, so that they lie in the ring as far as it has room (R427; DEDUCED, log 109). -/
def NoticeQ.flushed (n : NoticeQ) : Bool :=
  n.flush.any fun t => t ≤ n.moved || (n.ringWait == 0 && n.ringRead.isNone && 16 < n.tail.length)

/-- A FLUSH that waits completes: its write is answered (R427). -/
def State.flushDone (s : State) (q : Nat) : State :=
  if (s.nq q).flushed then { s.updNq q fun n => { n with flush := none } with cfg := { ready := true } } else s

/-- Pops that wait take their word as soon as one is readable, and a FLUSH that waits completes (R424, R427). -/
def State.servePops (s : State) : State :=
  (List.range 8).foldl State.flushDone <| (List.range 8).foldl (fun a p => match (a.proc p).popWait with
    | some (q, _) => a.popWord p q (Obj.NQ_POP.at q)
    | none => a) s

/-- A pop object read: the checks of R540, then a word, else `f` (R424). -/
def State.popRead (s : State) (p q : Nat) (o : Obj) (f : State → State) : State :=
  let key := o.at q
  if s.portHeld (.cfg p) then s
  else if 8 ≤ q || 8 ≤ p then s
  else if !(s.pathAllows (.cfg p) o q 0 false) then (s.account (.cfg p) key false rcPath 0).notePrev (.cfg p) key false 0
  else if (s.nq q).tail.isEmpty then f s
  else s.popWord p q key

/-- NQ_POP: with nothing readable the read waits with CFG_READY low. -/
def execNqPop (dt : Nat) (proc queue : Nat) (s : State) : Host.Outcome State Fault Refusal :=
  s.functional dt fun s => s.popRead proc queue Obj.NQ_POP fun a =>
    ({ a with cfg := {} }).updProc proc fun x => { x with popWait := some (queue, a.now) }

/-- NQ_TRY: with nothing readable the empty word comes at once. -/
def execNqTry (dt : Nat) (proc queue : Nat) (s : State) : Host.Outcome State Fault Refusal :=
  s.functional dt fun s => s.popRead proc queue Obj.NQ_TRY fun a => a.popAnswer proc (Obj.NQ_TRY.at queue) 0

/-- NQ_BLOCK_EXPIRED: a pop that has waited NQ_BLOCK_NS returns the empty word. -/
def execNqBlockExpired (dt : Nat) (proc : Nat) (s : State) : Host.Outcome State Fault Refusal :=
  s.functional dt fun s =>
    match (s.proc proc).popWait with
    | some (q, t) =>
      if t + s.objN Obj.NQ_BLOCK_NS ≤ s.now then
        (s.bump Obj.NQ_BLOCK_EXPIRED).popAnswer proc (Obj.NQ_POP.at q) 0
      else s
    | none => s

/-! ### Entering (R422, R423) -/

/-- NOTICE_OFFER: the notice offered first is taken by its queue. -/
def execNoticeOffer (dt : Nat) (s : State) : Host.Outcome State Fault Refusal :=
  s.functional dt fun s =>
    match s.offers with
    | n :: rest => (({ s with offers := rest }).nqTake n).servePops.deliver.progress
    | [] => s

/-- HELD_NOTICE_ENTER. -/
def execHeldNoticeEnter (dt : Nat) (queue : Nat) (s : State) : Host.Outcome State Fault Refusal :=
  s.functional dt fun s => (s.nqEnterHeld queue).servePops.deliver.progress

/-! ### The ring (R418, R427, R428) -/

/-- The head stage's partial burst written into the ring, as far as the ring has room. -/
def State.nqWriteOut (s : State) (q : Nat) : State :=
  let n := s.nq q
  let k := min n.head.length (s.nqRing q - n.ring.length)
  if k = 0 then s else s.nqSpill q k

/-- NQ_FLUSH_TIMEOUT. -/
def execNqFlushTimeout (dt : Nat) (queue : Nat) (s : State) : Host.Outcome State Fault Refusal :=
  s.functional dt fun s =>
    if (s.nq queue).lastWord + s.objN Obj.NQ_FLUSH_NS ≤ s.now then (s.nqWriteOut queue).nqAdvance queue else s

/-- CLEAR: every word is discarded and counted, a pending pennant dropped; words being read from the ring come to nothing
(R427). -/
def State.nqClear (s : State) (q : Nat) : State :=
  let s1 := s.bump Obj.NQ_DROPPED q 0 (s.nq q).held_words
  s1.updNq q fun n => { n with head := [], ring := [], tail := [], pennant := none,
                               ringRead := n.ringRead.map fun _ => 0, ringRd := n.ringWr
                               moved := n.moved + n.head.length + n.ring.length }

/-- NQ_CFG written (R427 to R429, R441); a FLUSH whose words are not yet where R427 wants them leaves the write unanswered:
RING_LOG2 is 0 or 8 to 16 and changes only while ENABLE is 0 and the queue holds no
word; LEVEL is not 0; ENABLE from 0 to 1 takes a ring back into use after an error. -/
def writeNqCfg (q : Nat) (s : State) (v : Nat) : State × Nat :=
  let n := s.nq q
  let ring := bits v 20 4
  let was := bits (s.nqCfg q) 20 4
  if (ring != 0 && ring < 8) || bits v 0 8 == 0 || (ring != was && (s.nqEnabled q || n.held_words != 0)) then s.outOfRange
  else
    let rise := !(s.nqEnabled q) && tbit v 14
    let s1 := (s.setObjN Obj.NQ_CFG (setBits v 15 2 0) q).updNq q fun n =>
      { n with ringErr := n.ringErr && !rise, ringOff := n.ringOff && !rise,
               ringWr := if ring != was then 0 else n.ringWr, ringRd := if ring != was then 0 else n.ringRd }
    let s2 := if tbit v 15 then
        (s1.nqWriteOut q).updNq q fun x => { x with flush := some (n.moved + n.head.length + n.ring.length) }
      else s1
    let s3 := if tbit v 16 then s2.nqClear q else s2
    let s4 := s3.nqAdvance q
    (if (s4.nq q).flushed then s4.updNq q fun x => { x with flush := none } else s4, rcOk)

/-- NQ_RING_BASE written (R429). -/
def writeNqRingBase (q : Nat) (s : State) (v : Nat) : State × Nat :=
  if s.nqEnabled q || (s.nq q).held_words != 0 then s.outOfRange else s.store Obj.NQ_RING_BASE q 0 v

/-- FLUSH_NQ: NQ_CFG written with FLUSH = 1. -/
def execFlushNq (dt : Nat) (path : DictPath) (queue : Nat) (s : State) : Host.Outcome State Fault Refusal :=
  s.functional dt fun s =>
    if queue < 8 then (s.writeCmd path Obj.NQ_CFG (w64 (setBits (s.nqCfg queue) 15 1 1)) (writeNqCfg queue) queue).servePops
    else s

/-- CLEAR_NQ: NQ_CFG written with CLEAR = 1. -/
def execClearNq (dt : Nat) (path : DictPath) (queue : Nat) (s : State) : Host.Outcome State Fault Refusal :=
  s.functional dt fun s =>
    if queue < 8 then s.writeCmd path Obj.NQ_CFG (w64 (setBits (s.nqCfg queue) 16 1 1)) (writeNqCfg queue) queue else s

/-- The class bits of a word's notice (R421, R422); a pennant carries its own. -/
def wordMask (w : BitVec 128) : Nat :=
  let k := bits w.toNat 0 16
  if tbit w.toNat 28 then bits w.toNat 96 32
  else if k = 1 then 0
  else if k < 0x40 then 1 else if k < 0x50 then 2 else if k < 0x58 then 4 else if k < 0x60 then 8
  else if k < 0x68 then 16 else if k < 0x70 then 32 else 64

/-- Notices among lost words: each that starts there, one cut before them, and those that a lost pennant stands for. -/
def lostNotices (ws : List (BitVec 128)) : Nat :=
  let cut := match ws with
    | w :: _ => if tbit w.toNat 29 then 0 else 1
    | [] => 0
  cut + sumOf (ws.map fun w => if tbit w.toNat 28 then bits w.toNat 32 32 else if tbit w.toNat 29 then 1 else 0)

/-- The full NSEQ of a word, from its low 8 bits and the queue's next NSEQ. -/
def NoticeQ.fullSeq (n : NoticeQ) (w : BitVec 128) : Nat :=
  let d := (n.seq + 256 - bits w.toNat 16 8) % 256
  (n.seq + 2 ^ 32 - (if d = 0 then 256 else d)) % 2 ^ 32

/-- A memory-port error on the ring (R428): RING_ERR, an event, the ring out of use; the words it held are lost, and a pennant
takes their place ahead of the head stage. -/
def State.ringError (s : State) (q addr : Nat) (read : Bool) : State :=
  let n := s.nq q
  let lost := n.ring
  let count := lostNotices lost
  let mask := lost.foldl (fun m w => m.lor (wordMask w)) 0
  let mark := match lost with
    | w :: _ => [pennantWord count (n.fullSeq w) mask (n.fullSeq w)]
    | [] => []
  let s1 := (s.event 0x24 q addr).bump Obj.NQ_DROPPED q 0 count
  let s2 := s1.updNq q fun n => { n with ring := [], head := mark ++ n.head, ringErr := true, ringOff := true, ringWr := 0, ringRd := 0
                                         moved := n.moved + lost.length - mark.length
                                         ringRead := if read then none else n.ringRead.map fun _ => 0 }
  (s2.nqAdvance q).nqPennant q

/-- Words read from the ring enter the tail stage. -/
def State.ringGot (s : State) (q : Nat) : State :=
  let k := ((s.nq q).ringRead).getD 0
  let size := max 1 (s.nqRing q)
  let s1 := s.updNq q fun n => { n with tail := n.tail ++ n.ring.take k, ring := n.ring.drop k, ringRead := none, moved := n.moved + k,
                                        ringRd := (n.ringRd + k) % size }
  (s1.nqAdvance q).nqPennant q

/-! ### Memory ports (R511 to R517) -/

/-- A port of the build changed, and what its credits then allow put. -/
def State.credit (port : Nat) (f : MpPort → MpPort) (s : State) : State :=
  if port < s.build.clusters then s.updPort port fun p => (f p).pump else s

/-- A command of the memory ports: credits count from the release of reset on (R512, R525), before initialization ends too. -/
def State.credited (s : State) (dt port : Nat) (f : MpPort → MpPort) : Host.Outcome State Fault Refusal :=
  if s.testMode = false ∧ s.phase = .clearing then .next ((s.elapse dt).credit port f)
  else s.functional dt (State.credit port f)

/-- A command credit, at most 4,095 held (R512). -/
def execMpCmdCredit (dt : Nat) (port : Nat) (s : State) : Host.Outcome State Fault Refusal :=
  s.credited dt port fun p => { p with cmdCr := min 4095 (p.cmdCr + 1) }

/-- A write-beat credit (R512). -/
def execMpWrCredit (dt : Nat) (port : Nat) (s : State) : Host.Outcome State Fault Refusal :=
  s.credited dt port fun p => { p with wrCr := min 4095 (p.wrCr + 1) }

/-- A local transfer failed at a memory port: DATA_TIMEOUT, cause 2, at the offset of the failing part; nothing is accepted
(R106, R124). -/
def State.localFailed (s : State) (st : Nat) (r : MpReq) : State :=
  match s.cmd? st with
  | some c =>
    if c.isEnded then s
    else
      let info := 2 + 0xFFFF * 65536 + (r.addr - c.laddr) % 2 ^ 32 * 2 ^ 32
      ((s.cancelMedia st).endEarly st stDataTimeout info)
  | none => s

/-- A fetched sector of a local WRITE or RAW_PROGRAM (R124). -/
def State.localFetched (s : State) (st : Nat) (r : MpReq) (data : List Byte) : State :=
  match s.cmd? st with
  | some c => if c.isEnded then s else s.putRange c ((r.addr - c.laddr) / 4096) data
  | none => s

/-- A sector of a local READ lies at LADDR: its slot and its staging buffer are free; with the last the READ completes (R124,
R302). -/
def State.localStored (s : State) (st : Nat) (r : MpReq) : State :=
  match s.cmd? st with
  | some c =>
    if c.isEnded then s
    else if c.opcode == 0x22 then s.rawLeft st 4096
    else
      let i := (r.addr - c.laddr) / 4096
      let staged := c.bufs.filter fun b => b.1 == 2 ^ 32 + i
      let s1 := (s.freeSlots c (c.ranges.filter fun x => x == i)).bump Obj.STAT_HOST_RD_BYTES 0 0 4096
      let s2 := (s1.releaseBufs (s.queueRequester c.queue) (staged.map fun b => b.2)).updCmd st fun d =>
        { d with sent := d.sent + 1, ranges := d.ranges.filter (fun x => x != i), bufs := d.bufs.filter fun b => !(staged.contains b) }
      match s2.cmd? st with
      | some d =>
        if d.nsect ≤ d.sent then
          let x := d.readStatus
          (s2.releaseRead d d.nsect).finish st x.1 x.2
        else s2
      | none => s2
  | none => s

/-- A whole read came back. -/
def State.mpReadDone (s : State) (r : MpReq) : State :=
  match r.use with
  | .ceRead ch => s.ceGotRead ch r r.got r.bad
  | .localWrite st => if r.bad then s.localFailed st r else s.localFetched st r (r.got.take 4096)
  | .ring q => if r.bad && (s.nq q).ringRead.any (fun k => k != 0) then s.ringError q r.addr true else s.ringGot q
  | _ => s

/-- A write was acknowledged. -/
def State.mpWriteDone (s : State) (r : MpReq) (bad : Bool) : State :=
  match r.use with
  | .ceWrite ch => s.ceGotAck ch bad
  | .localRead st => if bad then s.localFailed st r else s.localStored st r
  | .ring q =>
    let s1 := s.updNq q fun n => { n with ringWait := n.ringWait - 1 }
    if bad && !(s.nq q).ringOff then s1.ringError q r.addr false else (s1.nqAdvance q).nqPennant q
  | _ => s

/-- MP_RD_BEAT: a beat of the oldest read with its tag; RD_END completes the read (R514). -/
def execMpRdBeat (dt : Nat) (port tag : Nat) (beat : List Byte) (last bad : Bool) (s : State) :
    Host.Outcome State Fault Refusal :=
  s.functional dt fun s =>
    match (s.port port).out.find? fun r => !r.write && r.tag == tag with
    | none => s
    | some r =>
      let r1 := { r with got := r.got ++ padTo 64 beat, bad := r.bad || bad }
      if last then
        let s1 := s.updPort port fun p => ({ p with out := p.out.erase r } : MpPort).pump
        (s1.mpReadDone r1).servePops.progress
      else s.updPort port fun p => { p with out := p.out.map fun x => if x == r then r1 else x }

/-- MP_ACK: a write whose beats are all put takes effect and completes; one that failed may have written any of its bytes
(R514, R515). -/
def execMpAck (dt : Nat) (port tag : Nat) (bad : Bool) (s : State) : Host.Outcome State Fault Refusal :=
  s.functional dt fun s =>
    match (s.port port).out.find? fun r => r.write && r.tag == tag && r.sent == r.beats with
    | none => s
    | some r =>
      let s1 := s.updPort port fun p => ({ p with out := p.out.erase r } : MpPort).pump
      let s2 := if bad then ({ s1 with mem := r.applySome s1.freePick s1.mem }).drawFree else { s1 with mem := r.apply s1.mem }
      (s2.mpWriteDone r bad).servePops.progress

end Sys2Proof.Machine
end

