-- ==== Sys2Proof/Machine/Raster.lean ====
section
/-!
DEFINITION. Machine/Raster.lean: the meanings of the raster port's strobes, the virtual raster, NEW_TAKE, orbit ticks and the
manual orbit table (R37 to R52, R61).
-/

namespace Sys2Proof.Machine

open Sys2Proof

/-! ### Absence (R46 to R48) -/

/-- The period and line count the virtual raster takes at its next boundary (R47). -/
def State.virtualShape (s : State) : Nat × Nat :=
  if s.objN Obj.VRAS_HOLD == 1 && s.raster.frameNs != 0 then (s.raster.frameNs, s.raster.lines)
  else (s.objN Obj.VRAS_FRAME_NS, s.objN Obj.VRAS_LINES)

/-- A RASTER_LOST or RASTER_BACK event, raised while OPT_RASTER is 1 (R494). -/
def State.rasterEvent (s : State) (kind detail : Nat) : State :=
  if tbit (s.objN Obj.TLOG_CTRL) 2 then s.event kind 0 detail else s

/-- A virtual frame boundary: numbered one above the previous frame; only a pending new take starts an epoch; the frame it opens
takes its period and line count with RAS_LINES as this boundary leaves it (R47, R49, R65). -/
def State.virtualFrame (s : State) : State :=
  let cause := if s.raster.newTake then 3 else 0
  let f := (s.pos.frame.toNat + 1) % 2 ^ 32
  let ended := if 0 < s.raster.frameHigh then min 65535 (s.raster.frameHigh + 1) else 0
  let v := ({ s with raster := { s.raster with lines := ended } }).virtualShape
  ({ s with raster := { s.raster with vPeriod := v.1, vLines := v.2 } }.openFrame (nextPos s.pos f cause) cause).setLatch 32

/-- The camera raster becomes absent: the virtual raster takes over, at once with a boundary if its moment has passed (R46,
R47); RASTER_LOST bears the position that this cycle opens (R45). -/
def State.loseRaster (s : State) : State :=
  if !s.raster.present then { s with raster := { s.raster with lost := true } }
  else
    let v := s.virtualShape
    let s1 := { s with raster := { s.raster with present := false, lost := true, absentAt := s.now,
                                                 vPeriod := v.1, vLines := v.2 } }
    let s2 := if s1.raster.boundaryAt + s1.raster.vPeriod ≤ s1.now then s1.virtualFrame else s1
    (s2.classNotice 0x50 2 0 [(4, s2.rasStatus)]).rasterEvent 0x38 s2.rasStatus

/-- RAS_VALID_FALL (R39, R46). -/
def execRasValidFall (dt : Nat) (s : State) : Host.Outcome State Fault Refusal :=
  s.onPin dt (fun s => { s with raster := { s.raster with validIn := false } }) fun s =>
    if s.raster.validIn then ({ s with raster := { s.raster with validIn := false } }).loseRaster else s

/-- RAS_VALID_RISE (R39). -/
def execRasValidRise (dt : Nat) (s : State) : Host.Outcome State Fault Refusal :=
  s.onPin dt (fun s => { s with raster := { s.raster with validIn := true } })
    fun s => { s with raster := { s.raster with validIn := true } }

/-- RASTER_LOSS_TIMEOUT (R46). -/
def execRasterLossTimeout (dt : Nat) (s : State) : Host.Outcome State Fault Refusal :=
  s.functional dt fun s =>
    match s.raster.lastFrameAt with
    | some t =>
      if s.raster.present && s.raster.frameNs != 0 && t + s.objN Obj.RAS_LOSS_FRAMES * s.raster.frameNs ≤ s.now
      then s.loseRaster else s
    | none => s

/-! ### Camera strobes -/

/-- Whether 100 ns have passed since the previous accepted strobe of a kind (R38). -/
def spaced (last : Option Nat) (now : Nat) : Bool := match last with
  | some t => t + 100 ≤ now
  | none => true

/-- The lowest-numbered cause of R41 that holds at a camera frame; 0: none. -/
def State.epochCause (s : State) (f : Nat) : Nat :=
  if f ≤ s.pos.frame.toNat then 1 else if !s.raster.present then 2 else if s.raster.newTake then 3 else 0

/-- The smallest declared period among the open streams (R55, R61). -/
def State.planPeriod (s : State) : Option Nat :=
  match (s.streams.filter fun x => x.isOpen).map fun x => x.period with
  | [] => none
  | p :: ps => some (ps.foldl min p)

/-- PERIOD_SHORT brought up to date with the measured period (R61). -/
def State.judgePeriod (s : State) : State :=
  match s.planPeriod with
  | none => s
  | some pf =>
    let m := s.raster.frameNs
    if m = 0 then s
    else
      let short := decide (m * 64 < pf * 63)
      let s1 := { s with raster := { s.raster with periodShort := short } }
      if short && !s.raster.periodShort then s1.classNotice 0x53 2 0 [(4, m)] else s1

/-- The interval that an accepted frame strobe ends; the measure restarts at each return of the raster (R61). -/
def RasterSt.measure (r : RasterSt) (now : Nat) : List Nat :=
  match r.present, r.lastFrameAt with
  | true, some t => let l := r.intervals ++ [now - t]
                    l.drop (l.length - 8)
  | _, _ => []

/-- An accepted camera frame strobe (R37, R41, R48, R66). -/
def State.cameraFrame (s : State) (frameNo : Nat) : State :=
  let f := (if tbit (s.objN Obj.RAS_NUMBER_SRC) 0 then s.pos.frame.toNat + 1 else frameNo) % 2 ^ 32
  let cause := s.epochCause f
  let back := !s.raster.present
  let s1 := if cause = 0 then s.bump Obj.RAS_FRAME_SKIP 0 0 (f - s.pos.frame.toNat - 1) else s
  let p := nextPos s1.pos f cause
  let s2 := { s1 with raster := { s1.raster with
    intervals := s1.raster.measure s1.now, present := true, lost := false, lastFrameAt := some s1.now } }
  let s3 := s2.openFrame p cause
  let s4 := if back then
      (s3.classNotice 0x51 2 0 [(4, s3.rasStatus), (8, s3.objN Obj.RAS_EPOCH_COUNT)]).rasterEvent 0x39
        (s3.objN Obj.RAS_EPOCH_COUNT)
    else s3
  s4.judgePeriod.setLatch 32

/-- FRAME_BOUNDARY: a RAS_FRAME strobe with its number (R38, R41). -/
def execFrameBoundary (dt : Nat) (frameNo : Nat) (s : State) : Host.Outcome State Fault Refusal :=
  s.functional dt fun s =>
    if !s.raster.validIn then s
    else if !(spaced s.raster.lastFrameAt s.now) then s.bump Obj.RAS_STROBE_ERR
    else s.cameraFrame frameNo

/-- A line opens (R40, R50): its number, held at 65,535. -/
def State.openLine (s : State) (line : Nat) : State :=
  let n := min line 65535
  { s with raster := { s.raster with pos := { s.raster.pos with line := BitVec.ofNat 16 n },
                                     frameHigh := max s.raster.frameHigh n, lineCount := s.raster.lineCount + 1 } }

/-- LINE_BOUNDARY: a RAS_LINE strobe with its number (R37, R38). A strobe numbered by the internal count while the line stands at
65,535 does not exceed the current line and is refused (R40 only says that the line saturates: DESIGN CHOICE, log 230). -/
def execLineBoundary (dt : Nat) (lineNo : Nat) (s : State) : Host.Outcome State Fault Refusal :=
  s.functional dt fun s =>
    let n := min 65535 (if tbit (s.objN Obj.RAS_NUMBER_SRC) 1 then s.pos.line.toNat + 1 else lineNo)
    if !s.raster.validIn || !s.raster.present then s
    else if !(spaced s.raster.lastLineAt s.now) || n ≤ s.pos.line.toNat then s.bump Obj.RAS_STROBE_ERR
    else ({ s with raster := { s.raster with lastLineAt := some s.now } }).openLine n

/-! ### The virtual raster -/

/-- VIRTUAL_FRAME_BOUNDARY (R47): taken once the period has passed since the last frame boundary. -/
def execVirtualFrameBoundary (dt : Nat) (s : State) : Host.Outcome State Fault Refusal :=
  s.functional dt fun s =>
    if !s.raster.present && s.raster.boundaryAt + s.raster.vPeriod ≤ s.now then s.virtualFrame else s

/-- The time of a virtual line, if the frame has it (R47). -/
def RasterSt.lineTime (r : RasterSt) (line : Nat) : Option Nat :=
  if line < r.vLines then some (r.boundaryAt + line * r.vPeriod / r.vLines) else none

/-- VIRTUAL_LINE_BOUNDARY (R47): lines at or below the current one, and those whose time had passed when the absence began,
are skipped. -/
def execVirtualLineBoundary (dt : Nat) (line : Nat) (s : State) : Host.Outcome State Fault Refusal :=
  s.functional dt fun s =>
    match s.raster.lineTime line with
    | some t =>
      if !s.raster.present && s.pos.line.toNat < line && t ≤ s.now && s.raster.absentAt < t then s.openLine line else s
    | none => s

/-! ### Objects -/

/-- NEW_TAKE written with 1 (R41). -/
def writeNewTake (s : State) (_v : Nat) : State × Nat := ({ s with raster := { s.raster with newTake := true } }, rcOk)

/-- NEW_TAKE. -/
def execNewTake (dt : Nat) (path : DictPath) (value : W64) (s : State) : Host.Outcome State Fault Refusal :=
  s.functional dt fun s => s.writeCmd path Obj.NEW_TAKE value writeNewTake

/-- ORBIT_TICK (R50): the next tick of the frame begins when its source has reached it. -/
def execOrbitTick (dt : Nat) (s : State) : Host.Outcome State Fault Refusal :=
  s.functional dt fun s =>
    match s.orbitTable with
    | some t => if s.orbit.tick < t.ticks && s.tickDue t s.orbit.tick then s.beginTick.advance.retryDue.advance else s
    | none => s

/-- The end action of ORBIT_STANDBY (R52). -/
def endOrbitStandby (bs : List Byte) (s : State) : State × Nat :=
  if s.tableOk bs then ({ s with orbit := { s.orbit with standby := some (OrbitTable.ofImage bs) } }, rcOk)
  else (s, rcRefused)

/-- ORBIT_STANDBY_WRITE. -/
def execOrbitStandbyWrite (dt : Nat) (path : DictPath) (image : List Byte) (s : State) :
    Host.Outcome State Fault Refusal :=
  s.functional dt fun s => s.downloadCmd path Obj.ORBIT_STANDBY image (endOrbitStandby image)

/-- VRAS_FRAME_NS and VRAS_LINES written: their quotient stays at 100 ns or more (R49). -/
def writeVras (o : Obj) (s : State) (v : Nat) : State × Nat :=
  let f := if o.key == Obj.VRAS_FRAME_NS.key then v else s.objN Obj.VRAS_FRAME_NS
  let l := if o.key == Obj.VRAS_LINES.key then v else s.objN Obj.VRAS_LINES
  if f < 100 * l then s.outOfRange else s.store o 0 0 v

end Sys2Proof.Machine
end

