-- ==== Sys2Proof/Machine/TroubleLog.lean ====
section
/-!
DEFINITION. Machine/TroubleLog.lean: the meanings of the trouble log's commands: records and snapshots (R491 to R497), list
writes (R498), areas and the clear (R499), the image (R501, R502), the interrupt latch (R503).
-/

namespace Sys2Proof.Machine

open Sys2Proof

/-! ### Snapshots -/

/-- A value as a record holds it: 64 bits, zero- or sign-extended (R463, R491). -/
def Obj.extend (o : Obj) (v : Nat) : W64 :=
  if o.ty.signed then BitVec.ofInt 64 (signedOf (8 * o.ty.bytes) v) else w64 v

/-- The channel, unit and die slot that an event's SOURCE gives (R497). -/
def TlEvent.channel (e : TlEvent) : Option Nat :=
  match e.srcKind with
  | 1 => some (dieChannel e.source)
  | 2 => some e.source
  | _ => none

def TlEvent.unit (e : TlEvent) : Option Nat := if e.srcKind = 3 then some e.source else none
def TlEvent.slot (e : TlEvent) : Option Nat := if e.srcKind = 1 then some (dieSlot e.source) else none

/-- The address of a list entry after adjustment; none where the event lacks what it needs (R496, R497). -/
def TlEvent.address (e : TlEvent) (entry : Nat) : Option Nat :=
  let up := if !(tbit entry 31) then some 0 else if tbit entry 30 then e.unit else e.channel
  let low := if !(tbit entry 29) then some 0 else e.slot
  match up, low with
  | some u, some l => if bits entry 0 8 + l < 256 then some (bits entry 0 24 + 256 * u + l) else none
  | _, _ => none

/-- Whether a snapshot may read an object: no DOMAIN, WO or banked object, none whose read has an effect (R498). -/
def Obj.snapshots (o : Obj) : Bool :=
  !(o.ty == .domain) && !(o.acc == .wo) && !o.banked && !o.pops && !(o.key == Obj.BUF_ALLOC.key) && !(o.key == Obj.INT_CLAIM.key)

/-- One entry taken: its ID, and its value if it could be read (R497). -/
def State.snapEntry (s : State) (e : TlEvent) (entry : Nat) : Nat × Option W64 :=
  match e.address entry with
  | none => (bits entry 0 24, none)
  | some a => match s.objAt a with
    | some (o, i, r) => (a, if o.snapshots then some (o.extend (s.readObj 0 o i r)) else none)
    | none => (a, none)

/-- The list of an event's class, and its entries up to the first unfilled one (R495). -/
def State.classList (s : State) (cls : Nat) : Nat := bits (s.objN Obj.TLOG_CLASS_LIST) (3 * cls) 3

def State.listEntries (s : State) (l : Nat) : List Nat :=
  ((List.range 8).map fun k => s.objN Obj.TLOG_LIST (8 * l + k)).takeWhile fun v => v != 0

/-! ### Records -/

/-- The record of an event, in its recording cycle; its snapshot values are those of `ends`, the state at the end of that cycle
(R491, R493). A record written after another of the same time is later than its raise cycle, for a cycle has one (DEDUCED, log
256). -/
def State.makeRecord (s ends : State) (e : TlEvent) : TlRecord :=
  let l := s.classList e.cls
  let got := (s.listEntries l).map (ends.snapEntry e)
  { lseq := s.tlog.nextSeq, time := e.time, pos := e.pos, kind := e.kind, source := e.source, list := l,
    delayed := decide (e.time < s.now) || s.tlog.lastAt == some s.now, lostBefore := s.tlog.lostBefore,
    firstArea := decide (s.tlog.first.length < s.tlog.size),
    snapFail := sumOf (got.zipIdx.map fun x => flag x.1.2.isNone x.2), count := got.length, detail := e.detail,
    ids := got.map fun x => x.1, values := got.map fun x => x.2.getD 0 }

/-- The 128 bytes of a record (R491). -/
def TlRecord.bytes (r : TlRecord) : List Byte :=
  let id (a : Nat) : List Byte := leBytes 2 (a / 256) ++ leBytes 1 (a % 256)
  leBytes 8 r.lseq ++ leBytes 8 r.time ++ leBytes 8 r.pos.pack ++ leBytes 2 r.kind ++ leBytes 2 r.source ++ leBytes 1 r.list
    ++ leBytes 1 (flag r.delayed 0 + flag r.lostBefore 1 + flag r.firstArea 2) ++ leBytes 1 r.snapFail ++ leBytes 1 r.count
    ++ leBytes 8 r.detail ++ padTo 24 (r.ids.map id).flatten ++ padTo 64 (r.values.map fun v => leBytes 8 v.toNat).flatten

/-- The CRC at the end of an image made good (R501, R502). -/
def sealImage (b : List Byte) : List Byte :=
  let body := b.take (b.length - 4)
  body ++ leBytes 4 (crc32c body)

/-- A record overwritten while an image is open and before any of its bytes was sent is sent as a HOLE (R502). -/
def Xfer.punch (x : Xfer) (lseq : Nat) : Xfer :=
  if x.key != Obj.TLOG_IMAGE.key || !x.upload then x
  else match (List.range x.recSeqs.length).find? fun j => x.recSeqs[j]? == some lseq with
    | some j =>
      if x.pos ≤ 32 + 128 * j then
        { x with bytes := sealImage (overlay x.bytes (32 + 128 * j) (leBytes 8 lseq ++ List.replicate 120 0)) }
      else x
    | none => x

/-- A record entered: into the first area until that is full, else into the last area, over its oldest (R499); the latch of
source 33 is set for its class (R503). -/
def State.placeRecord (s : State) (e : TlEvent) (r : TlRecord) : State :=
  let t : TlogSt := { s.tlog with nextSeq := s.tlog.nextSeq + 1, lostBefore := false, lastAt := some s.now }
  let s1 :=
    if r.firstArea then { s with tlog := { t with first := t.first ++ [r] } }
    else if t.last.length < 512 - t.size then { s with tlog := { t with last := t.last ++ [r] } }
    else
      let old := (t.last.head?.map fun x => x.lseq).getD 0
      { s with tlog := { t with last := t.last.drop 1 ++ [r], wrapped := true, overwritten := satAdd (2 ^ 64 - 1) t.overwritten 1 },
               xfers := s.xfers.map fun (x : Xfer) => x.punch old }
  if tbit (s1.objN Obj.TLOG_IRQ_CLASS) e.cls then s1.setLatch 33 else s1

/-- An event recorded: its snapshot shows the objects as they stand once its record is entered (R493). -/
def State.enterRecord (s : State) (e : TlEvent) : State := s.placeRecord e (s.makeRecord (s.placeRecord e (s.makeRecord s e)) e)

/-- TLOG_RECORD (R493). -/
def execTlogRecord (dt : Nat) (s : State) : Host.Outcome State Fault Refusal :=
  s.functional dt fun s =>
    match s.tlog.queue with
    | e :: rest => ({ s with tlog := { s.tlog with queue := rest } }).enterRecord e
    | [] => s

/-- TLOG_MARK written: an event from the processor, or from the host link as 8 (R494). -/
def writeTlogMark (path : DictPath) (s : State) (v : Nat) : State × Nat := (s.event 0x02 (pathArm path) v, rcOk)

/-- TLOG_MARK. -/
def execTlogMark (dt : Nat) (path : DictPath) (value : W64) (s : State) : Host.Outcome State Fault Refusal :=
  s.functional dt fun s => s.writeCmd path Obj.TLOG_MARK value (writeTlogMark path)

/-- The clear (R499): both areas empty, the first-area size in force, an open image upload abandoned, and a CLEARED record as
the first of the new first area. -/
def State.clearLog (s : State) : State :=
  let t := s.tlog
  let s1 := { s with
    xfers := s.xfers.filter fun x => !(x.key == Obj.TLOG_IMAGE.key && !x.timedOut)
    tlog := { t with first := [], last := [], wrapped := false, size := s.objN Obj.TLOG_FIRST_SIZE, lastAt := none } }
  s1.enterRecord { kind := 0x03, cls := 0, source := 0, detail := t.first.length + t.last.length, time := s.now, pos := s.pos }

/-- TLOG_CTRL written (R499, R504): CLEAR reads 0. -/
def writeTlogCtrl (s : State) (v : Nat) : State × Nat :=
  let s1 := s.setObjN Obj.TLOG_CTRL (setBits v 0 1 0)
  (if tbit v 0 then s1.clearLog else s1, rcOk)

/-- TLOG_CLEAR: TLOG_CTRL written with CLEAR = 1. -/
def execTlogClear (dt : Nat) (path : DictPath) (value : W64) (s : State) : Host.Outcome State Fault Refusal :=
  s.functional dt fun s => s.writeCmd path Obj.TLOG_CTRL (w64 (setBits value.toNat 0 1 1)) writeTlogCtrl

/-- A snapshot list entry written (R498); 0 is the unfilled entry. -/
def writeTlogList (i : Nat) (s : State) (v : Nat) : State × Nat :=
  if bits v 24 5 != 0 then s.outOfRange
  else if v = 0 then s.store Obj.TLOG_LIST i 0 0
  else match s.objAt (bits v 0 24) with
    | some (o, _, _) => if o.snapshots then s.store Obj.TLOG_LIST i 0 v else s.outOfRange
    | none => if tbit v 31 || tbit v 29 then s.store Obj.TLOG_LIST i 0 v else (s, rcNoObject)

/-! ### The image (R501) -/

/-- The records an image takes: those held from TLOG_FROM_SEQ on. -/
def State.imageRecords (s : State) : List TlRecord :=
  (s.tlog.first ++ s.tlog.last).filter fun r => s.objN Obj.TLOG_FROM_SEQ ≤ r.lseq

/-- The image of the log. -/
def State.tlogImage (s : State) : List Byte :=
  let rs := s.imageRecords
  let t := s.tlog
  let frozen := decide (0 < t.size ∧ t.size ≤ t.first.length)
  sealImage (leBytes 4 0x474F4C54 ++ leBytes 2 1 ++ leBytes 2 rs.length ++ leBytes 2 (rs.filter fun r => r.firstArea).length
    ++ leBytes 2 (flag frozen 0 + flag t.wrapped 1) ++ leBytes 4 0 ++ leBytes 8 t.nextSeq
    ++ leBytes 8 (s.objN Obj.TLOG_FROM_SEQ) ++ (rs.map TlRecord.bytes).flatten ++ leBytes 4 0)

/-- TLOG_IMAGE_READ: a whole upload of TLOG_IMAGE. -/
def execTlogImageRead (dt : Nat) (path : DictPath) (s : State) : Host.Outcome State Fault Refusal :=
  s.functional dt fun s => s.uploadCmd path Obj.TLOG_IMAGE fun a => (a, .inr a.tlogImage)

end Sys2Proof.Machine
end

