-- ==== Sys2Proof/Machine/Dict.lean ====
section
/-!
DEFINITION. Machine/Dict.lean: the rule of every object's write, joined by address (R467, R476, R540): queues (R101, R410),
units (R120, R150, R350, R352), placement (R219), calibration (R334), codes (R282, R286), the field network (R480, R490),
statistics (R489) and the objects of the other families; the contents of uploads and the end actions of downloads.
-/

namespace Sys2Proof.Machine

open Sys2Proof

/-! ### Queues and units -/

/-- QUEUE_CFG written (R101, R410): only ENABLE and NOTICE_Q of a queue that is enabled or not empty; at most 8 queues of class
RASTER; REQUESTER 0 to 15. -/
def writeQueueCfg (q : Nat) (s : State) (v : Nat) : State × Nat :=
  let was := s.queueCfg q
  let idle := !(s.queueEnabled q) && s.countCmds (fun c => c.queue == q) == 0
  let small := setBits (setBits was 4 1 0) 16 3 0 == setBits (setBits v 4 1 0) 16 3 0
  let raster := ((List.range 64).filter fun x => if x == q then bits v 0 2 == 0 else s.queueClass x == 0).length
  if !(idle || small) || 8 < raster || 16 ≤ bits v 19 5 then s.outOfRange else s.store Obj.QUEUE_CFG q 0 v

/-- Whether UNIT_CTRL may take ENABLE = 1 (R120). -/
def State.unitMayEnable (s : State) (u v : Nat) : Bool :=
  let cap := s.objN Obj.UNIT_CAPACITY 0 u
  let stripe := bits v 15 3
  let privileged := ((List.range 16).filter fun x => if x == u then tbit v 8 else s.unitPrivileged x).length
  cap != 0 && cap % granuleSectors (bits v 13 2) == 0 && s.objN Obj.UNIT_MAP_BASE 0 u != 0
    && stripe ≤ 4 && stripeWidth stripe ≤ s.build.channels && tbit (s.objN Obj.UNIT_CLASS_MASK 0 u) (bits v 18 3)
    && privileged ≤ 4

/-- Whether UNIT_CTRL may take ENABLE = 0: no command of the unit, no accepted data of it still to be programmed (R120). -/
def State.unitMayDisable (s : State) (u : Nat) : Bool :=
  s.countCmds (fun c => c.ofUnit u) == 0 && !(s.versions.any fun x => x.unit == u && x.moveFrom.isNone)

/-- UNIT_CTRL written (R120): only OWNER, RO and ENABLE change while ENABLE is 1; with ENABLE = 0 the unit's run-ahead data is
discarded (R251). GRANULE 3 is invalid. -/
def writeUnitCtrl (u : Nat) (s : State) (v : Nat) : State × Nat :=
  let was := s.unitCtrl u
  let still (x : Nat) : Nat := setBits (setBits (setBits x 0 1 0) 9 1 0) 21 3 0
  if bits v 13 2 = 3 then s.outOfRange
  else if tbit was 0 then
    if still was != still v then s.outOfRange
    else if tbit v 0 then s.store Obj.UNIT_CTRL 0 u v
    else if s.unitMayDisable u then ((s.cometDiscard fun h => h.unit == u).setObjN Obj.UNIT_CTRL v 0 u, rcOk)
    else s.outOfRange
  else if tbit v 0 && !(s.unitMayEnable u v) then s.outOfRange
  else s.store Obj.UNIT_CTRL 0 u v

/-- The unit objects that are writable only while ENABLE is 0 (R120). -/
def writeUnitField (o : Obj) (u : Nat) (s : State) (v : Nat) : State × Nat :=
  if s.unitEnabled u then s.outOfRange else s.store o 0 u v

/-- UNIT_WP_SHIFT written: while every bit of the unit's map is 0, and never after the seal (R350). -/
def writeWpShift (u : Nat) (s : State) (v : Nat) : State × Nat :=
  if s.prot.sealed || (List.range 16).any fun k => s.objN Obj.UNIT_WP_MAP k u != 0 then s.outOfRange
  else s.store Obj.UNIT_WP_SHIFT 0 u v

/-- UNIT_WP_MAP written: after the seal it can only set bits (R352). -/
def writeWpMap (k u : Nat) (s : State) (v : Nat) : State × Nat :=
  s.store Obj.UNIT_WP_MAP k u (if s.prot.sealed then v.lor (s.objN Obj.UNIT_WP_MAP k u) else v)

/-- LSW_HDR and LSW_PAY of a processor written (R122). -/
def writeLswHdr (p i : Nat) (s : State) (v : Nat) : State × Nat :=
  (s.updProc p fun x => { x with lswHdr := BitVec.ofNat 256 (setBits x.lswHdr.toNat (64 * i) 64 v) }, rcOk)

def writeLswPay (p i : Nat) (s : State) (v : Nat) : State × Nat :=
  (s.updProc p fun x => { x with lswPay := mapPut x.lswPay i (w64 v) }, rcOk)

/-- ORD_WRITE_SEQ written: only while no unit is enabled (R150). -/
def writeOrdSeq (s : State) (v : Nat) : State × Nat :=
  if !s.enabledUnits.isEmpty then s.outOfRange
  else (({ s with seqWritten := true }).setObjN Obj.ORD_WRITE_SEQ v, rcOk)

/-! ### Placement, codes and calibration -/

/-- An object that is writable while ENABLE in ALLOC_CTRL is 0 (R219, R282). -/
def writeBeforeAlloc (o : Obj) (s : State) (v : Nat) : State × Nat :=
  if tbit (s.objN Obj.ALLOC_CTRL) 0 then s.outOfRange else s.store o 0 0 v

/-- The two spare thresholds: SPARE_CRIT_PM is not above SPARE_LOW_PM (R219). -/
def writeSpare (o : Obj) (s : State) (v : Nat) : State × Nat :=
  let low := if o.key == Obj.SPARE_LOW_PM.key then v else s.objN Obj.SPARE_LOW_PM
  let crit := if o.key == Obj.SPARE_CRIT_PM.key then v else s.objN Obj.SPARE_CRIT_PM
  if low < crit then s.outOfRange else s.store o 0 0 v

/-- COMET_CTRL written: TRIGGER is 1 to 15 (R253). -/
def writeCometCtrl (s : State) (v : Nat) : State × Nat :=
  if bits v 4 4 = 0 then s.outOfRange else s.store Obj.COMET_CTRL 0 0 v

/-- LLR_MAG written: every magnitude is 1 to 31 (R286). -/
def writeLlr (c : Nat) (s : State) (v : Nat) : State × Nat :=
  if (List.range 7).all fun i => 1 ≤ bits v (8 * i) 8 && bits v (8 * i) 8 ≤ 31 then s.store Obj.LLR_MAG c 0 v else s.outOfRange

/-- A value of 0, or one in a range. -/
def writeZeroOr (o : Obj) (lo hi : Nat) (s : State) (v : Nat) : State × Nat :=
  if v = 0 || (lo ≤ v && v ≤ hi) then s.store o 0 0 v else s.outOfRange

/-- CAL_TABLE_BASE written: while every channel is DOWN or EMPTY (R334). -/
def writeCalBase (s : State) (v : Nat) : State × Nat :=
  if s.chans.any fun c => c.2.st != 0 && c.2.st != 6 then s.outOfRange else s.store Obj.CAL_TABLE_BASE 0 0 v

/-- A die number to show (R334, R404). -/
def writeDieSelect (o : Obj) (s : State) (v : Nat) : State × Nat :=
  if s.build.dies ≤ v then s.outOfRange else s.store o 0 0 v

/-- UCODE_LOAD_MASK written: no bit of a cluster the build lacks (R399). -/
def writeLoadMask (s : State) (v : Nat) : State × Nat :=
  if 2 ^ s.build.clusters ≤ v then s.outOfRange
  else s.store Obj.UCODE_LOAD_MASK 0 0 v

/-! ### The field network (R480, R490) -/

/-- The nominal and data rates in kbit/s (R480). -/
def nominalRates : List Nat := [125, 250, 500, 1000]
def dataRates : List Nat := [1000, 2000, 4000, 5000, 8000]

/-- Whether some prescaler from 1 to 32 divides FNCLK (in kHz) into a whole number of quanta within bounds (R480). -/
def quantaFit (clk rate lo hi : Nat) : Bool :=
  ((List.range 32).map fun i => i + 1).any fun p => clk % (p * rate) == 0 && lo ≤ clk / (p * rate) && clk / (p * rate) ≤ hi

/-- A rate written: while ENABLE is 0, one of the rates, the data rate not below the nominal one, with a prescaler for both
phases (R480). -/
def writeFnRate (o : Obj) (s : State) (v : Nat) : State × Nat :=
  let n := if o.key == Obj.FN_NOMINAL_KBPS.key then v else s.objN Obj.FN_NOMINAL_KBPS
  let d := if o.key == Obj.FN_DATA_KBPS.key then v else s.objN Obj.FN_DATA_KBPS
  let clk := if s.fnclkSel then 80000 else 40000
  if tbit (s.objN Obj.FN_CTRL) 0 || !(nominalRates.contains n) || !(dataRates.contains d) || d < n || !(quantaFit clk n 8 385)
    || !(quantaFit clk d 5 49) then s.outOfRange
  else s.store o 0 0 v

/-- FN_CTRL written: ENABLE from 0 to 1 takes the bus with a full allowance, from 1 to 0 abandons the field transfer and leaves
the bus (R490). -/
def writeFnCtrl (s : State) (v : Nat) : State × Nat :=
  let was := s.objN Obj.FN_CTRL
  let s1 := s.setObjN Obj.FN_CTRL v
  let fn := s1.fn
  if tbit v 0 && !(tbit was 0) then
    ({ s1 with fn := { fn with st := 1, tokens := bits (s.objN Obj.FN_RATE) 16 8, tokensAt := s.now, statusAt := s.now } }, rcOk)
  else if !(tbit v 0) && tbit was 0 then
    let s2 := s1.dropXfer 264
    ({ s2 with fn := { fn with st := 0 } }, rcOk)
  else if tbit v 2 && !(tbit was 2) then ({ s1 with fn := { fn with statusAt := s.now } }, rcOk)
  else (s1, rcOk)

/-- FN_NODE_ID written: while ENABLE is 0 (R490). -/
def writeFnNode (s : State) (v : Nat) : State × Nat :=
  if tbit (s.objN Obj.FN_CTRL) 0 then s.outOfRange else s.store Obj.FN_NODE_ID 0 0 v

/-- FN_SAMPLE_PM written: both sample points 500 to 900 (R490). -/
def writeFnSample (s : State) (v : Nat) : State × Nat :=
  let ok (x : Nat) : Bool := 500 ≤ x && x ≤ 900
  if ok (bits v 0 16) && ok (bits v 16 16) then s.store Obj.FN_SAMPLE_PM 0 0 v else s.outOfRange

/-- FN_RATE written: BURST 1 to 255, RATE 1 to 20,000 (R490). -/
def writeFnAllowance (s : State) (v : Nat) : State × Nat :=
  if bits v 16 8 = 0 || bits v 0 16 = 0 || 20000 < bits v 0 16 then s.outOfRange else s.store Obj.FN_RATE 0 0 v

/-- FN_FW_BEAT written: the beat is fresh (R485). -/
def writeFnBeat (s : State) (v : Nat) : State × Nat :=
  (({ s with fn := { s.fn with beatAt := some s.now } }).setObjN Obj.FN_FW_BEAT v, rcOk)

/-! ### Statistics (R489) -/

/-- The live values of every object that FREEZE holds. -/
def State.freezeValues (s : State) : NMap W64 :=
  (List.range 0x38).filterMap fun i => match s.objAt (0x300010 + i) with
    | some (o, j, r) => some (0x300010 + i, w64 (s.live 0 o j r))
    | none => none

/-- STAT_CTRL written: FREEZE = 1 latches the statistics, then clears the latency maxima (R489). -/
def writeStatCtrl (s : State) (v : Nat) : State × Nat :=
  if tbit v 0 then
    let s1 := ({ s with frozen := s.freezeValues }).setObjN Obj.STAT_FREEZE_TIME (s.now % 2 ^ 64)
    let s2 := (List.range 4).foldl (fun a c => a.setObjN Obj.STAT_LAT_MAX_C 0 c) s1
    (s2.setObjN Obj.STAT_CTRL v, rcOk)
  else (({ s with frozen := [] }).setObjN Obj.STAT_CTRL v, rcOk)

/-- STAT_FREEZE: STAT_CTRL written. -/
def execStatFreeze (dt : Nat) (path : DictPath) (value : W64) (s : State) : Host.Outcome State Fault Refusal :=
  s.functional dt fun s => s.writeCmd path Obj.STAT_CTRL value writeStatCtrl

/-! ### Every object's write -/

/-- Mode, protection, raster, queue, host-link and unit objects with a rule of their own. -/
def ruleA (path : DictPath) (o : Obj) (i r : Nat) : Option (State → Nat → State × Nat) :=
  let k := o.key
  let p := pathProc path
  if k == Obj.MODE_REQUEST.key then some writeModeRequest
  else if k == Obj.BURST_EXIT_FREE.key then some writeBurstExit
  else if k == Obj.PROT_LEVEL_RAISE.key then some writeLevel
  else if k == Obj.SEAL.key then some writeSeal
  else if k == Obj.BOOT_REGION.key then some writeBootRegion
  else if k == Obj.BW_CTRL.key then some writeBwCtrl
  else if k == Obj.SAN_CTRL.key then some writeSanCtrl
  else if k == Obj.DRAIN_LIMIT_NS.key then some (writeZeroOr o 1000 100000000)
  else if k == Obj.RAW_AREA.key then some writeRawArea
  else if k == Obj.RMP_KEY1.key then some (writeKey1 (pathArm path))
  else if k == Obj.RMP_KEY2.key then some (writeKey2 (pathArm path))
  else if k == Obj.NEW_TAKE.key then some writeNewTake
  else if k == Obj.VRAS_FRAME_NS.key || k == Obj.VRAS_LINES.key then some (writeVras o)
  else if k == Obj.QUEUE_CFG.key then some (writeQueueCfg i)
  else if k == Obj.LSW_HDR.key then some (writeLswHdr p i)
  else if k == Obj.LSW_PAY.key then some (writeLswPay p i)
  else if k == Obj.LSW_GO.key then some (writeLswGo p)
  else if k == Obj.ORD_WRITE_SEQ.key then some writeOrdSeq
  else if k == Obj.UNIT_CTRL.key then some (writeUnitCtrl r)
  else if k == Obj.UNIT_CAPACITY.key || k == Obj.UNIT_MAP_BASE.key || k == Obj.UNIT_CLASS_MASK.key
    || k == Obj.UNIT_WCACHE_LIMIT.key || k == Obj.UNIT_VALID_SECTORS.key then some (writeUnitField o r)
  else if k == Obj.UNIT_WP_SHIFT.key then some (writeWpShift r)
  else if k == Obj.UNIT_WP_MAP.key then some (writeWpMap i r)
  else none

/-- Placement, channel, code, calibration and microcode objects with a rule of their own. -/
def ruleB (o : Obj) (i r : Nat) : Option (State → Nat → State × Nat) :=
  let k := o.key
  if k == Obj.ALLOC_CTRL.key then some writeAllocCtrl
  else if k == Obj.LEDGER_BASE.key || k == Obj.SB_BASE.key || k == Obj.SB_COUNT.key || k == Obj.CLASS_CODE.key then
    some (writeBeforeAlloc o)
  else if k == Obj.SPARE_LOW_PM.key || k == Obj.SPARE_CRIT_PM.key then some (writeSpare o)
  else if k == Obj.MAP_UNDERLAY.key then some writeMapUnderlay
  else if k == Obj.BLOCK_RETIRE.key then some writeBlockRetire
  else if k == Obj.BLOCK_CLASS_SET.key then some writeBlockClassSet
  else if k == Obj.CH_CTRL.key then some (writeChCtrl r)
  else if k == Obj.CH_DIE_FAIL.key then some (writeChDieFail r)
  else if k == Obj.MB_CTRL.key then some (writeMbCtrl r)
  else if o.acc == .rws then some (writeMbField o r i)
  else if k == Obj.COMET_CTRL.key then some writeCometCtrl
  else if k == Obj.LLR_MAG.key then some (writeLlr i)
  else if k == Obj.CAL_PERIOD_S.key then some (writeZeroOr o 60 604800)
  else if k == Obj.CAL_TABLE_BASE.key then some writeCalBase
  else if k == Obj.CAL_DIE_SELECT.key || k == Obj.UCODE_DIE_SELECT.key then some (writeDieSelect o)
  else if k == Obj.UCODE_LOAD_MASK.key then some writeLoadMask
  else none

/-- Buffer, notice, copy-engine, interrupt, statistics, trouble-log and field-network objects with a rule of their own. -/
def ruleC (path : DictPath) (o : Obj) (i r : Nat) : Option (State → Nat → State × Nat) :=
  let k := o.key
  let p := pathProc path
  if k == Obj.POOL_CTRL.key then some writePoolCtrl
  else if k == Obj.POOL_BASE.key || k == Obj.POOL_COUNT.key || k == Obj.POOL_RING_BASE.key || k == Obj.POOL_DESC_BASE.key then
    some (writePoolSetup o i)
  else if k == Obj.BUF_FREE.key then some (writeBufFree p)
  else if k == Obj.BUF_FREE_ADDR.key then some (writeBufFreeAddr p)
  else if k == Obj.BUF_REF.key then some (writeBufRef p)
  else if k == Obj.BUF_QUOTA.key then some (writeQuota i)
  else if k == Obj.BUF_RESERVE.key then some (writeReserve i)
  else if k == Obj.NQ_CFG.key then some (writeNqCfg i)
  else if k == Obj.NQ_RING_BASE.key then some (writeNqRingBase i)
  else if k == Obj.CE_CTRL.key then some (writeCeCtrl r)
  else if k == Obj.CE_STATUS.key then some (writeCeStatus r)
  else if k == Obj.CE_SRC.key || k == Obj.CE_DST.key || k == Obj.CE_LEN.key || k == Obj.CE_LIST.key then some (writeCeField o r)
  else if k == Obj.INT_EOI.key then some (writeIntEoi p)
  else if k == Obj.INT_SEL.key then some (writeIntSel p)
  else if k == Obj.INT_CFG.key then some (writeIntCfg p)
  else if k == Obj.INT_SOFT.key then some writeIntSoft
  else if k == Obj.INT_COAL.key then some (writeIntCoal i)
  else if k == Obj.STAT_CTRL.key then some writeStatCtrl
  else if k == Obj.TLOG_CTRL.key then some writeTlogCtrl
  else if k == Obj.TLOG_MARK.key then some (writeTlogMark path)
  else if k == Obj.TLOG_LIST.key then some (writeTlogList i)
  else if k == Obj.FN_CTRL.key then some writeFnCtrl
  else if k == Obj.FN_NODE_ID.key then some writeFnNode
  else if k == Obj.FN_NOMINAL_KBPS.key || k == Obj.FN_DATA_KBPS.key then some (writeFnRate o)
  else if k == Obj.FN_SAMPLE_PM.key then some writeFnSample
  else if k == Obj.FN_RATE.key then some writeFnAllowance
  else if k == Obj.FN_FW_BEAT.key then some writeFnBeat
  else none

/-- The rule of an object's write: its own, or the plain store. -/
def writeRule (path : DictPath) (o : Obj) (i r : Nat) : State → Nat → State × Nat :=
  match ((ruleA path o i r).or (ruleB o i r)).or (ruleC path o i r) with
  | some f => f
  | none => fun s v => s.store o i r v

/-! ### DOMAIN objects -/

/-- The contents an upload takes when it opens (R476), or the code that refuses it. -/
def State.uploadContents (s : State) (o : Obj) (i : Nat) : State × Sum Nat (List Byte) :=
  let k := o.key
  let table (t : Option OrbitTable) : Sum Nat (List Byte) := match t with
    | some x => .inr x.image
    | none => .inl rcNoData
  if k == Obj.ORBIT_ACTIVE.key then (s, table s.orbit.active)
  else if k == Obj.ORBIT_STANDBY.key then (s, table s.orbit.standby)
  else if k == Obj.CODE_DESC.key then (s, .inr (s.codeDesc i))
  else if k == Obj.CAL_SNAPSHOT.key then s.takeSnapshot
  else if k == Obj.PSAVE_DATA.key then readPsave s
  else if k == Obj.UCODE_IMAGE.key then readImage s
  else if k == Obj.TLOG_IMAGE.key then (s, .inr s.tlogImage)
  else (s, .inl rcNoData)

/-- The end action of a download (R476). Whether the die took a parameter save is a free value here (log 8). -/
def State.endDownload (s : State) (o : Obj) (i : Nat) (bs : List Byte) : State × Nat :=
  let k := o.key
  if k == Obj.ORBIT_STANDBY.key then endOrbitStandby bs s
  else if k == Obj.CODE_DESC.key then endCodeDesc i bs s
  else if k == Obj.CAL_SNAPSHOT.key then endCalRestore bs s
  else if k == Obj.PSAVE_DATA.key then endPsave bs (tbit s.freePick 0) s.drawFree
  else if k == Obj.UCODE_IMAGE.key then s.endLoad bs
  else (s, rcRefused)

/-- What the first segment of a download does: a microcode load empties its banks, or is refused (R399). -/
def State.firstSegment (s : State) (o : Obj) : State × Nat :=
  if o.key == Obj.UCODE_IMAGE.key then s.beginLoad else (s, rcOk)

end Sys2Proof.Machine
end

