-- ==== Sys2Proof/Machine/Closa.lean ====
section
/-!
DEFINITION. Machine/Closa.lean: the meanings of the dictionary's commands: the configuration port (R468 to R471), Closa
services and their transfers (R472 to R478), and the field port (R479 to R485).
-/

namespace Sys2Proof.Machine

open Sys2Proof

/-! ### Transfers -/

/-- The transfer of a context. -/
def State.xfer? (s : State) (ctx : Nat) : Option Xfer := s.xfers.find? fun x => x.ctx == ctx

/-- A transfer opened on a context; a snapshot of the calibration tables holds back their switches (R331, R474). -/
def State.openXfer (s : State) (ctx key : Nat) (upload : Bool) (total : Nat) (bytes : List Byte) (recSeqs : List Nat) : State :=
  let s1 := s.dropXfer ctx
  { s1 with
    xfers := s1.xfers ++ [{ ctx, key, upload, total, bytes, lastAt := s1.now, recSeqs }]
    calSnapFrom := if upload && key == Obj.CAL_SNAPSHOT.key then some s1.now else s1.calSnapFrom }

def State.updXfer (s : State) (ctx : Nat) (f : Xfer → Xfer) : State :=
  { s with xfers := s.xfers.map fun x => if x.ctx == ctx then f x else x }

/-- An upload opened with its contents (R476); answers the code and the total. -/
def State.beginUpload (s : State) (ctx : Nat) (o : Obj) (i : Nat) : State × Nat × Nat :=
  let e := s.uploadContents o i
  match e.2 with
  | .inl c => (e.1, c, 0)
  | .inr bs =>
    let seqs := if o.key == Obj.TLOG_IMAGE.key then s.imageRecords.map fun r => r.lseq else []
    (e.1.openXfer ctx (o.at i) true bs.length bs seqs, rcOk, bs.length)

/-- Bytes of a download taken (R476); the last ones run the end action. -/
def State.takeSegment (s : State) (x : Xfer) (o : Obj) (i : Nat) (bs : List Byte) : State × Nat :=
  let f := if x.bytes.isEmpty then s.firstSegment o else (s, rcOk)
  let all := (x.bytes ++ bs).take x.total
  if f.2 != rcOk then (f.1.dropXfer x.ctx, f.2)
  else if x.total ≤ all.length then (f.1.dropXfer x.ctx).endDownload o i all
  else (f.1.updXfer x.ctx fun y => { y with bytes := all, lastAt := s.now }, rcOk)

/-- DICT_SEG_TIMEOUT: a transfer idle for DICT_SEG_TIMEOUT_NS is abandoned; what is kept answers its next frame with TIMEOUT
(R477). -/
def execDictSegTimeout (dt : Nat) (xfer : Nat) (s : State) : Host.Outcome State Fault Refusal :=
  s.functional dt fun s =>
    match s.xfer? xfer with
    | some x =>
      if x.timedOut || s.now < x.lastAt + s.objN Obj.DICT_SEG_TIMEOUT_NS then s
      else
        let s1 := s.dropXfer xfer
        ({ s1 with xfers := s1.xfers ++ [{ x with timedOut := true, bytes := [], lastResp := [] }] }).progress
    | none => s

/-! ### The configuration port (R468 to R471) -/

/-- A write in the slot of a DOMAIN object (R471); one that opens a download replaces the processor's own transfer there, a failed
one leaves it (R467; DEDUCED, log 116). -/
def State.cfgDomainWrite (s : State) (p : Nat) (o : Obj) (i off word : Nat) : State × Nat :=
  let key := o.at i
  let s0 := if (s.xfer? p).any fun x => x.key != key then s.dropXfer p else s
  let a := s0.attrCheck o true
  if off = 4 && word = 0xFFFFFFFF then (s0.dropXfer p, rcOk)
  else if a != rcOk then (s0, a)
  else if off = 4 then
    if s0.domainBusy key p then (s0, rcBusy)
    else if word = 0 || 16777216 < word then (s0, rcRange)
    else (s0.openXfer p key false word [] [], rcOk)
  else match s0.xfer? p with
    | none => (s0, rcSequence)
    | some x =>
      if x.timedOut then (s0.dropXfer p, rcTimeout)
      else if x.upload then (s0.dropXfer p, rcSequence)
      else s0.takeSegment x o i (leBytes 4 word)

/-- A read in the slot of a DOMAIN object (R471); an upload opened replaces the processor's own transfer there (log 116). -/
def State.cfgDomainRead (s : State) (p : Nat) (o : Obj) (i off : Nat) : State × Nat × Nat :=
  let key := o.at i
  let s0 := if (s.xfer? p).any fun x => x.key != key then s.dropXfer p else s
  let a := s0.attrCheck o false
  if a != rcOk then (s0, a, 0)
  else if off = 4 then
    let e := (s0.dropXfer p).beginUpload p o i
    if s0.domainBusy key p then (s0, rcBusy, 0)
    else if e.2.1 = rcOk then e
    else ((s0.uploadContents o i).1, e.2.1, 0)
  else match s0.xfer? p with
    | none => (s0, rcSequence, 0)
    | some x =>
      if x.timedOut then (s0.dropXfer p, rcTimeout, 0)
      else if !x.upload then (s0.dropXfer p, rcSequence, 0)
      else (s0.updXfer p fun y => { y with pos := x.pos + 4, lastAt := s0.now }, rcOk, leAt x.bytes x.pos 4)

/-- A write through the configuration port (R468 to R471, R540). -/
def State.cfgWrite (s : State) (p idx sub off word : Nat) : State :=
  let path := DictPath.cfg p
  let key := idx * 256 + sub
  let fail (a : State) (code : Nat) : State := a.account path key true code 0
  if s.portHeld path then s
  else
    let s1 :=
      if off != 0 && off != 4 then fail s rcAlign
      else match s.objAt key with
        | none => fail s rcNoObject
        | some (o, i, r) =>
          if o.ty == .domain then
            let e := s.cfgDomainWrite p o i off word
            e.1.account path key true e.2 0
          else if o.ty.bytes ≤ 4 then
            if off = 4 then fail s rcAlign else (s.writeVia path o i r 32 word (writeRule path o i r)).1
          else
            let a := if s.pathAllows path o i r true then s.attrCheck o true else rcPath
            if a != rcOk then fail s a
            else if off = 0 then fail (s.updProc p fun x => { x with wrLatch := BitVec.ofNat 32 word }) rcOk
            else if (s.proc p).prev != some (key, true, 0) then fail s rcSequence
            else (s.writeVia path o i r 64 ((s.proc p).wrLatch.toNat + word * 2 ^ 32) (writeRule path o i r)).1
    (s1.notePrev path key true off).progress

/-- A read with its effect, if it has one (R417, R450). -/
def readRule (p : Nat) (o : Obj) (i r : Nat) : State → State × Nat × Nat :=
  if o.key == Obj.BUF_ALLOC.key then readBufAlloc p i
  else if o.key == Obj.INT_CLAIM.key then readIntClaim p
  else fun s => (s, rcOk, (o.extend (s.readObj p o i r)).toNat)

/-- A read through the configuration port (R468 to R471, R540); a pop is NQ_POP's or NQ_TRY's own. -/
def State.cfgRead (s : State) (p idx sub off : Nat) : State :=
  let path := DictPath.cfg p
  let key := idx * 256 + sub
  let done (a : State) (code value : Nat) : State := a.account path key false code value
  if s.portHeld path then s
  else
    let s1 :=
      if off != 0 && off != 4 then done s rcAlign 0
      else match s.objAt key with
        | none => done s rcNoObject 0
        | some (o, i, r) =>
          if o.ty == .domain then
            let e := s.cfgDomainRead p o i off
            done e.1 e.2.1 e.2.2
          else
            let a := if s.pathAllows path o i r false then s.attrCheck o false else rcPath
            if a != rcOk then done s a 0
            else if off = 0 then
              let e := readRule p o i r s
              done (e.1.updProc p fun x => { x with rdLatch := w64 e.2.2 }) e.2.1 (e.2.2 % 2 ^ 32)
            else if o.ty.bytes ≤ 4 then done s rcOk 0
            else if o.pops then done s rcOk (bits (s.proc p).nqLatch.toNat 32 32)
            else if (s.proc p).prev == some (key, false, 0) then done s rcOk ((s.proc p).rdLatch.toNat / 2 ^ 32)
            else done s rcOk ((o.extend (s.readObj p o i r)).toNat / 2 ^ 32)
    (s1.notePrev path key false off).progress

/-- CFG_DOWNLOAD_OPEN: a length written at +4 of a DOMAIN slot. -/
def execCfgDownloadOpen (dt : Nat) (proc index sub : Nat) (length : W32) (s : State) : Host.Outcome State Fault Refusal :=
  s.functional dt fun s => s.cfgWrite proc index sub 4 length.toNat

/-- CFG_DOWNLOAD_APPEND: four bytes written at +0. -/
def execCfgDownloadAppend (dt : Nat) (proc index sub : Nat) (word : W32) (s : State) : Host.Outcome State Fault Refusal :=
  s.functional dt fun s => s.cfgWrite proc index sub 0 word.toNat

/-- CFG_ABANDON: 0xFFFF_FFFF written at +4. -/
def execCfgAbandon (dt : Nat) (proc index sub : Nat) (s : State) : Host.Outcome State Fault Refusal :=
  s.functional dt fun s => s.cfgWrite proc index sub 4 0xFFFFFFFF

/-- CFG_UPLOAD_OPEN: a read at +4 of a DOMAIN slot. -/
def execCfgUploadOpen (dt : Nat) (proc index sub : Nat) (s : State) : Host.Outcome State Fault Refusal :=
  s.functional dt fun s => s.cfgRead proc index sub 4

/-- CFG_UPLOAD_READ: the next four bytes, read at +0. -/
def execCfgUploadRead (dt : Nat) (proc index sub : Nat) (s : State) : Host.Outcome State Fault Refusal :=
  s.functional dt fun s => s.cfgRead proc index sub 0

/-- CFG_WRITE_LATCH: the low half of an 8-byte object, written at +0 (R470). -/
def execCfgWriteLatch (dt : Nat) (proc index sub : Nat) (word : W32) (s : State) : Host.Outcome State Fault Refusal :=
  s.functional dt fun s => s.cfgWrite proc index sub 0 word.toNat

/-- OBJECT_WRITE: a write of any object through the configuration port, checked in the order of R540. -/
def execObjectWrite (dt : Nat) (proc index sub off : Nat) (word : W32) (s : State) : Host.Outcome State Fault Refusal :=
  s.functional dt fun s => s.cfgWrite proc index sub off word.toNat

/-! ### Closa services (R472 to R478) -/

/-- The fields of a Closa request (R472). -/
structure ClosaReq where
  svc : Nat
  idx : Nat
  sub : Nat
  seq : Nat
  tag : Nat
  dlen : Nat
  data : List Byte
  deriving DecidableEq, Repr

/-- A request as its frame spells it. -/
def closaParse (f : List Byte) : ClosaReq :=
  { svc := leAt f 0 1, idx := leAt f 2 2, sub := leAt f 4 1, seq := leAt f 5 1, tag := leAt f 6 1, dlen := leAt f 7 1,
    data := (f.drop 8).take (leAt f 7 1) }

/-- What a service did: the state, its result code, its data, and a whole response where it only repeats one (R475). -/
structure ClosaOut where
  s : State
  code : Nat
  data : List Byte := []
  again : Option (List Byte) := none
  deriving DecidableEq, Repr

/-- A response (R472). -/
def ClosaReq.reply (q : ClosaReq) (code : Nat) (data : List Byte) : List Byte :=
  leBytes 1 (setBits q.svc 7 1 1) ++ leBytes 1 code ++ leBytes 2 q.idx ++ leBytes 1 q.sub ++ leBytes 1 q.seq ++ leBytes 1 q.tag
    ++ leBytes 1 data.length ++ data

/-- Whether a context can take a BEGIN: at most four host-link transfers, one each on the others (R474). -/
def State.ctxFree (s : State) (path : DictPath) (ctx : Nat) : Bool :=
  let live (x : Xfer) : Bool := !x.timedOut
  let used := (s.xfers.filter fun x => live x && decide (8 ≤ x.ctx) && decide (x.ctx < 264)).length
  !(s.xfers.any fun x => live x && x.ctx == ctx) && !(path == .mreq && decide (4 ≤ used))

/-- The SEQ after one (R475). -/
def nextSeg (n : Nat) : Nat := if n = 255 then 1 else n + 1

/-- A segment frame (R475): out of order or of no open transfer, a repeat of the last one, or the next, which `f` moves. -/
def State.closaSegment (s : State) (ctx key : Nat) (q : ClosaReq) (upload : Bool) (f : Xfer → ClosaOut) : ClosaOut :=
  match s.xfer? ctx with
  | none => { s, code := rcSequence }
  | some x =>
    if x.timedOut then { s := s.dropXfer ctx, code := rcTimeout }
    else if (q.dlen == 0) != upload then { s := s.dropXfer ctx, code := rcLength }
    else if x.key != key || x.upload != upload then { s := s.dropXfer ctx, code := rcSequence }
    else if q.seq == x.seq && x.seq != 0 then
      { s := s.updXfer ctx fun y => { y with lastAt := s.now }, code := rcOk, again := some x.lastResp }
    else if q.seq != nextSeg x.seq then { s := s.dropXfer ctx, code := rcSequence }
    else
      let r := f x
      { r with s := r.s.updXfer ctx fun y => { y with seq := q.seq, lastAt := s.now, lastResp := q.reply r.code r.data } }

/-- UPLOAD_SEG: at most the path's limit; after the last byte an empty segment ends the transfer (R473, R475). -/
def State.closaUploadSeg (s : State) (ctx lim : Nat) (x : Xfer) : ClosaOut :=
  let part := (x.bytes.drop x.pos).take lim
  if part.isEmpty then { s := s.dropXfer ctx, code := rcOk }
  else { s := s.updXfer ctx fun y => { y with pos := x.pos + part.length }, code := rcOk, data := part }

/-- DOWNLOAD_SEG: a segment past the declared total abandons the transfer (R475, R476). -/
def State.closaDownloadSeg (s : State) (ctx : Nat) (x : Xfer) (o : Obj) (i : Nat) (bs : List Byte) : ClosaOut :=
  if x.total < x.bytes.length + bs.length then { s := s.dropXfer ctx, code := rcLength }
  else
    let e := s.takeSegment x o i bs
    { s := e.1, code := e.2 }

/-- An expedited READ (R473). -/
def State.closaRead (s : State) (o : Obj) (i r : Nat) (q : ClosaReq) : ClosaOut :=
  if q.dlen != 0 then { s, code := rcLength }
  else { s, code := rcOk, data := leBytes o.ty.bytes (s.readObj 0 o i r) }

/-- An expedited WRITE of exactly the type's size, after checks 4 and 5 (R473, R540). -/
def State.closaWrite (s : State) (path : DictPath) (o : Obj) (i r : Nat) (q : ClosaReq) : ClosaOut :=
  let w := 8 * o.ty.bytes
  let v := leNat q.data
  if q.dlen != o.ty.bytes then { s, code := rcLength }
  else
    let ok := o.fits w v && o.inRange (o.keep v)
    let key := o.key == Obj.RMP_KEY1.key || o.key == Obj.RMP_KEY2.key
    let e := if ok then writeRule path o i r s (o.keep v) else if key then writeRule path o i r s 65536 else s.outOfRange
    { s := e.1, code := e.2 }

/-- A service on an object that passed checks 1 to 5. -/
def State.closaDo (s : State) (path : DictPath) (ctx lim : Nat) (o : Obj) (i r : Nat) (q : ClosaReq) : ClosaOut :=
  let key := o.at i r
  let free (a : State) : Bool := a.ctxFree path ctx && !(a.domainBusy key ctx)
  match q.svc with
  | 1 => s.closaRead o i r q
  | 2 => s.closaWrite path o i r q
  | 3 =>
    if q.dlen != 0 then { s, code := rcLength }
    else if !(free s) then { s, code := rcBusy }
    else
      let e := s.beginUpload ctx o i
      { s := e.1, code := e.2.1, data := if e.2.1 = rcOk then leBytes 4 e.2.2 else [] }
  | 4 => s.closaSegment ctx key q true (s.closaUploadSeg ctx lim)
  | 5 =>
    let total := leNat q.data
    if q.dlen != 4 then { s, code := rcLength }
    else if !(free s) then { s, code := rcBusy }
    else if total = 0 || 16777216 < total then { s, code := rcRange }
    else { s := s.openXfer ctx key false total [] [], code := rcOk }
  | 6 => s.closaSegment ctx key q false fun x => s.closaDownloadSeg ctx x o i q.data
  | _ => { s := s.dropXfer ctx, code := if (s.xfer? ctx).any fun x => x.timedOut then rcTimeout else rcOk }

/-- Whether a service writes. -/
def closaWrites (svc : Nat) : Bool := svc == 2 || svc == 5 || svc == 6

/-- A request checked in the order of R540 and served. -/
def State.closaCheck (s : State) (path : DictPath) (ctx lim : Nat) (wellFormed : Bool) (q : ClosaReq) : ClosaOut :=
  if !wellFormed || q.svc = 0 || 7 < q.svc || lim < q.dlen || q.data.length < q.dlen then { s, code := rcService }
  else match s.objAt (q.idx * 256 + q.sub) with
    | none => { s, code := rcNoObject }
    | some (o, i, r) =>
      let a := s.attrCheck o (closaWrites q.svc)
      if (o.ty == .domain) == decide (q.svc ≤ 2) then { s, code := rcService }
      else if q.svc = 7 then s.closaDo path ctx lim o i r q
      else if !(s.pathAllows path o i r (closaWrites q.svc)) then { s, code := rcPath }
      else if a != rcOk then { s, code := a }
      else s.closaDo path ctx lim o i r q

/-- A request served and recorded, with its response. -/
def State.closaServe (s : State) (path : DictPath) (ctx lim : Nat) (wellFormed : Bool) (q : ClosaReq) : ClosaOut :=
  let r := s.closaCheck path ctx lim wellFormed q
  let s1 := r.s.account path (q.idx * 256 + q.sub) (closaWrites q.svc) r.code 0
  { r with s := s1, data := r.again.getD (q.reply r.code r.data) }

/-- A frame whose SERVICE is listed, as the frame of service `k`; another SERVICE stays, and is answered as unknown. -/
def asService (k : Nat) (f : List Byte) : List Byte :=
  if 1 ≤ leAt f 0 1 ∧ leAt f 0 1 ≤ 7 then overlay f 0 (leBytes 1 k) else f

/-- An MREQ taken: its frame served, the MRSP queued, its credit returned (R84, R478). -/
def State.takeMreq (s : State) (k : Nat) (p : Packet) : State :=
  let plen := hbits p.hdr 16 16
  let q := closaParse (asService k ((leBytes 32 p.hdr.toNat).drop 8 ++ padTo plen p.payload))
  let r := s.closaServe .mreq (8 + q.tag) 208 (plen == q.dlen - 16) q
  let frame := r.data ++ List.replicate (24 - r.data.length) 0
  ((r.s.setLink fun l => { l with out0 := l.out0 ++ [.mrsp (hbits p.hdr 32 16) frame] }).returnCredit 0 p.beats).progress

/-- MREQs at work: taken, and their answers not yet sent (R84). -/
def State.mreqsAtWork (s : State) : Nat := (s.link.out0.filter fun p => p.type == 7).length

/-- An MREQ that passed its checks: taken while fewer than 16 are at work and none waits, else it waits in the receive buffer
with its credit held (R84). -/
def State.mreqIn (s : State) (k : Nat) (p : Packet) : State :=
  if s.link.mreqs.isEmpty && s.mreqsAtWork < 16 then s.takeMreq k p
  else s.setLink fun l => { l with mreqs := l.mreqs ++ [(k, p)] }

/-! ### The field port (R479 to R485) -/

/-- The allowance brought up to date: RATE tokens a second, up to BURST (R483). -/
def State.fnRefill (s : State) : State :=
  let rate := bits (s.objN Obj.FN_RATE) 0 16
  let burst := bits (s.objN Obj.FN_RATE) 16 8
  let n := (s.now - s.fn.tokensAt) * rate / 1000000000
  if burst ≤ s.fn.tokens + n then { s with fn := { s.fn with tokens := burst, tokensAt := s.now } }
  else { s with fn := { s.fn with tokens := s.fn.tokens + n, tokensAt := s.fn.tokensAt + 1000000000 * n / max 1 rate } }

/-- The smallest CAN FD data length for `n` bytes (R481). -/
def canLen (n : Nat) : Nat := ([8, 12, 16, 20, 24, 32, 48, 64].find? fun l => n ≤ l).getD 64

/-- A frame sent. -/
def State.fnSend (s : State) (id : Nat) (data : List Byte) : State :=
  ({ s with fn := { s.fn with tx := some (id, padTo (canLen data.length) data) } }).bump Obj.FN_TX_FRAMES

/-- A broadcast request: only a WRITE of an FNW object, well formed, is taken, by no answer (R482). -/
def State.fnBroadcast (s : State) (q : ClosaReq) : State :=
  let fnw := (s.objAt (q.idx * 256 + q.sub)).any fun x => x.1.fnw
  if q.svc = 2 && fnw && q.dlen ≤ 56 && q.dlen ≤ q.data.length then (s.closaServe .fn 264 56 true q).s else s.bump Obj.FN_MALFORMED

/-- A request to this node, answered (R481, R490). -/
def State.fnAnswer (s : State) (own : Nat) (q : ClosaReq) : State :=
  let r := s.closaServe .fn 264 56 true q
  let s1 := if r.code = rcService then r.s.bump Obj.FN_MALFORMED else r.s
  s1.fnSend (5 * 128 + own) r.data

/-- A frame received by the field port (R479, R481 to R483). -/
def State.takeFn (s : State) (k id : Nat) (kind : CanKind) (data : List Byte) : State :=
  let own := s.objN Obj.FN_NODE_ID
  let node := id % 128
  let q := closaParse (asService k data)
  if s.fn.st = 0 || 3 ≤ s.fn.st then s
  else if kind != .fd then s.bump Obj.FN_IGNORED
  else if id / 128 != 4 || !(node == 0 || node == own) then s
  else
    let s1 := (s.bump Obj.FN_RX_FRAMES).fnRefill
    if s1.fn.tokens = 0 then s1.bump Obj.FN_RATE_DROPPED
    else
      let s2 := { s1 with fn := { s1.fn with tokens := s1.fn.tokens - 1 } }
      (if node = 0 then s2.fnBroadcast q else s2.fnAnswer own q).progress

/-- A Closa request of a service, on the path it comes by. -/
def State.closaIn (s : State) (k : Nat) (src : ClosaSrc) : State :=
  match src with
  | .mreq pkt => s.arrive 6 0 none pkt fun a p => a.mreqIn k p
  | .fn id kind data => s.takeFn k id kind data

/-- CLOSA_READ. -/
def execClosaRead (dt : Nat) (src : ClosaSrc) (s : State) : Host.Outcome State Fault Refusal :=
  s.functional dt fun s => s.closaIn 1 src

/-- CLOSA_WRITE. -/
def execClosaWrite (dt : Nat) (src : ClosaSrc) (s : State) : Host.Outcome State Fault Refusal :=
  s.functional dt fun s => s.closaIn 2 src

/-- UPLOAD_BEGIN. -/
def execUploadBegin (dt : Nat) (src : ClosaSrc) (s : State) : Host.Outcome State Fault Refusal :=
  s.functional dt fun s => s.closaIn 3 src

/-- UPLOAD_SEG. -/
def execUploadSeg (dt : Nat) (src : ClosaSrc) (s : State) : Host.Outcome State Fault Refusal :=
  s.functional dt fun s => s.closaIn 4 src

/-- DOWNLOAD_BEGIN. -/
def execDownloadBegin (dt : Nat) (src : ClosaSrc) (s : State) : Host.Outcome State Fault Refusal :=
  s.functional dt fun s => s.closaIn 5 src

/-- DOWNLOAD_SEG. -/
def execDownloadSeg (dt : Nat) (src : ClosaSrc) (s : State) : Host.Outcome State Fault Refusal :=
  s.functional dt fun s => s.closaIn 6 src

/-- ABANDON. -/
def execAbandon (dt : Nat) (src : ClosaSrc) (s : State) : Host.Outcome State Fault Refusal :=
  s.functional dt fun s => s.closaIn 7 src

/-! ### STATUS frames and bus-off -/

/-- FLAGS of a STATUS frame (R485). -/
def State.fnFlags (s : State) : Nat :=
  let states := s.enabledUnits.map s.unitState
  let failed := (s.dies.map fun d => d.1).any fun d => s.dieState d == 3
  let stale := s.objN Obj.FN_FW_BEAT != 0 &&
    (s.fn.beatAt).any fun t => t + 1000000 * s.objN Obj.FN_BEAT_STALE_MS ≤ s.now
  flag s.streamOpen 0 + flag s.prot.draining 1 + flag (!s.raster.present) 2 + flag (states.any fun x => x == 2 || x == 3) 3
    + flag (states.any fun x => x == 4 || x == 5) 4 + flag failed 5 + flag stale 6 + flag s.prot.sealed 7

/-- The 32 bytes of a STATUS frame (R485). -/
def State.fnStatus (s : State) : List Byte :=
  let u := s.objN Obj.FN_STATUS_UNIT
  let failed := ((s.dies.map fun d => d.1).filter fun d => s.dieState d == 3).length
  leBytes 1 1 ++ leBytes 1 s.modes.current.num ++ leBytes 1 s.prot.level ++ leBytes 1 s.fnFlags
    ++ leBytes 1 (unsignedOf 8 s.tempMax) ++ leBytes 1 (unsignedOf 8 s.tempMin) ++ leBytes 2 failed ++ leBytes 8 s.pos.pack
    ++ leBytes 4 (s.unitFreeMib u) ++ leBytes 1 u ++ leBytes 1 (s.unitState u) ++ leBytes 2 0
    ++ leBytes 4 (s.objN Obj.FN_FW_BEAT) ++ leBytes 4 s.fn.statusCount

/-- FN_STATUS_FRAME: sent every FN_STATUS_MS while STATUS_EN is 1 and the node has an ID (R485). -/
def execFnStatusFrame (dt : Nat) (s : State) : Host.Outcome State Fault Refusal :=
  s.functional dt fun s =>
    let id := s.objN Obj.FN_NODE_ID
    if s.fn.st = 0 || 3 ≤ s.fn.st || !(tbit (s.objN Obj.FN_CTRL) 2) || id = 0
      || s.now < s.fn.statusAt + 1000000 * s.objN Obj.FN_STATUS_MS then s
    else
      let s1 := s.fnSend (7 * 128 + id) s.fnStatus
      { s1 with fn := { s1.fn with statusCount := (s1.fn.statusCount + 1) % 2 ^ 32, statusAt := s1.now } }

/-- FN_BUSOFF: the port enters bus-off and abandons its transfer (R477, R484). -/
def execFnBusoff (dt : Nat) (s : State) : Host.Outcome State Fault Refusal :=
  s.functional dt fun s =>
    if s.fn.st = 0 || s.fn.st = 3 then s
    else
      let s1 := (s.bump Obj.FN_BUSOFF).dropXfer 264
      ({ s1 with fn := { s1.fn with st := 3, busoffAt := s1.now } }).progress

/-- FN_BUSOFF_RECOVER: after FN_BUSOFF_HOLD_MS the port runs the recovery sequence and is error-active again (R484). -/
def execFnBusoffRecover (dt : Nat) (s : State) : Host.Outcome State Fault Refusal :=
  s.functional dt fun s =>
    if s.fn.st = 3 && s.fn.busoffAt + 1000000 * s.objN Obj.FN_BUSOFF_HOLD_MS ≤ s.now then
      { s with fn := { s.fn with st := 1 } }
    else s

end Sys2Proof.Machine
end

