-- ==== Sys2Proof/Machine/LinkSend.lean ====
section
/-!
DEFINITION. Machine/LinkSend.lean: the sending of packets on the host link (R74 to R76) and what follows from it.
-/

namespace Sys2Proof.Machine

open Sys2Proof

/-- The oldest MREQ that waits is taken once fewer than 16 are at work (R84). -/
def State.nextMreq (s : State) : State :=
  match s.link.mreqs with
  | (k, p) :: rest => if s.mreqsAtWork < 16 then (s.setLink fun l => { l with mreqs := rest }).takeMreq k p else s
  | [] => s

/-- What sending a packet settles: an XRDY starts its window's time (R93); DATA frees what it held and may complete its READ
(R110, R302); with its RESP a command ends (R80, R133); an MRSP makes room for an MREQ that waits (R84). -/
def State.sent (s : State) (p : OutPkt) : State :=
  match p with
  | .xrdy _ _ id _ _ => s.setLink fun l => { l with windows := l.windows.map fun w =>
      if w.id == id then { w with sentAt := some s.now, timeout := s.objN Obj.XRDY_TIMEOUT_NS } else w }
  | .data st _ _ off _ bs =>
    match s.cmd? st with
    | some c => (if c.opcode == 0x22 then s.rawLeft st bs.length
        else s.dataLeft st ((off + bs.length) / 4096) (bs.length / 4096)).progress
    | none => s
  | .resp _ _ _ _ _ st =>
    if st = 0 then s else ({ s with cmds := s.cmds.filter fun c => c.stamp != st }.deliver).progress
  | .mrsp _ _ => s.nextMreq
  | _ => s

/-- PACKET_SEND: the next packet that credit allows leaves (R74, R76). -/
def execPacketSend (dt : Nat) (s : State) : Host.Outcome State Fault Refusal :=
  s.functional dt fun s =>
    match s.nextPacket with
    | none => s
    | some p =>
      let n := s.link.beats p
      let isData := match p with
        | .data _ _ _ _ _ _ => true
        | _ => false
      let s1 := s.setLink fun l =>
        if isData then
          { l with out1 := l.out1.erase p, tx1 := l.tx1 - n, vc0Run := 0, stall1 := false, short1 := none, hlo := p.onHlo l.crcActive }
        else
          { l with out0 := l.out0.erase p, tx0 := if p.consumes then l.tx0 - 1 else l.tx0
                   vc0Run := if l.out1.isEmpty then 0 else l.vc0Run + 1
                   stall0 := l.stall0 && !p.consumes, short0 := if p.consumes then none else l.short0, hlo := p.onHlo l.crcActive
                   freeAt := if p.consumes then l.freeAt else some s.now }
      s1.sent p

end Sys2Proof.Machine
end

