-- ==== Sys2Proof/Machine/Reset.lean ====
section
/-!
DEFINITION. Machine/Reset.lean: the meanings of PORST, BLKRST, INIT_DONE, MBIST_START and MBIST_DONE (R500, R509, R510,
R523 to R528).
-/

namespace Sys2Proof.Machine

open Sys2Proof

/-- Memory-port writes whose beats were all put when a reset falls: the memory system completes or drops each (R525), which of
the two is free (log 255). The others are dropped. -/
def State.portWrites (s : State) : List MpReq :=
  ((s.ports.map fun p => p.2.out).flatten).filter fun r => r.write && r.sent == r.beats

def State.memAtReset (s : State) : List Host.Cell :=
  s.portWrites.zipIdx.foldl (fun m x => if tbit (Config.freePick (s.freeN + x.2)) 0 then x.1.apply m else m) s.mem

/-- The state while a reset is 0: everything of the block cleared (R500, R523); the DRAM behind the ports, the queue, the build,
the levels of input pins and the count of free values are not the block's to clear (log 7, log 255). -/
def State.porHeld (s : State) : State :=
  { State.reset with
    pending := s.pending, build := s.build, mem := s.memAtReset, freeN := s.freeN + s.portWrites.length
    phase := .held, resetPor := true, porLow := s.porLow, blkLow := s.blkLow
    trefKhz := s.trefKhz, fnclkSel := s.fnclkSel, testMode := s.testMode
    lostAtReset := if s.phase == .held then s.lostAtReset else s.tlog.queue.length
    raster := { ({} : RasterSt) with validIn := s.raster.validIn }, ints := { ({} : IntSt) with sleep := s.ints.sleep } }

/-- Whether a TREF strap lets the block leave reset (R509). -/
def trefOk (khz : Nat) : Bool := 25000 ≤ khz && khz ≤ 200000

/-- PORST (R509, R523 to R526): asserted, the block is held cleared; released, the straps are sampled and SRAM is cleared,
unless TREF_KHZ, or a BLKRST_N still 0, holds the block in reset. -/
def execPorst (_dt : Nat) (asserted : Bool) (trefKhz : Nat) (fnclkSel testMode : Bool) (s : State) :
    Host.Outcome State Fault Refusal :=
  if asserted then .next (if s.porLow then s else { s.porHeld with porLow := true })
  else if s.porLow then
    .next { s with porLow := false, trefKhz := trefKhz, fnclkSel := fnclkSel, testMode := testMode, tref := 0,
                   phase := if trefOk trefKhz && !s.blkLow then .clearing else .held }
  else .next s

/-- What BLKRST_N leaves of the trouble log: records and slot pointers, the log sequence, F in force, the lost and
overwritten counts (R500). -/
def TlogSt.warm (t : TlogSt) : TlogSt := { t with queue := [], raised := [] }

/-- The state while BLKRST_N is 0 (R500, R527): as after PORST_N, with the trouble log and TLOG_FIRST_SIZE kept. -/
def State.blkHeld (s : State) : State :=
  ({ s.porHeld with resetPor := false, tlog := s.tlog.warm } : State).setObj Obj.TLOG_FIRST_SIZE (s.obj Obj.TLOG_FIRST_SIZE)

/-- BLKRST (R523, R527): without further effect while the block is held in reset. -/
def execBlkrst (_dt : Nat) (asserted : Bool) (s : State) : Host.Outcome State Fault Refusal :=
  if asserted then .next { (if s.phase == .held then s else s.blkHeld) with blkLow := true }
  else if s.phase == .held && s.blkLow && !s.porLow && trefOk s.trefKhz then
    .next { s with blkLow := false, phase := .clearing, tref := 0 }
  else .next { s with blkLow := false }

/-- Initialization ends: every PHY leaves reset, the virtual raster opens (0, 0, 0), the RESET record is raised and the
boot reader starts (R47, R500, R524, R526). -/
def State.endInit (s : State) : State :=
  let r : RasterSt := { boundaryAt := s.now, absentAt := s.now, vPeriod := s.objN Obj.VRAS_FRAME_NS, vLines := s.objN Obj.VRAS_LINES }
  ({ s with phase := .scanning, raster := { r with validIn := s.raster.validIn }
            chans := (List.range s.build.channels).map fun n => (n, { s.chan n with phyRstN := true }) } : State).event
    0x01 0 (flag s.resetPor 0 + s.lostAtReset * 2 ^ 32)

/-- INIT_DONE (R526). -/
def execInitDone (dt : Nat) (s : State) : Host.Outcome State Fault Refusal :=
  if s.testMode then .fault .testModeUndefined
  else if s.phase == .clearing then .next ((s.elapse dt).settle (s.elapse dt).endInit)
  else s.functional dt fun x => x

/-- MBIST_START (R510): ignored with TEST_MODE 0; in test mode the self-test of every SRAM starts, and what the SRAMs held is
lost. -/
def execMbistStart (_dt : Nat) (s : State) : Host.Outcome State Fault Refusal :=
  if s.testMode then
    .next { s.porHeld with phase := s.phase, resetPor := s.resetPor, lostAtReset := s.lostAtReset, tref := s.tref
                           mbistBusy := true, mbistDone := false, mbistFail := false }
  else .next s

/-- MBIST_DONE (R510): the self-test that runs ends. -/
def execMbistDone (_dt : Nat) (failed : Bool) (s : State) : Host.Outcome State Fault Refusal :=
  if s.testMode && s.mbistBusy then .next { s with mbistBusy := false, mbistDone := true, mbistFail := failed }
  else .next s

end Sys2Proof.Machine
end

