-- ==== Sys2Proof/Machine/Dispatch.lean ====
section
/-!
DEFINITION. Machine/Dispatch.lean: one arm for each command, a direct call of its meaning.
-/

namespace Sys2Proof.Machine

open Sys2Proof

/-- The effect of one command on everything but the queue. -/
def exec (i : Instr) (s : State) : Host.Outcome State Fault Refusal :=
  match i with
  | .porst dt asserted trefKhz fnclkSel testMode => Sys2Proof.Machine.execPorst dt asserted trefKhz fnclkSel testMode s
  | .blkrst dt asserted => Sys2Proof.Machine.execBlkrst dt asserted s
  | .initDone dt => Sys2Proof.Machine.execInitDone dt s
  | .protReady dt sys0 sys1 spent pages => Sys2Proof.Machine.execProtReady dt sys0 sys1 spent pages s
  | .mbistStart dt => Sys2Proof.Machine.execMbistStart dt s
  | .mode dt path hdr => Sys2Proof.Machine.execMode dt path hdr s
  | .park dt path hdr => Sys2Proof.Machine.execPark dt path hdr s
  | .modeRequest dt path value => Sys2Proof.Machine.execModeRequest dt path value s
  | .sanitizeEnter dt => Sys2Proof.Machine.execSanitizeEnter dt s
  | .parkEntryDone dt => Sys2Proof.Machine.execParkEntryDone dt s
  | .parkWake dt => Sys2Proof.Machine.execParkWake dt s
  | .frameBoundary dt frameNo => Sys2Proof.Machine.execFrameBoundary dt frameNo s
  | .lineBoundary dt lineNo => Sys2Proof.Machine.execLineBoundary dt lineNo s
  | .rasValidFall dt => Sys2Proof.Machine.execRasValidFall dt s
  | .rasterLossTimeout dt => Sys2Proof.Machine.execRasterLossTimeout dt s
  | .virtualFrameBoundary dt => Sys2Proof.Machine.execVirtualFrameBoundary dt s
  | .virtualLineBoundary dt line => Sys2Proof.Machine.execVirtualLineBoundary dt line s
  | .newTake dt path value => Sys2Proof.Machine.execNewTake dt path value s
  | .orbitTick dt => Sys2Proof.Machine.execOrbitTick dt s
  | .orbitStandbyWrite dt path image => Sys2Proof.Machine.execOrbitStandbyWrite dt path image s
  | .linkReady dt => Sys2Proof.Machine.execLinkReady dt s
  | .readyDrop dt => Sys2Proof.Machine.execReadyDrop dt s
  | .crdt dt pkt gap => Sys2Proof.Machine.execCrdt dt pkt gap s
  | .linkUp dt pkt gap => Sys2Proof.Machine.execLinkUp dt pkt gap s
  | .linkDown dt pkt gap => Sys2Proof.Machine.execLinkDown dt pkt gap s
  | .linkEcho dt pkt gap => Sys2Proof.Machine.execLinkEcho dt pkt gap s
  | .creditReturn dt vc0 vc1 => Sys2Proof.Machine.execCreditReturn dt vc0 vc1 s
  | .data dt pkt => Sys2Proof.Machine.execData dt pkt s
  | .qrst dt pkt => Sys2Proof.Machine.execQrst dt pkt s
  | .qrstDone dt => Sys2Proof.Machine.execQrstDone dt s
  | .xrdyGrant dt stamp => Sys2Proof.Machine.execXrdyGrant dt stamp s
  | .windowExpired dt windowId => Sys2Proof.Machine.execWindowExpired dt windowId s
  | .hostLinkStall dt => Sys2Proof.Machine.execHostLinkStall dt s
  | .packetSend dt => Sys2Proof.Machine.execPacketSend dt s
  | .read dt path hdr => Sys2Proof.Machine.execRead dt path hdr s
  | .write dt path hdr => Sys2Proof.Machine.execWrite dt path hdr s
  | .flush dt path hdr => Sys2Proof.Machine.execFlush dt path hdr s
  | .discard dt path hdr => Sys2Proof.Machine.execDiscard dt path hdr s
  | .secureDiscard dt path hdr => Sys2Proof.Machine.execSecureDiscard dt path hdr s
  | .fence dt path hdr => Sys2Proof.Machine.execFence dt path hdr s
  | .streamOpen dt path hdr => Sys2Proof.Machine.execStreamOpen dt path hdr s
  | .streamClose dt path hdr => Sys2Proof.Machine.execStreamClose dt path hdr s
  | .copy dt path hdr => Sys2Proof.Machine.execCopy dt path hdr s
  | .erase dt path hdr => Sys2Proof.Machine.execErase dt path hdr s
  | .rawRead dt path hdr => Sys2Proof.Machine.execRawRead dt path hdr s
  | .rawProgram dt path hdr => Sys2Proof.Machine.execRawProgram dt path hdr s
  | .scrub dt path hdr => Sys2Proof.Machine.execScrub dt path hdr s
  | .calibrate dt path hdr => Sys2Proof.Machine.execCalibrate dt path hdr s
  | .fold dt path hdr => Sys2Proof.Machine.execFold dt path hdr s
  | .blankCheck dt path hdr => Sys2Proof.Machine.execBlankCheck dt path hdr s
  | .purge dt path hdr => Sys2Proof.Machine.execPurge dt path hdr s
  | .replayScan dt path hdr => Sys2Proof.Machine.execReplayScan dt path hdr s
  | .activateMicrocode dt path hdr => Sys2Proof.Machine.execActivateMicrocode dt path hdr s
  | .parityRebuild dt path hdr => Sys2Proof.Machine.execParityRebuild dt path hdr s
  | .lswGo dt path value => Sys2Proof.Machine.execLswGo dt path value s
  | .commandStart dt stamp => Sys2Proof.Machine.execCommandStart dt stamp s
  | .writeAccept dt stamp => Sys2Proof.Machine.execWriteAccept dt stamp s
  | .bufWaitTimeout dt stamp => Sys2Proof.Machine.execBufWaitTimeout dt stamp s
  | .bufGrant dt pool => Sys2Proof.Machine.execBufGrant dt pool s
  | .programDone dt die good => Sys2Proof.Machine.execProgramDone dt die good s
  | .eraseDone dt die good => Sys2Proof.Machine.execEraseDone dt die good s
  | .codewordDecoded dt job => Sys2Proof.Machine.execCodewordDecoded dt job s
  | .roWaitExpired dt stamp cluster => Sys2Proof.Machine.execRoWaitExpired dt stamp cluster s
  | .parSpill dt sb => Sys2Proof.Machine.execParSpill dt sb s
  | .allocEnable dt path value => Sys2Proof.Machine.execAllocEnable dt path value s
  | .allocWalkDone dt => Sys2Proof.Machine.execAllocWalkDone dt s
  | .allocRequest dt => Sys2Proof.Machine.execAllocRequest dt s
  | .bgBlankCheck dt die plane block zeros => Sys2Proof.Machine.execBgBlankCheck dt die plane block zeros s
  | .autoErase dt sb => Sys2Proof.Machine.execAutoErase dt sb s
  | .blockRetire dt path ppa => Sys2Proof.Machine.execBlockRetire dt path ppa s
  | .blockClassSet dt path ppa => Sys2Proof.Machine.execBlockClassSet dt path ppa s
  | .mapUnderlay dt path entry => Sys2Proof.Machine.execMapUnderlay dt path entry s
  | .mapSafeSeqRead dt path => Sys2Proof.Machine.execMapSafeSeqRead dt path s
  | .dieFailed dt die cause opcode => Sys2Proof.Machine.execDieFailed dt die cause opcode s
  | .admissionResume dt => Sys2Proof.Machine.execAdmissionResume dt s
  | .enum dt path ch => Sys2Proof.Machine.execEnum dt path ch s
  | .enumDone dt ch reports => Sys2Proof.Machine.execEnumDone dt ch reports s
  | .failChannel dt path ch => Sys2Proof.Machine.execFailChannel dt path ch s
  | .chDieFail dt path ch mask => Sys2Proof.Machine.execChDieFail dt path ch mask s
  | .statusPoll dt die status => Sys2Proof.Machine.execStatusPoll dt die status s
  | .rbRise dt ch ce => Sys2Proof.Machine.execRbRise dt ch ce s
  | .dieOpTimeout dt die => Sys2Proof.Machine.execDieOpTimeout dt die s
  | .lunResetDone dt die ready idBytes uid => Sys2Proof.Machine.execLunResetDone dt die ready idBytes uid s
  | .phyFault dt ch cause phy => Sys2Proof.Machine.execPhyFault dt ch cause phy s
  | .channelRecoveryDone dt ch => Sys2Proof.Machine.execChannelRecoveryDone dt ch s
  | .recoverTimeout dt ch => Sys2Proof.Machine.execRecoverTimeout dt ch s
  | .idCheck dt die idBytes uid => Sys2Proof.Machine.execIdCheck dt die idBytes uid s
  | .suspendBudgetExpired dt die => Sys2Proof.Machine.execSuspendBudgetExpired dt die s
  | .cometRead dt stream => Sys2Proof.Machine.execCometRead dt stream s
  | .mbCtrl dt path ch value => Sys2Proof.Machine.execMbCtrl dt path ch value s
  | .mbFieldWrite dt path ch sub value => Sys2Proof.Machine.execMbFieldWrite dt path ch sub value s
  | .mbHandover dt ch => Sys2Proof.Machine.execMbHandover dt ch s
  | .tempPoll dt die temp => Sys2Proof.Machine.execTempPoll dt die temp s
  | .calAgeTrigger dt die => Sys2Proof.Machine.execCalAgeTrigger dt die s
  | .calibrationRun dt die trim temps meas eyes => Sys2Proof.Machine.execCalibrationRun dt die trim temps meas eyes s
  | .calHoldExpired dt die => Sys2Proof.Machine.execCalHoldExpired dt die s
  | .calSnapshotRead dt path => Sys2Proof.Machine.execCalSnapshotRead dt path s
  | .calRestore dt path image => Sys2Proof.Machine.execCalRestore dt path image s
  | .codeDescWrite dt path code image => Sys2Proof.Machine.execCodeDescWrite dt path code image s
  | .protLevelRaise dt path value => Sys2Proof.Machine.execProtLevelRaise dt path value s
  | .seal dt path value => Sys2Proof.Machine.execSeal dt path value s
  | .bootRegionWrite dt path value => Sys2Proof.Machine.execBootRegionWrite dt path value s
  | .rawAreaWrite dt path value => Sys2Proof.Machine.execRawAreaWrite dt path value s
  | .bwCtrlWrite dt path value => Sys2Proof.Machine.execBwCtrlWrite dt path value s
  | .bwFetch dt addr page0 page1 ahead => Sys2Proof.Machine.execBwFetch dt addr page0 page1 ahead s
  | .psaveDataWrite dt path bytes programmed => Sys2Proof.Machine.execPsaveDataWrite dt path bytes programmed s
  | .rmpKey1 dt path value => Sys2Proof.Machine.execRmpKey1 dt path value s
  | .rmpKey2 dt path value => Sys2Proof.Machine.execRmpKey2 dt path value s
  | .rmpArmLapse dt path => Sys2Proof.Machine.execRmpArmLapse dt path s
  | .eraseUser dt path value => Sys2Proof.Machine.execEraseUser dt path value s
  | .eraseAll dt path value => Sys2Proof.Machine.execEraseAll dt path value s
  | .lower dt path value => Sys2Proof.Machine.execLower dt path value s
  | .sanitizeDone dt => Sys2Proof.Machine.execSanitizeDone dt s
  | .pfail dt => Sys2Proof.Machine.execPfail dt s
  | .drainDone dt => Sys2Proof.Machine.execDrainDone dt s
  | .ucodeLoad dt path image => Sys2Proof.Machine.execUcodeLoad dt path image s
  | .dieOpDispatch dt seq => Sys2Proof.Machine.execDieOpDispatch dt seq s
  | .microword dt seq ctx env => Sys2Proof.Machine.execMicroword dt seq ctx env s
  | .ucodeWatchdog dt seq ctx => Sys2Proof.Machine.execUcodeWatchdog dt seq ctx s
  | .ucodeSwap dt => Sys2Proof.Machine.execUcodeSwap dt s
  | .poolEnable dt path value => Sys2Proof.Machine.execPoolEnable dt path value s
  | .bufAlloc dt proc pool => Sys2Proof.Machine.execBufAlloc dt proc pool s
  | .bufFree dt proc handle => Sys2Proof.Machine.execBufFree dt proc handle s
  | .bufFreeAddr dt proc addr => Sys2Proof.Machine.execBufFreeAddr dt proc addr s
  | .bufRef dt proc handle => Sys2Proof.Machine.execBufRef dt proc handle s
  | .noticeOffer dt => Sys2Proof.Machine.execNoticeOffer dt s
  | .heldNoticeEnter dt queue => Sys2Proof.Machine.execHeldNoticeEnter dt queue s
  | .nqFlushTimeout dt queue => Sys2Proof.Machine.execNqFlushTimeout dt queue s
  | .nqPop dt proc queue => Sys2Proof.Machine.execNqPop dt proc queue s
  | .nqTry dt proc queue => Sys2Proof.Machine.execNqTry dt proc queue s
  | .nqBlockExpired dt proc => Sys2Proof.Machine.execNqBlockExpired dt proc s
  | .flushNq dt path queue => Sys2Proof.Machine.execFlushNq dt path queue s
  | .clearNq dt path queue => Sys2Proof.Machine.execClearNq dt path queue s
  | .ceStart dt path ch value => Sys2Proof.Machine.execCeStart dt path ch value s
  | .ceAbort dt path ch => Sys2Proof.Machine.execCeAbort dt path ch s
  | .ceDone dt ch => Sys2Proof.Machine.execCeDone dt ch s
  | .mpCmdCredit dt port => Sys2Proof.Machine.execMpCmdCredit dt port s
  | .mpWrCredit dt port => Sys2Proof.Machine.execMpWrCredit dt port s
  | .mpRdBeat dt port tag beat last bad => Sys2Proof.Machine.execMpRdBeat dt port tag beat last bad s
  | .mpAck dt port tag bad => Sys2Proof.Machine.execMpAck dt port tag bad s
  | .intClaim dt proc => Sys2Proof.Machine.execIntClaim dt proc s
  | .intEoi dt proc value => Sys2Proof.Machine.execIntEoi dt proc value s
  | .intSoft dt proc value => Sys2Proof.Machine.execIntSoft dt proc value s
  | .sleepInd dt proc level => Sys2Proof.Machine.execSleepInd dt proc level s
  | .coalTimer dt group => Sys2Proof.Machine.execCoalTimer dt group s
  | .closaRead dt src => Sys2Proof.Machine.execClosaRead dt src s
  | .closaWrite dt src => Sys2Proof.Machine.execClosaWrite dt src s
  | .uploadBegin dt src => Sys2Proof.Machine.execUploadBegin dt src s
  | .uploadSeg dt src => Sys2Proof.Machine.execUploadSeg dt src s
  | .downloadBegin dt src => Sys2Proof.Machine.execDownloadBegin dt src s
  | .downloadSeg dt src => Sys2Proof.Machine.execDownloadSeg dt src s
  | .abandon dt src => Sys2Proof.Machine.execAbandon dt src s
  | .cfgDownloadOpen dt proc index sub length => Sys2Proof.Machine.execCfgDownloadOpen dt proc index sub length s
  | .cfgDownloadAppend dt proc index sub word => Sys2Proof.Machine.execCfgDownloadAppend dt proc index sub word s
  | .cfgAbandon dt proc index sub => Sys2Proof.Machine.execCfgAbandon dt proc index sub s
  | .cfgUploadOpen dt proc index sub => Sys2Proof.Machine.execCfgUploadOpen dt proc index sub s
  | .cfgUploadRead dt proc index sub => Sys2Proof.Machine.execCfgUploadRead dt proc index sub s
  | .cfgWriteLatch dt proc index sub word => Sys2Proof.Machine.execCfgWriteLatch dt proc index sub word s
  | .dictSegTimeout dt xfer => Sys2Proof.Machine.execDictSegTimeout dt xfer s
  | .objectWrite dt proc index sub off word => Sys2Proof.Machine.execObjectWrite dt proc index sub off word s
  | .fnStatusFrame dt => Sys2Proof.Machine.execFnStatusFrame dt s
  | .fnBusoff dt => Sys2Proof.Machine.execFnBusoff dt s
  | .fnBusoffRecover dt => Sys2Proof.Machine.execFnBusoffRecover dt s
  | .statFreeze dt path value => Sys2Proof.Machine.execStatFreeze dt path value s
  | .tlogRecord dt => Sys2Proof.Machine.execTlogRecord dt s
  | .tlogMark dt path value => Sys2Proof.Machine.execTlogMark dt path value s
  | .tlogClear dt path value => Sys2Proof.Machine.execTlogClear dt path value s
  | .tlogImageRead dt path => Sys2Proof.Machine.execTlogImageRead dt path s
  | .rasValidRise dt => Sys2Proof.Machine.execRasValidRise dt s
  | .eyeScanOverrun dt ch => Sys2Proof.Machine.execEyeScanOverrun dt ch s
  | .bwFetchWaitExpired dt => Sys2Proof.Machine.execBwFetchWaitExpired dt s
  | .mbistDone dt failed => Sys2Proof.Machine.execMbistDone dt failed s

end Sys2Proof.Machine
end

