-- ==== Sys2Proof/Safety.lean ====
section
/-!
DEFINITION. Safety.lean: the terms claims use: a block that is up, the invariant of every step, what it is for a command to
complete with a property, and the fields of the state by name, so that a statement can say which of them stay as they are.
-/

namespace Sys2Proof

open Sys2Proof.Machine

/-- The TREF cycles a command brings with it; a reset or a self-test row takes none (R519, log 3). -/
def Instr.dt : Instr → Nat
  | .porst .. | .blkrst .. | .mbistStart .. | .mbistDone .. => 0
  | .initDone dt | .protReady dt .. | .mode dt .. | .park dt .. | .modeRequest dt .. | .sanitizeEnter dt
  | .parkEntryDone dt | .parkWake dt | .frameBoundary dt .. | .lineBoundary dt .. | .rasValidFall dt
  | .rasterLossTimeout dt | .virtualFrameBoundary dt | .virtualLineBoundary dt .. | .newTake dt .. | .orbitTick dt
  | .orbitStandbyWrite dt .. | .linkReady dt | .readyDrop dt | .crdt dt .. | .linkUp dt .. | .linkDown dt ..
  | .linkEcho dt .. | .creditReturn dt .. | .data dt .. | .qrst dt .. | .qrstDone dt | .xrdyGrant dt ..
  | .windowExpired dt .. | .hostLinkStall dt | .packetSend dt | .read dt .. | .write dt .. | .flush dt ..
  | .discard dt .. | .secureDiscard dt .. | .fence dt .. | .streamOpen dt .. | .streamClose dt .. | .copy dt ..
  | .erase dt .. | .rawRead dt .. | .rawProgram dt .. | .scrub dt .. | .calibrate dt .. | .fold dt .. | .blankCheck dt ..
  | .purge dt .. | .replayScan dt .. | .activateMicrocode dt .. | .parityRebuild dt .. | .lswGo dt ..
  | .commandStart dt .. | .writeAccept dt .. | .bufWaitTimeout dt .. | .bufGrant dt .. | .programDone dt ..
  | .eraseDone dt .. | .codewordDecoded dt .. | .roWaitExpired dt .. | .parSpill dt .. | .allocEnable dt ..
  | .allocWalkDone dt | .allocRequest dt | .bgBlankCheck dt .. | .autoErase dt .. | .blockRetire dt ..
  | .blockClassSet dt .. | .mapUnderlay dt .. | .mapSafeSeqRead dt .. | .dieFailed dt .. | .admissionResume dt
  | .enum dt .. | .enumDone dt .. | .failChannel dt .. | .chDieFail dt .. | .statusPoll dt .. | .rbRise dt ..
  | .dieOpTimeout dt .. | .lunResetDone dt .. | .phyFault dt .. | .channelRecoveryDone dt .. | .recoverTimeout dt ..
  | .idCheck dt .. | .suspendBudgetExpired dt .. | .cometRead dt .. | .mbCtrl dt .. | .mbFieldWrite dt ..
  | .mbHandover dt .. | .tempPoll dt .. | .calAgeTrigger dt .. | .calibrationRun dt .. | .calHoldExpired dt ..
  | .calSnapshotRead dt .. | .calRestore dt .. | .codeDescWrite dt .. | .protLevelRaise dt .. | .seal dt ..
  | .bootRegionWrite dt .. | .rawAreaWrite dt .. | .bwCtrlWrite dt .. | .bwFetch dt .. | .psaveDataWrite dt ..
  | .rmpKey1 dt .. | .rmpKey2 dt .. | .rmpArmLapse dt .. | .eraseUser dt .. | .eraseAll dt .. | .lower dt ..
  | .sanitizeDone dt .. | .pfail dt | .drainDone dt | .ucodeLoad dt .. | .dieOpDispatch dt .. | .microword dt ..
  | .ucodeWatchdog dt .. | .ucodeSwap dt | .poolEnable dt .. | .bufAlloc dt .. | .bufFree dt .. | .bufFreeAddr dt ..
  | .bufRef dt .. | .noticeOffer dt | .heldNoticeEnter dt .. | .nqFlushTimeout dt .. | .nqPop dt .. | .nqTry dt ..
  | .nqBlockExpired dt .. | .flushNq dt .. | .clearNq dt .. | .ceStart dt .. | .ceAbort dt .. | .ceDone dt ..
  | .mpCmdCredit dt .. | .mpWrCredit dt .. | .mpRdBeat dt .. | .mpAck dt .. | .intClaim dt .. | .intEoi dt ..
  | .intSoft dt .. | .sleepInd dt .. | .coalTimer dt .. | .closaRead dt .. | .closaWrite dt .. | .uploadBegin dt ..
  | .uploadSeg dt .. | .downloadBegin dt .. | .downloadSeg dt .. | .abandon dt .. | .cfgDownloadOpen dt ..
  | .cfgDownloadAppend dt .. | .cfgAbandon dt .. | .cfgUploadOpen dt .. | .cfgUploadRead dt .. | .cfgWriteLatch dt ..
  | .dictSegTimeout dt .. | .objectWrite dt .. | .fnStatusFrame dt | .fnBusoff dt | .fnBusoffRecover dt
  | .statFreeze dt .. | .tlogRecord dt | .tlogMark dt .. | .tlogClear dt .. | .tlogImageRead dt .. | .rasValidRise dt
  | .eyeScanOverrun dt .. | .bwFetchWaitExpired dt => dt

/-- A command of the production-test and reset rows, which act in every state (R510, R523). -/
def Instr.isReset : Instr → Bool
  | .porst .. | .blkrst .. | .mbistStart .. | .mbistDone .. => true
  | _ => false

/-- A row that moves an input pin, or an outside credit counter, which act in every phase (R512, R521, R525). -/
def Instr.isPin : Instr → Bool
  | .rasValidRise .. | .rasValidFall .. | .sleepInd .. | .mpCmdCredit .. | .mpWrCredit .. => true
  | _ => false

/-- The opcode, the way it comes and the header of a row that brings a command to the queue. -/
def Instr.submits : Instr → Option (Nat × CmdVia × Header)
  | .read _ v h => some (0x01, v, h)
  | .write _ v h => some (0x02, v, h)
  | .flush _ v h => some (0x03, v, h)
  | .discard _ v h => some (0x04, v, h)
  | .secureDiscard _ v h => some (0x05, v, h)
  | .fence _ v h => some (0x07, v, h)
  | .streamOpen _ v h => some (0x08, v, h)
  | .streamClose _ v h => some (0x09, v, h)
  | .park _ v h => some (0x0A, v, h)
  | .mode _ v h => some (0x0B, v, h)
  | .copy _ v h => some (0x20, v, h)
  | .erase _ v h => some (0x21, v, h)
  | .rawRead _ v h => some (0x22, v, h)
  | .rawProgram _ v h => some (0x23, v, h)
  | .scrub _ v h => some (0x24, v, h)
  | .calibrate _ v h => some (0x25, v, h)
  | .fold _ v h => some (0x26, v, h)
  | .blankCheck _ v h => some (0x27, v, h)
  | .purge _ v h => some (0x28, v, h)
  | .replayScan _ v h => some (0x29, v, h)
  | .activateMicrocode _ v h => some (0x2A, v, h)
  | .parityRebuild _ v h => some (0x2B, v, h)
  | _ => none

/-- A header whose OPCODE is the row's. -/
def withOpcode (op : Nat) (h : Header) : Header := BitVec.ofNat 256 (setBits h.toNat 64 8 op)

/-- The packet that brings a command of header `h` by the host link. -/
def CmdVia.packet (h : Header) : CmdVia → Packet
  | .host payload trailer beats lastBytes vc framing => { hdr := h, payload, trailer, beats, lastBytes, vc, framing }
  | .lsw _ => { hdr := h }

/-- The header that reaches the queue: on the host path with the TYPE of a CMD (R70). -/
def CmdVia.header (via : CmdVia) (h : Header) : Header :=
  match via with
  | .host .. => asPacket 1 0 h
  | .lsw _ => h

/-- An inbound packet as its row brings it: its TYPE, KIND, spacing where the row is spaced, and the packet. -/
def Instr.inbound : Instr → Option (Nat × Nat × Option Nat × Packet)
  | .crdt _ pkt gap => some (8, 0, some gap, pkt)
  | .linkUp _ pkt gap => some (9, 1, some gap, pkt)
  | .linkDown _ pkt gap => some (9, 2, some gap, pkt)
  | .linkEcho _ pkt gap => some (9, 4, some gap, pkt)
  | .data _ pkt => some (3, 0, none, pkt)
  | .qrst _ pkt => some (0xA, 0, none, pkt)
  | _ => none

/-- The rows that write one register through the dictionary, and nothing after it: path, object, indices and value. The writes
of the two unlock keys are not among them: a key out of range is a wrong key (R354). -/
def Instr.writes : Instr → Option (DictPath × Obj × Nat × Nat × W64)
  | .modeRequest _ p v => some (p, Obj.MODE_REQUEST, 0, 0, v)
  | .newTake _ p v => some (p, Obj.NEW_TAKE, 0, 0, v)
  | .lswGo _ p v => some (p, Obj.LSW_GO, 0, 0, v)
  | .allocEnable _ p v => some (p, Obj.ALLOC_CTRL, 0, 0, v)
  | .blockRetire _ p v => some (p, Obj.BLOCK_RETIRE, 0, 0, v)
  | .blockClassSet _ p v => some (p, Obj.BLOCK_CLASS_SET, 0, 0, v)
  | .mapUnderlay _ p v => some (p, Obj.MAP_UNDERLAY, 0, 0, v)
  | .enum _ p ch => if ch < 64 then some (p, Obj.CH_CTRL, 0, ch, 1) else none
  | .failChannel _ p ch => if ch < 64 then some (p, Obj.CH_CTRL, 0, ch, 2) else none
  | .chDieFail _ p ch v => if ch < 64 then some (p, Obj.CH_DIE_FAIL, 0, ch, v) else none
  | .mbCtrl _ p ch v => if ch < 64 then some (p, Obj.MB_CTRL, 0, ch, v) else none
  | .protLevelRaise _ p v => some (p, Obj.PROT_LEVEL_RAISE, 0, 0, v)
  | .seal _ p v => some (p, Obj.SEAL, 0, 0, v)
  | .bootRegionWrite _ p v => some (p, Obj.BOOT_REGION, 0, 0, v)
  | .rawAreaWrite _ p v => some (p, Obj.RAW_AREA, 0, 0, v)
  | .bwCtrlWrite _ p v => some (p, Obj.BW_CTRL, 0, 0, v)
  | .eraseUser _ p v => if bits v.toNat 0 2 = 1 then some (p, Obj.SAN_CTRL, 0, 0, v) else none
  | .eraseAll _ p v => if bits v.toNat 0 2 = 2 then some (p, Obj.SAN_CTRL, 0, 0, v) else none
  | .lower _ p v => if bits v.toNat 0 2 = 3 then some (p, Obj.SAN_CTRL, 0, 0, v) else none
  | .bufRef _ n v => some (.cfg n, Obj.BUF_REF, 0, 0, v)
  | .intEoi _ n v => some (.cfg n, Obj.INT_EOI, 0, 0, v)
  | .intSoft _ n v => some (.cfg n, Obj.INT_SOFT, 0, 0, v)
  | .statFreeze _ p v => some (p, Obj.STAT_CTRL, 0, 0, v)
  | .tlogMark _ p v => some (p, Obj.TLOG_MARK, 0, 0, v)
  | _ => none

/-- The rows of Closa requests: the service, and the way the request comes. -/
def Instr.closa : Instr → Option (Nat × ClosaSrc)
  | .closaRead _ src => some (1, src)
  | .closaWrite _ src => some (2, src)
  | .uploadBegin _ src => some (3, src)
  | .uploadSeg _ src => some (4, src)
  | .downloadBegin _ src => some (5, src)
  | .downloadSeg _ src => some (6, src)
  | .abandon _ src => some (7, src)
  | _ => none

/-- Any packet that comes in on the host link, a CMD or an MREQ among them: its TYPE, KIND, spacing where the row is spaced, and
the packet. -/
def Instr.packet (i : Instr) : Option (Nat × Nat × Option Nat × Packet) :=
  match i.submits with
  | some (op, .host a b c d e f, h) => some (1, 0, none, CmdVia.packet (withOpcode op h) (.host a b c d e f))
  | some (_, .lsw _, _) => none
  | none => match i.closa with
    | some (_, .mreq pkt) => some (6, 0, none, pkt)
    | some (_, .fn ..) => none
    | none => i.inbound

/-- The rows of work on the media: reads, programs, placement, channels, calibration and the sequencers. -/
def Instr.isMedia : Instr → Bool
  | .commandStart .. | .writeAccept .. | .bufWaitTimeout .. | .bufGrant .. | .programDone .. | .eraseDone ..
  | .codewordDecoded .. | .parSpill .. | .roWaitExpired .. | .allocWalkDone .. | .allocRequest .. | .bgBlankCheck ..
  | .autoErase .. | .dieFailed .. | .admissionResume .. | .enumDone .. | .statusPoll .. | .dieOpTimeout ..
  | .lunResetDone .. | .phyFault .. | .channelRecoveryDone .. | .recoverTimeout .. | .idCheck ..
  | .suspendBudgetExpired .. | .rbRise .. | .cometRead .. | .mbHandover .. | .calibrationRun .. | .calHoldExpired ..
  | .tempPoll .. | .calAgeTrigger .. | .dieOpDispatch .. | .microword .. | .ucodeWatchdog .. | .ucodeSwap .. => true
  | _ => false

namespace Machine

/-- The functional block is up: out of test mode, initialization over, PROT_READY risen (R344, R510, R524). -/
def State.Up (s : State) : Prop := s.testMode = false ∧ s.phase = .running

/-- What every step keeps: memory in its canonical form, no half-finished cycle (no event, notice or deferred error gathered
and not yet entered), and at most 32 events in the trouble log's queue (R493). -/
def State.Inv (s : State) : Prop :=
  Memory.wf s.mem = true ∧ s.offered = [] ∧ s.deferNew = [] ∧ s.tlog.raised = [] ∧ s.tlog.queue.length ≤ 32

/-- A command answers a next state that has a property. -/
def Completes (i : Instr) (s : State) (P : State → Prop) : Prop := ∃ t, exec i s = .next t ∧ P t

/-- A command of the media side completes, and what it leads to is `u`: the state at the end of the command's time with all the
media work that follows from it done, of which the fields that are no part of the media side stay (`State.onMedia`). -/
def RunsTo (i : Instr) (s u : State) : Prop := exec i s = .next ((s.elapse i.dt).settle ((s.elapse i.dt).onMedia fun _ => u))

/-- What an access answers at the configuration port, if that was its path: READY, the value, and ERR with the code where it
failed (R467, R469). -/
def State.Answers (t : State) (path : DictPath) (code : Nat) (value : Nat := 0) : Prop :=
  ∀ p, path = .cfg p → t.cfg = { ready := true, err := code != rcOk, rdata := w64 value, code }

/-- A dictionary command that writes one object completes: `u` is what the write leads to, and the access is recorded with
`code` (R467, R469, R470, R487). -/
def WritesTo (i : Instr) (s : State) (path : DictPath) (o : Obj) (u : State) (code : Nat) (k : Nat := 0) (r : Nat := 0) : Prop :=
  exec i s = .next ((s.elapse i.dt).settle ((u.account path (o.at k r) true code 0).notePrev path (o.at k r) true
    (if o.ty.bytes = 8 then 4 else 0)))

/-- A command of the media side completes, and its own effect gives a state that has a property, on which the media work that
waits then goes on (`State.progress`). -/
def LeadsTo (i : Instr) (s : State) (P : State → Prop) : Prop := ∃ u : State, RunsTo i s u.progress ∧ P u

/-- A command completes, and its own effect gives a state that has a property, on which the work that waits then goes on
(`State.progress`). -/
def GoesOn (i : Instr) (s : State) (P : State → Prop) : Prop :=
  ∃ u : State, exec i s = .next ((s.elapse i.dt).settle u.progress) ∧ P u

/-- The object an access names exists, and the configuration port, if that is the path, is not held by a pop that waits
(R7, R424, R469). -/
def State.Reaches (s : State) (path : DictPath) (o : Obj) (i r : Nat) : Prop :=
  s.portHeld path = false ∧ s.objAt (o.at i r) = some (o, i, r)

/-- A write of a value meets no obstacle before the object's own rule: the object exists and checks 4, 5 and 7 of R540 pass. -/
def State.WritePasses (s : State) (path : DictPath) (o : Obj) (v : W64) (i : Nat := 0) (r : Nat := 0) : Prop :=
  s.Reaches path o i r ∧ s.writeCheck path o i r 64 v.toNat = rcOk

/-- A read meets no obstacle before the object's own rule. -/
def State.ReadPasses (s : State) (path : DictPath) (o : Obj) (i : Nat := 0) (r : Nat := 0) : Prop :=
  s.Reaches path o i r ∧ s.pathAllows path o i r false = true ∧ s.attrCheck o false = rcOk

/-- A whole transfer of a DOMAIN object meets no obstacle before its end action: the object exists, the path and the attribute
allow it, no transfer holds it, and a download's length is one R476 allows. `len` is 1 for an upload. -/
def State.TransferPasses (s : State) (path : DictPath) (o : Obj) (write : Bool) (len : Nat) (i : Nat := 0) : Prop :=
  s.Reaches path o i 0 ∧ s.pathAllows path o i 0 write = true ∧ s.attrCheck o write = rcOk ∧ s.xfers = [] ∧ 1 ≤ len
    ∧ len ≤ 16777216

/-- The link hears an inbound packet: it is not DOWN, a CRDT has been heard there, or the packet is a CRDT (R73). -/
def State.Listens (s : State) (ty : Nat) : Prop := s.link.st ≠ 0 ∨ s.link.heard = true ∨ ty = 8

/-- An inbound packet keeps the framing and the receive space of its channel (R90). -/
def State.Framed (s : State) (ty : Nat) (pkt : Packet) : Prop :=
  pkt.framing = none ∧ pkt.beats ≤ 65 ∧ (ty = 8 ∨ ty = 9 ∨ pkt.beats ≤ s.rxSpace pkt.vc)

/-- The receive space an inbound packet takes on its channel, and holds until its credit is returned (R74); CRDT and LINK take
none. -/
def LinkSt.takes (l : LinkSt) (ty vc beats : Nat) : LinkSt :=
  if ty = 8 ∨ ty = 9 then l else if vc = 1 then { l with rx1 := l.rx1 + beats } else { l with rx0 := l.rx0 + beats }

/-- An inbound packet is taken: the link hears it, framing, space and spacing are kept, and it passes the checks of R89, its
receive space taken. In DOWN the SOP beat of a CRDT opens the ear before the packet is judged (R73). -/
def State.Takes (s : State) (ty kind : Nat) (gap : Option Nat) (pkt : Packet) : Prop :=
  s.Listens ty ∧ s.Framed ty pkt ∧ (∀ g, gap = some g → 16 ≤ g) ∧
    s.packetFault { pkt with hdr := asPacket ty kind pkt.hdr } = none

/-- The link is as `l` says at the end of a cycle: since when its outbound credit has been short is noted (R77), and of the
credit owed on each channel some has gone back on CRDT_RET, its receive space free again (R74). -/
def LinkSt.Ends (l m : LinkSt) : Prop :=
  ∃ k0 k1, k0 ≤ l.owe0 ∧ k1 ≤ l.owe1 ∧ m = { l with
    short0 := m.short0, short1 := m.short1, retAt := m.retAt, retVc0 := m.retVc0, retVc1 := m.retVc1
    rx0 := l.rx0 - k0, owe0 := l.owe0 - k0, rx1 := l.rx1 - k1, owe1 := l.owe1 - k1 }

/-- The link is as `l` says at the end of a cycle. -/
def State.LinkIs (t : State) (l : LinkSt) : Prop := l.Ends t.link

/-- A command's header comes to be filed, after PROT_READY: on the host path the link is UP, the CMD packet is taken and no CMD
is held before it; on a local path the envelope is valid; and there is a free slot and lock entry (R79, R89, R123, R129). -/
def State.Reached (s : State) (via : CmdVia) (h : Header) : Prop :=
  s.prot.ready = true ∧ s.canFile (via.header h) = true ∧
    match via with
    | .host .. => s.link.st = 3 ∧ s.Takes 1 0 none (via.packet h) ∧ s.link.held = []
    | .lsw _ => hbits h 0 4 = 1 ∧ hbits h 4 4 = 0 ∧ hbits h 16 16 ≤ 192

/-- The command that a header becomes when it is stamped now (R126). -/
def State.newCmd (s : State) (path : Path) (h : Header) : Cmd :=
  { hdr := h, path, stamp := s.stampNext, pos := s.pos, time := s.now }

/-- A header passes steps 1 and 2 of R103: its (QUEUE, CID) names no outstanding command, and its queue is enabled for its
path. -/
def State.Stamped (s : State) (path : Path) (h : Header) : Prop :=
  (∀ c ∈ s.cmds, ¬(c.queue = hbits h 48 6 ∧ c.cid = hbits h 32 16)) ∧ s.queueEnabled (hbits h 48 6) = true ∧
    s.queueLocal (hbits h 48 6) = decide (path ≠ .host)

/-- The result of steps 3 to 9 of R103: none where every check passes, else the status and INFO of the first that fails. -/
def State.filing (s : State) (path : Path) (h : Header) : Option (Nat × Nat) :=
  s.fileCheck (s.newCmd path h) (s.takeArm (s.newCmd path h)).2

/-- A command that waits, as it was filed. -/
def Cmd.filedAs (d c : Cmd) : Prop :=
  d.hdr = c.hdr ∧ d.path = c.path ∧ d.stamp = c.stamp ∧ d.pos = c.pos ∧ d.time = c.time ∧ d.phase = .waiting ∧
    (hasRange c.opcode = true → d.locked = true)

/-- Stored objects outside a list of addresses are as they were, but for the time counted for the mode in force (R488). -/
def DictKept (keys : List Nat) (s t : State) : Prop :=
  ∀ k, k ∉ keys → (∀ m, m < 8 → k ≠ Obj.STAT_MODE_NS.at m 0) → mapGet t.dict k = mapGet s.dict k

/-- The fields of the state by name, but for time and what is gathered within a cycle. -/
inductive Field where
  | pending | build | phase | resetPor | porLow | blkLow | lostAtReset | trefKhz | fnclkSel | testMode
  | mbistBusy | mbistDone | mbistFail | freeN | dict | mem | modes | raster | orbit | streams | link | cmds
  | stampNext | seqWritten | deferred | versions | nextVer | hostCws | origins | sbs | allocReqs | walking
  | running | interimBlocks | zeroFrom | stallFrom | lostDies | tokens | blockLocks | pins | ops | nextOp
  | jobs | nextJob | rebuilds | comet | cometHeld | slotsUsed | slcOkOnce | codes | codeErr | cal | calLast
  | calSnapFrom | prot | chans | dies | clusters | ctxs | activation | pools | offers | nqs | ce | ceSlots
  | ports | ints | procs | xfers | cfg | fn | frozen | tlog
  deriving DecidableEq, Repr

/-- A field as it was, apart from what the end of a cycle adds whatever the command (log 3): nanoseconds charged to the mode in
force (R488), notices that unit and pool watches offer (R214, R421), a pool's low mark, the WRITEs that owe OK_WITH_NOTICE
(R214), since when a credit counter is short (R77), owed credit that goes back (R74), and the running state of coalescing
groups (R456). -/
def Field.same (f : Field) (s t : State) : Prop :=
  match f with
  | .dict => ∀ k, (∀ m, m < 8 → k ≠ Obj.STAT_MODE_NS.at m 0) → mapGet t.dict k = mapGet s.dict k
  | .offers => s.offers <+: t.offers
  | .link => s.link.Ends t.link
  | .ints => t.ints = { s.ints with coal := t.ints.coal }
  | .pools => ∀ p, t.pool p = { s.pool p with low := (t.pool p).low }
  | .slcOkOnce => ∀ u ∈ s.slcOkOnce, u ∈ t.slcOkOnce
  | .pending => t.pending = s.pending
  | .build => t.build = s.build
  | .phase => t.phase = s.phase
  | .resetPor => t.resetPor = s.resetPor
  | .porLow => t.porLow = s.porLow
  | .blkLow => t.blkLow = s.blkLow
  | .lostAtReset => t.lostAtReset = s.lostAtReset
  | .trefKhz => t.trefKhz = s.trefKhz
  | .fnclkSel => t.fnclkSel = s.fnclkSel
  | .testMode => t.testMode = s.testMode
  | .mbistBusy => t.mbistBusy = s.mbistBusy
  | .mbistDone => t.mbistDone = s.mbistDone
  | .mbistFail => t.mbistFail = s.mbistFail
  | .freeN => t.freeN = s.freeN
  | .mem => t.mem = s.mem
  | .modes => t.modes = s.modes
  | .raster => t.raster = s.raster
  | .orbit => t.orbit = s.orbit
  | .streams => t.streams = s.streams
  | .cmds => t.cmds = s.cmds
  | .stampNext => t.stampNext = s.stampNext
  | .seqWritten => t.seqWritten = s.seqWritten
  | .deferred => t.deferred = s.deferred
  | .versions => t.versions = s.versions
  | .nextVer => t.nextVer = s.nextVer
  | .hostCws => t.hostCws = s.hostCws
  | .origins => t.origins = s.origins
  | .sbs => t.sbs = s.sbs
  | .allocReqs => t.allocReqs = s.allocReqs
  | .walking => t.walking = s.walking
  | .running => t.running = s.running
  | .interimBlocks => t.interimBlocks = s.interimBlocks
  | .zeroFrom => t.zeroFrom = s.zeroFrom
  | .stallFrom => t.stallFrom = s.stallFrom
  | .lostDies => t.lostDies = s.lostDies
  | .tokens => t.tokens = s.tokens
  | .blockLocks => t.blockLocks = s.blockLocks
  | .pins => t.pins = s.pins
  | .ops => t.ops = s.ops
  | .nextOp => t.nextOp = s.nextOp
  | .jobs => t.jobs = s.jobs
  | .nextJob => t.nextJob = s.nextJob
  | .rebuilds => t.rebuilds = s.rebuilds
  | .comet => t.comet = s.comet
  | .cometHeld => t.cometHeld = s.cometHeld
  | .slotsUsed => t.slotsUsed = s.slotsUsed
  | .codes => t.codes = s.codes
  | .codeErr => t.codeErr = s.codeErr
  | .cal => t.cal = s.cal
  | .calLast => t.calLast = s.calLast
  | .calSnapFrom => t.calSnapFrom = s.calSnapFrom
  | .prot => t.prot = s.prot
  | .chans => t.chans = s.chans
  | .dies => t.dies = s.dies
  | .clusters => t.clusters = s.clusters
  | .ctxs => t.ctxs = s.ctxs
  | .activation => t.activation = s.activation
  | .nqs => t.nqs = s.nqs
  | .ce => t.ce = s.ce
  | .ceSlots => t.ceSlots = s.ceSlots
  | .ports => t.ports = s.ports
  | .procs => t.procs = s.procs
  | .xfers => t.xfers = s.xfers
  | .cfg => t.cfg = s.cfg
  | .fn => t.fn = s.fn
  | .frozen => t.frozen = s.frozen
  | .tlog => t.tlog = s.tlog

/-- Every field but the named ones is as it was. -/
def Untouched (changed : List Field) (s t : State) : Prop := ∀ f, f ∉ changed → f.same s t

/-- A command whose conditions do not hold has no effect: what changes is what time changes. -/
def NoEffect (i : Instr) (s : State) : Prop := ∃ t, exec i s = .next t ∧ (s.Inv → Untouched [] s t)

end Machine

end Sys2Proof
end

