-- ==== Sys2Proof/Certificates/Slice0/Obligations.lean ====
section
/-!
DEFINITION. Certificates/Slice0/Obligations.lean: what is claimed of the block, one definition for each statement. A command
that completes is one whose exec answers a next state (`Completes`); `s.Up` says that the block is out of test mode and
running; `Untouched l` says that every field of the state but those of `l` is as it was.
-/

open Sys2Proof Sys2Proof.Machine

/-! ### The machine as a whole -/

/-- A step takes the command at the front of the queue and runs it on the state with the rest of the queue. With no command
waiting the block idles (the model's choice, log 3). -/
def Obligations.StepRunsFrontCommand : Prop :=
  (∀ (c : Instr) (rest : List Instr) (s : State), step { s with pending := c :: rest } = exec c { s with pending := rest }) ∧
  (∀ s : State, s.pending = [] → step s = .next s)

/-- The state right after reset satisfies the invariant, with no command waiting, SRAM being cleared. -/
def Obligations.ResetSatisfiesInvariant : Prop :=
  State.reset.Inv ∧ State.reset.pending = [] ∧ State.reset.phase = .clearing

/-- Every step keeps the invariant: memory in its canonical form, nothing half-gathered within a cycle, and at most 32 events
in the trouble log's queue (R493). -/
def Obligations.StepKeepsInvariant : Prop := ∀ s t : State, s.Inv → step s = .next t → t.Inv

/-- A command stops the machine exactly when it is no reset or self-test row and the TEST_MODE strap is 1 (R510 calls the
functional behaviour undefined then); no command is ever refused. Out of test mode, a command taken while a reset is 0 changes
nothing, and one taken while SRAM is cleared only lets its time pass, with these exceptions: INIT_DONE, which ends the clearing;
BW_FETCH, which a processor may raise at any time after release (R529); the levels of RAS_VALID and SLEEP_IND, which pins keep in
every phase (R521); and memory-port credits, which count from release on (R525). -/
def Obligations.OnlyTestModeStops : Prop :=
  (∀ (i : Instr) (s : State),
     ((∃ f, exec i s = .fault f) ↔ (s.testMode = true ∧ i.isReset = false)) ∧ ∀ r, exec i s ≠ .refused r) ∧
  (∀ (i : Instr) (s : State), i.isReset = false → i.isPin = false → s.testMode = false →
     (s.phase = .held → exec i s = .next s) ∧
     (s.phase = .clearing → (∀ dt, i ≠ .initDone dt) → (∀ dt a p q l, i ≠ .bwFetch dt a p q l) →
       exec i s = .next (s.elapse i.dt))) ∧
  (∀ (s u : State) (dt : Nat), s.testMode = false →
     (s.phase = .held ∧ u = s) ∨ (s.phase = .clearing ∧ u = s.elapse dt) →
     exec (.rasValidRise dt) s = .next { u with raster := { s.raster with validIn := true } } ∧
     exec (.rasValidFall dt) s = .next { u with raster := { s.raster with validIn := false } } ∧
     ∀ p level, p < s.ints.sleep.length →
       exec (.sleepInd dt p level) s = .next { u with ints := { s.ints with sleep := s.ints.sleep.set p level } }) ∧
  (∀ (s : State) (dt n : Nat), s.testMode = false →
     (s.phase = .held → exec (.mpCmdCredit dt n) s = .next s ∧ exec (.mpWrCredit dt n) s = .next s) ∧
     (s.phase = .clearing → n < s.build.clusters → (s.port n).wait = [] →
       Completes (.mpCmdCredit dt n) s fun t => (t.port n).cmdCr = min 4095 ((s.port n).cmdCr + 1)))

/-- Every command of a running block completes, in the time it brings, from which the nanosecond counter follows with its exact
remainder (R519); it changes neither the queue nor the build, the straps or the records of the last reset. -/
def Obligations.RunningCommandsTakeTheirTime : Prop :=
  ∀ (i : Instr) (s : State), s.Up → i.isReset = false →
    Completes i s fun t => t.tref = s.tref + i.dt ∧ t.now = 1000000 * (s.tref + i.dt) / s.trefKhz ∧
      t.pending = s.pending ∧ t.build = s.build ∧ t.resetPor = s.resetPor ∧ t.porLow = s.porLow ∧ t.blkLow = s.blkLow ∧
      t.lostAtReset = s.lostAtReset ∧
      t.trefKhz = s.trefKhz ∧ t.fnclkSel = s.fnclkSel ∧ t.testMode = s.testMode ∧ t.mbistBusy = s.mbistBusy ∧
      t.mbistDone = s.mbistDone ∧ t.mbistFail = s.mbistFail

/-! ### Resets and self-test -/

/-- After either reset the block is in OPEN with no request pending, and MODE_BEFORE_PARK reads 1 (R36): while PORST_N is 0, while
BLKRST_N is 0, and in the model's reset state; and no release of either changes the modes. -/
def Obligations.ModeAfterReset : Prop :=
  (∀ s dt khz f m, s.porLow = false → Completes (.porst dt true khz f m) s fun t =>
    t.modes.current = .openMode ∧ t.modes.pending = none ∧ ∀ p, t.readObj p Obj.MODE_BEFORE_PARK 0 0 = 1) ∧
  (∀ s dt, s.phase ≠ .held → Completes (.blkrst dt true) s fun t =>
    t.modes.current = .openMode ∧ t.modes.pending = none ∧ ∀ p, t.readObj p Obj.MODE_BEFORE_PARK 0 0 = 1) ∧
  (∀ s dt khz f m, Completes (.porst dt false khz f m) s fun t => t.modes = s.modes) ∧
  (∀ s dt, Completes (.blkrst dt false) s fun t => t.modes = s.modes) ∧
  State.reset.modes.current = .openMode ∧ State.reset.modes.pending = none ∧
  ∀ p, State.reset.readObj p Obj.MODE_BEFORE_PARK 0 0 = 1

/-- PORST, BLKRST and INIT_DONE: a fall of PORST_N holds the block with everything of it at its reset value, but for what is not
the block's: the queue, the build, input levels, the straps as last sampled, the DRAM behind the ports and the count of free values;
the events it loses are counted. A fall of BLKRST_N does the same and keeps the trouble log's records and TLOG_FIRST_SIZE; a reset
asserted again leaves the block as it is. A rise of PORST_N samples the straps, and SRAM is cleared unless TREF_KHZ or a BLKRST_N
that is still 0 holds the block; a rise of BLKRST_N clears SRAM unless PORST_N or TREF_KHZ holds the block. INIT_DONE ends the
clearing: the PHYs leave reset and the virtual raster opens (0, 0, 0). MBIST_START and MBIST_DONE: with TEST_MODE 1 the self-test
starts and what the SRAMs held is lost; when it ends, DONE and its result show; with TEST_MODE 0 both are ignored (R510). -/
def Obligations.ResetRowsComplete : Prop :=
  (∀ s dt khz f m, s.porLow = false → Completes (.porst dt true khz f m) s fun t =>
    t = { State.reset with
      pending := s.pending, build := s.build, mem := t.mem, freeN := t.freeN, phase := .held, resetPor := true, porLow := true
      blkLow := s.blkLow, trefKhz := s.trefKhz, fnclkSel := s.fnclkSel, testMode := s.testMode
      lostAtReset := if s.phase = .held then s.lostAtReset else s.tlog.queue.length
      raster := { ({} : RasterSt) with validIn := s.raster.validIn }, ints := { ({} : IntSt) with sleep := s.ints.sleep } }) ∧
  (∀ s dt khz f m, s.porLow = true → exec (.porst dt true khz f m) s = .next s) ∧
  (∀ s dt khz f m, s.porLow = true → exec (.porst dt false khz f m) s =
    .next { s with porLow := false, trefKhz := khz, fnclkSel := f, testMode := m, tref := 0
                   phase := if 25000 ≤ khz ∧ khz ≤ 200000 ∧ s.blkLow = false then .clearing else .held }) ∧
  (∀ s dt khz f m, s.porLow = false → exec (.porst dt false khz f m) s = .next s) ∧
  (∀ s dt, s.phase ≠ .held → Completes (.blkrst dt true) s fun t =>
    t.tlog = { s.tlog with queue := [], raised := [] } ∧ t.obj Obj.TLOG_FIRST_SIZE = s.obj Obj.TLOG_FIRST_SIZE ∧
    (∀ k, k ≠ Obj.TLOG_FIRST_SIZE.at 0 0 → mapGet t.dict k = none) ∧
    t = { State.reset with
      pending := s.pending, build := s.build, mem := t.mem, freeN := t.freeN, dict := t.dict, tlog := t.tlog, phase := .held
      resetPor := false, porLow := s.porLow, blkLow := true, trefKhz := s.trefKhz, fnclkSel := s.fnclkSel
      testMode := s.testMode, lostAtReset := s.tlog.queue.length
      raster := { ({} : RasterSt) with validIn := s.raster.validIn }, ints := { ({} : IntSt) with sleep := s.ints.sleep } }) ∧
  (∀ s dt, s.phase = .held → exec (.blkrst dt true) s = .next { s with blkLow := true }) ∧
  (∀ s dt, s.phase = .held → s.blkLow = true → s.porLow = false → 25000 ≤ s.trefKhz → s.trefKhz ≤ 200000 →
    exec (.blkrst dt false) s = .next { s with blkLow := false, phase := .clearing, tref := 0 }) ∧
  (∀ s dt, s.phase ≠ .held ∨ s.blkLow = false ∨ s.porLow = true ∨ s.trefKhz < 25000 ∨ 200000 < s.trefKhz →
    exec (.blkrst dt false) s = .next { s with blkLow := false }) ∧
  (∀ s dt, s.testMode = false → s.phase = .clearing → Completes (.initDone dt) s fun t =>
    t.phase = .scanning ∧ t.raster.pos = {} ∧ t.raster.present = false ∧ t.raster.boundaryAt = (s.elapse dt).now ∧
    t.tlog.queue.length = min 32 (s.tlog.queue.length + s.tlog.raised.length + 1) ∧
    ∀ n, n < s.build.channels → (t.chan n).phyRstN = true) ∧
  (∀ s dt, s.testMode = true → Completes (.mbistStart dt) s fun t =>
    t.mbistBusy = true ∧ t.mbistDone = false ∧ t.mbistFail = false ∧ t.dict = [] ∧ t.cmds = [] ∧ t.versions = [] ∧
    t.sbs = [] ∧ t.prot = {} ∧ t.tlog = {} ∧ t.phase = s.phase ∧ t.tref = s.tref) ∧
  (∀ s dt failed, s.testMode = true → s.mbistBusy = true →
    exec (.mbistDone dt failed) s = .next { s with mbistBusy := false, mbistDone := true, mbistFail := failed }) ∧
  (∀ s dt failed, s.testMode = false ∨ s.mbistBusy = false → exec (.mbistDone dt failed) s = .next s) ∧
  (∀ s dt, s.testMode = false → exec (.mbistStart dt) s = .next s)

/-- No reset or self-test row changes the queue or the build, nor the memory behind the ports, but for writes whose beats were all
put when a reset falls: the memory system completes or drops each (R525), so a byte outside them is as it was, and where there are
none all of memory is. A BLKRST row leaves the straps and PORST_N's level; the release rows and MBIST_DONE leave every register but
the few they name. -/
def Obligations.ResetFrame : Prop :=
  (∀ i s t, i.isReset = true → exec i s = .next t → t.pending = s.pending ∧ t.build = s.build ∧
    (∀ a, (∀ p ∈ s.ports, ∀ r ∈ p.2.out, r.write = true → r.sent = r.beats → a < r.addr ∨ r.addr + r.data.length ≤ a) →
      Memory.byte t.mem a = Memory.byte s.mem a) ∧
    ((∀ p ∈ s.ports, ∀ r ∈ p.2.out, r.write = false ∨ r.sent ≠ r.beats) → t.mem = s.mem)) ∧
  (∀ s t dt a, exec (.blkrst dt a) s = .next t →
    t.trefKhz = s.trefKhz ∧ t.fnclkSel = s.fnclkSel ∧ t.testMode = s.testMode ∧ t.porLow = s.porLow) ∧
  (∀ s t dt khz f m, exec (.porst dt false khz f m) s = .next t →
    Untouched [.phase, .porLow, .trefKhz, .fnclkSel, .testMode] s t) ∧
  (∀ s t dt, exec (.blkrst dt false) s = .next t → Untouched [.phase, .blkLow] s t) ∧
  (∀ s t dt failed, exec (.mbistDone dt failed) s = .next t → Untouched [.mbistBusy, .mbistDone, .mbistFail] s t)

/-! ### Modes -/

/-- MODE_REQUEST written with 0 to 7, from a mode other than PARK and other than the one asked for, and before a power failure,
follows the table of R30: I takes effect at once, F, P and D wait, S, B and X refuse with their reason, and a refused request
leaves what waits. -/
def Obligations.ModeRequestFollowsTable : Prop :=
  ∀ (s : State) (dt : Nat) (path : DictPath) (v : W64), s.Up →
    let a := s.elapse dt
    let m := Mode.ofNum v.toNat
    let cur := a.modes.current
    a.WritePasses path Obj.MODE_REQUEST v → a.prot.pfail = false → cur ≠ .park → m ≠ cur →
    Completes (.modeRequest dt path v) s fun t =>
      t.modes.request = v.toNat ∧
      (cur = .sanitize → m ≠ .openMode → t.modes = { a.modes with request := v.toNat, lastRefusal := 6 }) ∧
      (cur = .sanitize → m = .openMode → a.prot.sanRunning = true →
        t.modes = { a.modes with request := v.toNat, lastRefusal := 2 }) ∧
      (cur = .sanitize → m = .openMode → a.prot.sanRunning = false → t.modes.current = .openMode ∧ t.modes.pending = none) ∧
      (cur.orbit = true → m.orbit = false → a.streamOpen = true →
        t.modes = { a.modes with request := v.toNat, lastRefusal := 1 }) ∧
      (cur ≠ .sanitize → m = .recordBurst → a.slcPoolFree < a.objN Obj.BURST_ENTRY_FREE →
        t.modes = { a.modes with request := v.toNat, lastRefusal := 3 }) ∧
      (cur ≠ .sanitize → m = .sanitize → (cur.orbit = true → a.streamOpen = false) →
        t.modes.current = cur ∧ t.modes.pending = some { mode := .sanitize } ∧ t.modes.draining = true) ∧
      (cur = .openMode ∨ cur = .offload ∨ cur = .service → m = .park →
        t.modes.current = cur ∧ t.modes.pending = some { mode := .park } ∧ t.modes.parkEntry = true) ∧
      (cur.orbit = true → m.orbit = false → m ≠ .sanitize → a.streamOpen = false →
        t.modes.current = cur ∧ t.modes.pending = some { mode := m } ∧ t.modes.parkEntry = false ∧ t.modes.draining = false) ∧
      (cur ≠ .sanitize → m.orbit = true → (m = .recordBurst → a.objN Obj.BURST_ENTRY_FREE ≤ a.slcPoolFree) →
        t.modes.current = cur ∧ t.modes.pending = some { mode := m } ∧ t.modes.parkEntry = false ∧ t.modes.draining = false) ∧
      (cur = .openMode ∨ cur = .offload ∨ cur = .service → m = .openMode ∨ m = .offload ∨ m = .service →
        t.modes.current = m ∧ t.modes.pending = none ∧ t.modes.changeCount = (a.modes.changeCount + 1) % 2 ^ 32 ∧
        t.modes.changePos = a.pos ∧ t.modes.changeTime = a.now)

/-- A request for the mode in force replaces what waits, with LAST_REFUSAL 4 for it, and changes the mode in no way (R28, R29), but
for a request for RECORD-BURST while the block's own request waits, which is refused with reason 3; from a power failure on every
request is refused with reason 5 (R35). SANITIZE_ENTER: with the queues empty, but for the request's own command, and no media
operation for a command left, the block enters SANITIZE (R31); before that nothing happens. PARK_ENTRY_DONE: once every started
operation has ended and no command has restarted the entry, the mode is PARK with MODE_BEFORE_PARK the mode left, the dies in deep
power-down, WP_N 0 on every channel and every coalescing group that has items open (R33, R226, R459). PARK_WAKE: a waiting command
that needs the media wakes the block into MODE_BEFORE_PARK, with LAST_REFUSAL as it was (R33), and no other does. -/
def Obligations.ModeEntryRowsComplete : Prop :=
  (∀ (s : State) (dt : Nat) (path : DictPath) (v : W64), s.Up →
    let a := s.elapse dt
    let own := ∃ r, a.modes.pending = some r ∧ r.byBlock = true ∧ a.modes.current = .recordBurst
    a.WritePasses path Obj.MODE_REQUEST v → a.prot.pfail = false → a.modes.current = Mode.ofNum v.toNat →
    (a.modes.current = .park → Completes (.modeRequest dt path v) s fun t => t.modes = { a.modes with request := v.toNat }) ∧
    (own → Completes (.modeRequest dt path v) s fun t =>
      t.modes = { a.modes with request := v.toNat, lastRefusal := 3 }) ∧
    (a.modes.current ≠ .park → ¬own → a.modes.pending = none → Completes (.modeRequest dt path v) s fun t =>
      t.modes = { a.modes with request := v.toNat }) ∧
    (a.modes.current ≠ .park → ¬own → a.modes.pending ≠ none → Completes (.modeRequest dt path v) s fun t =>
      t.modes = { a.modes with request := v.toNat, pending := none, parkEntry := false, draining := false, lastRefusal := 4 })) ∧
  (∀ (s : State) (dt : Nat) (path : DictPath) (v : W64), s.Up →
    let a := s.elapse dt
    a.WritePasses path Obj.MODE_REQUEST v → a.prot.pfail = true →
    Completes (.modeRequest dt path v) s fun t => t.modes = { a.modes with request := v.toNat, lastRefusal := 5 }) ∧
  (∀ (s : State) (dt : Nat) (r : ModeReq), s.Up → s.modes.pending = some r → r.mode = .sanitize → s.modes.draining = true →
    let empty := (∀ c ∈ s.cmds, r.cmd = some c.stamp) ∧ s.versions = [] ∧ s.jobs = [] ∧ ∀ o ∈ s.ops, o.kind.ofCommand = false
    (empty → Completes (.sanitizeEnter dt) s fun t =>
      t.modes.current = .sanitize ∧ t.modes.pending = none ∧ t.modes.draining = false ∧
      t.modes.changeCount = (s.modes.changeCount + 1) % 2 ^ 32 ∧ t.modes.changeTime = (s.elapse dt).now ∧
      ∀ st c, r.cmd = some st → s.cmd? st = some c → c.path = .host → c.opcode = 0xA ∨ c.opcode = 0xB → c.isEnded = false →
        s.link.st = 3 → .resp c.queue c.cid stOk false 0 st ∈ t.link.out0) ∧
    (¬empty → NoEffect (.sanitizeEnter dt) s)) ∧
  (∀ (s : State) (dt : Nat) (r : ModeReq), s.Up → s.modes.pending = some r → s.modes.parkEntry = true →
    let quiet := s.modes.parkRestarted = false ∧ ∀ o ∈ s.ops, o.started = false
    (quiet → Completes (.parkEntryDone dt) s fun t =>
      t.modes.current = .park ∧ t.modes.before = s.modes.current ∧ t.modes.pending = none ∧ t.modes.parkEntry = false ∧
      t.modes.poweredDown = true ∧ (∀ x ∈ t.dies, (s.elapse dt).diePresent x.1 = true → x.2.powered = false) ∧
      (∀ x ∈ t.chans, x.2.wpN = false) ∧
      ∃ u : State, t = (s.elapse dt).settle u ∧ (s.modes.parkFlushed = false → ∀ g, g < 32 → 1 ≤ (s.elapse dt).groupItems g →
        (u.coal g).isOpen = true)) ∧
    (¬quiet → NoEffect (.parkEntryDone dt) s)) ∧
  (∀ (s : State) (dt : Nat), s.Up →
    let needed := s.modes.current = .park ∧ s.prot.pfail = false ∧
      ∃ c ∈ s.cmds, c.isEnded = false ∧ (s.elapse dt).needsMedia c = true
    (needed → Completes (.parkWake dt) s fun t =>
      t.modes.current = s.modes.before ∧ t.modes.poweredDown = false ∧ t.modes.lastRefusal = s.modes.lastRefusal ∧
      t.modes.pending = s.modes.pending ∧ t.modes.changeCount = (s.modes.changeCount + 1) % 2 ^ 32) ∧
    (¬needed → NoEffect (.parkWake dt) s))

/-! ### The raster and the orbit -/

/-- A camera frame strobe is accepted while RAS_VALID is 1 and 100 ns after the previous one: the camera raster is present,
the frame opens at its number, line 0, and the epoch rises exactly when a cause of R41 holds. One that comes too early is
refused: RAS_STROBE_ERR rises and nothing else (R38). With RAS_VALID 0 it is ignored. The causes of a new epoch, lowest first
(R41): 1 the frame number is at or below the current one, 2 the camera raster returns, 3 a new take is pending. -/
def Obligations.FrameBoundaryCompletes : Prop :=
  (∀ (s : State) (dt n : Nat), s.Up → s.raster.validIn = true → spaced s.raster.lastFrameAt (s.elapse dt).now = true →
    let a := s.elapse dt
    let f := (if tbit (a.objN Obj.RAS_NUMBER_SRC) 0 then a.pos.frame.toNat + 1 else n) % 2 ^ 32
    Completes (.frameBoundary dt n) s fun t =>
      t.raster.present = true ∧ t.raster.lost = false ∧ t.raster.newTake = false ∧ t.raster.lastFrameAt = some a.now ∧
      t.raster.boundaryAt = a.now ∧ t.raster.pos.frame.toNat = f ∧ t.raster.pos.line = 0 ∧
      (a.epochCause f = 0 → t.raster.pos.epoch = s.raster.pos.epoch ∧ t.raster.lastCause = s.raster.lastCause) ∧
      (a.epochCause f ≠ 0 → t.raster.pos.epoch = s.raster.pos.epoch + 1 ∧ t.raster.lastCause = a.epochCause f)) ∧
  (∀ (s : State) (dt n : Nat), s.Up → s.raster.validIn = true → spaced s.raster.lastFrameAt (s.elapse dt).now = false →
    Completes (.frameBoundary dt n) s fun t =>
      t.raster = s.raster ∧ t.obj Obj.RAS_STROBE_ERR = ((s.elapse dt).bump Obj.RAS_STROBE_ERR).obj Obj.RAS_STROBE_ERR) ∧
  (∀ (s : State) (dt n : Nat), s.Up → s.raster.validIn = false →
    Completes (.frameBoundary dt n) s fun t => t.raster = s.raster ∧ t.obj Obj.RAS_STROBE_ERR = s.obj Obj.RAS_STROBE_ERR) ∧
  (∀ (s : State) (f : Nat),
     (s.epochCause f = 1 ↔ f ≤ s.raster.pos.frame.toNat) ∧
     (s.epochCause f = 2 ↔ s.raster.pos.frame.toNat < f ∧ s.raster.present = false) ∧
     (s.epochCause f = 3 ↔ s.raster.pos.frame.toNat < f ∧ s.raster.present = true ∧ s.raster.newTake = true) ∧
     (s.epochCause f = 0 ↔ s.raster.pos.frame.toNat < f ∧ s.raster.present = true ∧ s.raster.newTake = false))

/-- The other strobes: RAS_VALID's level is kept at its rise and fall; an accepted line strobe sets the line, held at 65,535;
one too early, or not above the current line, is counted in RAS_STROBE_ERR and moves nothing. The virtual raster:
RASTER_LOSS_TIMEOUT, once RAS_LOSS_FRAMES measured frames have passed without a strobe, makes the camera raster absent (R46);
while it is absent a virtual frame opens when its period has passed, numbered one above the previous, in a new epoch only for
a pending new take (R47); a virtual line opens at its time. -/
def Obligations.RasterStrobesComplete : Prop :=
  (∀ (s : State) (dt : Nat), s.Up → Completes (.rasValidRise dt) s fun t => t.raster = { s.raster with validIn := true }) ∧
  (∀ (s : State) (dt : Nat), s.Up → s.raster.present = false →
    Completes (.rasValidFall dt) s fun t =>
      t.raster = { s.raster with validIn := false, lost := t.raster.lost } ∧ (s.raster.validIn = true → t.raster.lost = true)) ∧
  (∀ (s : State) (dt : Nat), s.Up → s.raster.validIn = true → s.raster.present = true →
    Completes (.rasValidFall dt) s fun t =>
      t.raster.validIn = false ∧ t.raster.present = false ∧ t.raster.absentAt = (s.elapse dt).now) ∧
  (∀ (s : State) (dt n : Nat), s.Up → s.raster.validIn = true → s.raster.present = true →
    let a := s.elapse dt
    let l := min 65535 (if tbit (a.objN Obj.RAS_NUMBER_SRC) 1 then a.pos.line.toNat + 1 else n)
    (spaced s.raster.lastLineAt a.now = true → s.raster.pos.line.toNat < l →
      Completes (.lineBoundary dt n) s fun t =>
        t.raster = { s.raster with lastLineAt := some a.now, pos := { s.raster.pos with line := BitVec.ofNat 16 l },
                                   frameHigh := max s.raster.frameHigh l, lineCount := s.raster.lineCount + 1 }) ∧
    (spaced s.raster.lastLineAt a.now = false ∨ l ≤ s.raster.pos.line.toNat →
      Completes (.lineBoundary dt n) s fun t =>
        t.raster = s.raster ∧ t.obj Obj.RAS_STROBE_ERR = (a.bump Obj.RAS_STROBE_ERR).obj Obj.RAS_STROBE_ERR)) ∧
  (∀ (s : State) (dt n : Nat), s.Up → s.raster.validIn = false ∨ s.raster.present = false →
    Completes (.lineBoundary dt n) s fun t => t.raster = s.raster) ∧
  (∀ (s : State) (dt at_ : Nat), s.Up → s.raster.lastFrameAt = some at_ → s.raster.present = true → s.raster.frameNs ≠ 0 →
    at_ + (s.elapse dt).objN Obj.RAS_LOSS_FRAMES * s.raster.frameNs ≤ (s.elapse dt).now →
    Completes (.rasterLossTimeout dt) s fun t => t.raster.present = false ∧ t.raster.absentAt = (s.elapse dt).now) ∧
  (∀ (s : State) (dt : Nat), s.Up → s.raster.present = false →
    s.raster.boundaryAt + s.raster.vPeriod ≤ (s.elapse dt).now →
    Completes (.virtualFrameBoundary dt) s fun t =>
      t.raster.pos.frame.toNat = (s.raster.pos.frame.toNat + 1) % 2 ^ 32 ∧ t.raster.pos.line = 0 ∧
      t.raster.pos.epoch = (if s.raster.newTake then s.raster.pos.epoch + 1 else s.raster.pos.epoch) ∧
      t.raster.newTake = false ∧ t.raster.present = false ∧ t.raster.boundaryAt = (s.elapse dt).now) ∧
  (∀ (s : State) (dt line at_ : Nat), s.Up → s.raster.present = false → s.raster.lineTime line = some at_ →
    s.raster.pos.line.toNat < line → at_ ≤ (s.elapse dt).now → s.raster.absentAt < at_ →
    Completes (.virtualLineBoundary dt line) s fun t =>
      t.raster.pos = { s.raster.pos with line := BitVec.ofNat 16 (min line 65535) } ∧
      t.raster.lineCount = s.raster.lineCount + 1)

/-- The mode rows leave the raster, the memory-port, notice-queue, field-port and copy-engine state, the processors' interrupt
stacks and the microcode as they are; SANITIZE_ENTER, PARK_ENTRY_DONE and PARK_WAKE leave the configuration port too. Line
strobes, virtual lines, a rise of RAS_VALID and NEW_TAKE leave everything but the raster and what a dictionary access records
as it is: a line strobe at most counts in RAS_STROBE_ERR. -/
def Obligations.ModeAndRasterFrame : Prop :=
  (∀ (s t : State) (dt : Nat) (path : DictPath) (v : W64), s.Inv → exec (.modeRequest dt path v) s = .next t →
    ∀ f, f ∈ [Field.raster, .clusters, .ctxs, .activation, .jobs, .rebuilds, .comet, .codes, .nqs, .ce, .ports, .ints, .xfers,
      .fn, .frozen, .hostCws, .origins, .nextVer, .walking, .running, .calLast, .stampNext, .tokens, .blockLocks, .pins] →
      f.same s t) ∧
  (∀ (s t : State) (i : Instr), s.Inv →
    (∃ dt, i = .sanitizeEnter dt ∨ i = .parkEntryDone dt ∨ i = .parkWake dt) → exec i s = .next t →
    ∀ f, f ∈ [Field.raster, .clusters, .ctxs, .activation, .jobs, .rebuilds, .comet, .codes, .nqs, .ce, .ports, .procs, .xfers,
      .cfg, .fn, .frozen, .hostCws, .origins, .nextVer, .walking, .running, .calLast, .stampNext, .tokens, .blockLocks, .pins] →
      f.same s t) ∧
  (∀ (s t : State) (dt n : Nat), s.Inv → exec (.lineBoundary dt n) s = .next t →
    Untouched [.raster, .dict] s t ∧ DictKept [Obj.RAS_STROBE_ERR.at 0 0] s t) ∧
  (∀ (s t : State) (dt n : Nat), s.Inv → exec (.virtualLineBoundary dt n) s = .next t → Untouched [.raster] s t) ∧
  (∀ (s t : State) (dt : Nat), s.Inv → exec (.rasValidRise dt) s = .next t → Untouched [.raster] s t) ∧
  (∀ (s t : State) (dt : Nat) (path : DictPath) (v : W64), s.Inv → exec (.newTake dt path v) s = .next t →
    Untouched [.raster, .dict, .cfg, .procs] s t)

/-- NEW_TAKE, ORBIT_TICK and ORBIT_STANDBY_WRITE: a new take is pending (R41); the next tick of the frame begins once its source
has reached it, and not before (R50); a checked manual table waits in standby, and a table that fails its checks changes nothing (R52). -/
def Obligations.OrbitRowsComplete : Prop :=
  (∀ (s : State) (dt : Nat) (path : DictPath) (v : W64), s.Up → (s.elapse dt).WritePasses path Obj.NEW_TAKE v →
    Completes (.newTake dt path v) s fun t => t.raster = { s.raster with newTake := true }) ∧
  (∀ (s : State) (dt : Nat) (tab : OrbitTable), s.Up → s.orbitTable = some tab → s.orbit.tick < tab.ticks →
    (s.elapse dt).tickDue tab s.orbit.tick = true →
    Completes (.orbitTick dt) s fun t => t.orbit = { s.orbit with
      tick := s.orbit.tick + 1, tickNo := s.orbit.tickNo + 1, due := t.orbit.due } ∧ t.raster = s.raster) ∧
  (∀ (s : State) (dt : Nat), s.Up → (∀ tab, s.orbitTable = some tab → tab.ticks ≤ s.orbit.tick ∨
    (s.elapse dt).tickDue tab s.orbit.tick = false) → NoEffect (.orbitTick dt) s) ∧
  (∀ (s : State) (dt : Nat) (path : DictPath) (bs : List Byte), s.Up →
    (s.elapse dt).TransferPasses path Obj.ORBIT_STANDBY true bs.length →
    Completes (.orbitStandbyWrite dt path bs) s fun t =>
      (((s.elapse dt).tableOk bs = true → t.orbit = { s.orbit with standby := some (OrbitTable.ofImage bs) }) ∧
       ((s.elapse dt).tableOk bs = false → t.orbit = s.orbit)))

/-! ### The host link -/

/-- Link-up (R73): LINK_READY in DOWN opens CREDIT_EXCHANGE with the block's CRDT, a LINK DOWN not yet sent dropped (the model's
choice, log 234); a CRDT that comes in DOWN is kept, and counts when CREDIT_EXCHANGE opens; one with at least 4 and 65 beats brings
UP_WAIT with the block's LINK UP, one with less takes the link down (code 14); in UP_WAIT a LINK UP with the same CRC_EN brings UP
and counts in HL_LINK_UPS, with another it takes the link down; elsewhere it has no effect (the model's choice, log 235). -/
def Obligations.LinkUpRowsComplete : Prop :=
  (∀ (s : State) (dt : Nat), s.Up → s.link.st = 0 →
    let crc := (s.elapse dt).objN Obj.LINK_CRC_EN != 0
    let opened : LinkSt := { s.link with
      st := 1, peer0 := 0, peer1 := 0, crdtIn := none
      out0 := s.link.out0.filter (fun p => !p.isDown) ++
        [.crdt ((s.elapse dt).objN Obj.HL_RX_VC0) ((s.elapse dt).objN Obj.HL_RX_VC1)] }
    (s.link.crdtIn = none → Completes (.linkReady dt) s fun t => t.LinkIs opened) ∧
    (∀ x y, s.link.crdtIn = some (x, y) → 4 ≤ x → 65 ≤ y → Completes (.linkReady dt) s fun t =>
      t.LinkIs { opened with st := 2, peer0 := x, peer1 := y, tx0 := x, tx1 := y, crcSent := crc
                             out0 := opened.out0 ++ [.link 1 0 crc 0] })) ∧
  (∀ (s : State) (dt : Nat), s.Up → s.link.st ≠ 0 → NoEffect (.linkReady dt) s) ∧
  (∀ (s : State) (dt gap : Nat) (pkt : Packet), s.Up → (s.elapse dt).Takes 8 0 (some gap) pkt →
    let x := hbits (asPacket 8 0 pkt.hdr) 32 32
    let y := hbits (asPacket 8 0 pkt.hdr) 64 32
    (s.link.st = 0 → Completes (.crdt dt pkt gap) s fun t =>
      t.LinkIs { s.link with heard := true, crdtIn := some (x, y) }) ∧
    (s.link.st = 1 → 4 ≤ x → 65 ≤ y → Completes (.crdt dt pkt gap) s fun t =>
      let crc := (s.elapse dt).objN Obj.LINK_CRC_EN != 0
      t.LinkIs { s.link with st := 2, peer0 := x, peer1 := y, tx0 := x, tx1 := y, crdtIn := none, crcSent := crc,
                             out0 := s.link.out0 ++ [.link 1 0 crc 0] }) ∧
    (s.link.st = 1 → x < 4 ∨ y < 65 → Completes (.crdt dt pkt gap) s fun t => t.link.st = 0 ∧ t.link.lastError = 14)) ∧
  (∀ (s : State) (dt gap : Nat) (pkt : Packet), s.Up → (s.elapse dt).Takes 9 1 (some gap) pkt →
    let crc := tbit (asPacket 9 1 pkt.hdr).toNat 40
    (s.link.st = 2 → crc = s.link.crcSent → Completes (.linkUp dt pkt gap) s fun t =>
      t.LinkIs { s.link with st := 3, crcActive := crc, vc0Run := 0 } ∧
      t.objN Obj.HL_LINK_UPS = ((s.elapse dt).objN Obj.HL_LINK_UPS + 1) % 2 ^ 32) ∧
    (s.link.st = 2 → crc ≠ s.link.crcSent → Completes (.linkUp dt pkt gap) s fun t =>
      t.link.st = 0 ∧ t.link.lastError = 14) ∧
    (s.link.st ≠ 2 → NoEffect (.linkUp dt pkt gap) s))

/-- The way to DOWN (R90): READY_DROP (code 12) and a LINK DOWN that is heard (code 13), a framing fault or a packet of more than 65
beats (code 11), and a packet of any kind that consumes credit and overruns the free receive space of its channel (code 10) leave
the link DOWN: LAST_ERROR the code, LINK DOWN with the code waiting to be sent, and nothing else to send but LINK packets; no credit,
no receive space taken, no trailer, no kept CRDT and no MREQ waiting; and, if the link was UP, no window, no held CMD and no queue
reset, and no transfer of the host link's contexts. READY_DROP in DOWN has no effect. -/
def Obligations.LinkGoesDown : Prop :=
  let down (was : State) (code : Nat) (t : State) : Prop :=
    t.link.st = 0 ∧ t.link.lastError = code ∧ .link 2 code false 0 ∈ t.link.out0 ∧
    (∀ p ∈ t.link.out0, ∃ k c e d, p = .link k c e d ∧ k ≠ 1) ∧ t.link.out1 = [] ∧ t.link.mreqs = [] ∧ t.link.crdtIn = none ∧
    t.link.heard = false ∧ t.link.crcActive = false ∧ t.link.tx0 = 0 ∧ t.link.tx1 = 0 ∧ t.link.rx0 = 0 ∧ t.link.rx1 = 0 ∧
    t.link.owe0 = 0 ∧ t.link.owe1 = 0 ∧
    (was.link.st = 3 → t.link.windows = [] ∧ t.link.held = [] ∧ t.link.qrsts = [] ∧ ∀ x ∈ t.xfers, x.ctx < 8 ∨ 264 ≤ x.ctx)
  (∀ (s : State) (dt : Nat), s.Up → s.link.st ≠ 0 → Completes (.readyDrop dt) s (down s 12)) ∧
  (∀ (s : State) (dt : Nat), s.Up → s.link.st = 0 → NoEffect (.readyDrop dt) s) ∧
  (∀ (s : State) (dt gap : Nat) (pkt : Packet), s.Up → (s.elapse dt).Takes 9 2 (some gap) pkt →
    Completes (.linkDown dt pkt gap) s (down s 13)) ∧
  (∀ (s : State) (i : Instr) (ty kind : Nat) (gap : Option Nat) (pkt : Packet), s.Up → s.prot.ready = true →
    i.packet = some (ty, kind, gap, pkt) → (s.elapse i.dt).Listens ty →
    (pkt.framing ≠ none ∨ 65 < pkt.beats → Completes i s (down s 11)) ∧
    (pkt.framing = none → pkt.beats ≤ 65 → ty ≠ 8 → ty ≠ 9 → (s.elapse i.dt).rxSpace pkt.vc < pkt.beats →
      Completes i s (down s 10)))

/-- An inbound packet of any kind that fails a check of R89, or that comes too close behind the one before (code 15), is dropped:
the link stays in its state and no command changes, its code is counted in HL_ERR and LAST_ERROR, its header bytes 0 to 7 stand in
HL_LAST_BAD, and a packet that consumed credit has it returned. A packet's beat count and the BYTES of its last beat follow from its
length (R71): one whose beats differ fails check 4, and the beats that carry a packet of the block follow in the same way. -/
def Obligations.BadPacketsAreDropped : Prop :=
  (∀ (s : State) (i : Instr) (ty kind : Nat) (gap : Option Nat) (pkt : Packet) (code : Nat), s.Up → s.prot.ready = true →
     i.packet = some (ty, kind, gap, pkt) → (s.elapse i.dt).Listens ty → (s.elapse i.dt).Framed ty pkt →
     ((∃ g, gap = some g ∧ g < 16 ∧ code = 15) ∨
       ((∀ g, gap = some g → 16 ≤ g) ∧
         (s.elapse i.dt).packetFault { pkt with hdr := asPacket ty kind pkt.hdr } = some code)) →
     Completes i s fun t =>
       t.link.st = s.link.st ∧ t.link.lastError = code ∧ t.link.windows = s.link.windows ∧ t.cmds = s.cmds ∧
       t.objN Obj.HL_ERR (code - 1) = min 0xFFFFFFFF ((s.elapse i.dt).objN Obj.HL_ERR (code - 1) + 1) ∧
       t.objN Obj.HL_LAST_BAD = hbits (asPacket ty kind pkt.hdr) 0 64 ∧
       (ty ≠ 8 → ty ≠ 9 → ∃ k, k ≤ (if pkt.vc = 1 then s.link.owe1 else s.link.owe0) + pkt.beats ∧
         (pkt.vc = 1 → t.link.rx1 = s.link.rx1 + pkt.beats - k ∧ t.link.owe1 = s.link.owe1 + pkt.beats - k) ∧
         (pkt.vc ≠ 1 → t.link.rx0 = s.link.rx0 + pkt.beats - k ∧ t.link.owe0 = s.link.owe0 + pkt.beats - k))) ∧
  (∀ (s : State) (p : Packet),
    let len := 32 + hbits p.hdr 16 16 + (if tbit p.hdr.toNat 11 then 4 else 0)
    p.beats ≠ (len + 255) / 256 ∨ p.lastBytes ≠ len % 256 → s.packetFault p = some 4) ∧
  (∀ (l : LinkSt) (p : OutPkt),
    let len := 32 + p.plen + (if l.crcActive then 4 else 0)
    l.beats p = (len + 255) / 256 ∧ (p.onHlo l.crcActive).length = l.beats p ∧
    ∀ b, (p.onHlo l.crcActive).getLast? = some b → b.eop = true ∧ b.bytes = some (len % 256) ∧ b.vc = p.vc)

/-- Credit and sending: CREDIT_RETURN raises the counters up to the advertisement and counts an excess as code 16 (R74, R91), and
does nothing in DOWN; a counter short for HL_STALL_NS sets its stall bit (R77); PACKET_SEND puts the beats of the next packet that
credit allows on the bus, at its price, and leaves the link as it is when there is none (R74, R76). -/
def Obligations.CreditRowsComplete : Prop :=
  (∀ (s : State) (dt a b : Nat), s.Up → s.link.st ≠ 0 → s.link.peer0 ≠ 0 → Completes (.creditReturn dt a b) s fun t =>
    t.link.tx0 = min (s.link.tx0 + a % 16) s.link.peer0 ∧ t.link.tx1 = min (s.link.tx1 + b % 16) s.link.peer1 ∧
    t.link.lastError = (if s.link.peer0 < s.link.tx0 + a % 16 ∨ s.link.peer1 < s.link.tx1 + b % 16 then 16
      else s.link.lastError)) ∧
  (∀ (s : State) (dt a b : Nat), s.Up → s.link.st = 0 → NoEffect (.creditReturn dt a b) s) ∧
  (∀ (s : State) (dt since : Nat), s.Up → s.link.short0 = some since → s.link.short1 = none → s.link.stall0 = false →
    since + (s.elapse dt).objN Obj.HL_STALL_NS ≤ (s.elapse dt).now →
    Completes (.hostLinkStall dt) s fun t => t.link.stall0 = true ∧ t.link.stall1 = s.link.stall1) ∧
  (∀ (s : State) (dt since : Nat), s.Up → s.link.short1 = some since → s.link.stall1 = false →
    since + (s.elapse dt).objN Obj.HL_STALL_NS ≤ (s.elapse dt).now →
    Completes (.hostLinkStall dt) s fun t => t.link.stall1 = true) ∧
  (∀ (s : State) (dt : Nat) (p : OutPkt), s.Up → (s.elapse dt).nextPacket = some p → Completes (.packetSend dt) s fun t =>
    t.link.hlo = p.onHlo s.link.crcActive ∧
    ((∃ st q c o l bs, p = .data st q c o l bs) → t.link.tx1 = s.link.tx1 - s.link.beats p ∧ t.link.tx0 = s.link.tx0 ∧
      t.link.vc0Run = 0) ∧
    ((¬ ∃ st q c o l bs, p = .data st q c o l bs) → t.link.tx1 = s.link.tx1 ∧
      t.link.tx0 = (if p.consumes then s.link.tx0 - 1 else s.link.tx0))) ∧
  (∀ (s : State) (dt : Nat), s.Up → (s.elapse dt).nextPacket = none → Completes (.packetSend dt) s fun t => t.LinkIs s.link)

/-- DATA, XRDY_GRANT, WINDOW_EXPIRED and LINK_ECHO. DATA that fits its window is taken: the ranges that had not come are the
command's now, a window with every range received closes, the first copy of a range stands, and the packet's credit goes back (R92,
R74); a packet of one range puts it into its granule's buffer. A command whose next window has its buffers gets the window, under an
identifier not open, and its XRDY; else nothing happens (R88). A window not closed in time is noted with code 9 in LAST_ERROR, and
its command ends with DATA_TIMEOUT, its windows closed (R93); before that nothing happens. An ECHO is repeated in an ECHO_REPLY
(R86). Queue resets (R94): a QRST with QMASK 0 is answered at once; any other is kept with the host commands of its queues that were
filed before and that no earlier one covers, takes the CMDs of its queues out of the receive buffer, and returns their credit;
QRST_DONE answers the QRSTs, in the order received, whose covered commands have all gone, and stops at the first that waits. -/
def Obligations.WindowRowsComplete : Prop :=
  (∀ (s : State) (dt : Nat) (pkt : Packet) (w : Window), s.Up → (s.elapse dt).Takes 3 0 none pkt →
    let a := s.elapse dt
    let h := asPacket 3 0 pkt.hdr
    let off := hbits h 96 32
    let first := (off - w.offset) / 4096
    let n := hbits h 16 16 / 4096
    a.dataWindow h = some w → GoesOn (.data dt pkt) s fun u => ∃ got : List Nat,
      got.Nodup ∧ (∀ r, r ∈ got ↔ r ∈ w.got ∨ (first ≤ r ∧ r < first + n)) ∧
      u.link = { s.link with
        rx1 := s.link.rx1 + pkt.beats, owe1 := s.link.owe1 + pkt.beats
        windows := if w.len / 4096 ≤ got.length then s.link.windows.filter fun x => x.id != w.id
          else s.link.windows.map fun x => if x.id == w.id then { x with got } else x } ∧
      (∀ c, s.cmd? w.stamp = some c → ∃ d, u.cmd? w.stamp = some d ∧ d.hdr = c.hdr ∧
        ∀ i, i < n → first + i ∉ w.got → off / 4096 + i ∈ d.ranges) ∧
      (∀ c b, s.cmd? w.stamp = some c → n = 1 → c.opcode = 2 → first ∉ w.got →
        let g := a.unitSectors c.unit
        let l := c.lba + off / 4096
        (c.bufs.find? fun b => b.1 == l / g) = some b →
        u.mem = (a.memWrite (a.bufAddr b.2 + 4096 * (l % g)) (padTo 4096 (pkt.payload.take 4096))).mem)) ∧
  (∀ (s : State) (dt st : Nat) (c : Cmd), s.Up → (s.elapse dt).cmd? st = some c →
    let a := s.elapse dt
    let len := min (a.objN Obj.XRDY_WINDOW_MAX) (a.dataLen c - c.granted)
    let may := c.phase = .started ∧ c.path = .host ∧ (c.opcode = 2 ∨ c.opcode = 0x23) ∧ a.windowHeld c = true ∧
      s.link.st = 3 ∧ s.prot.pfail = false ∧ a.grantsHeld c = false ∧
      (c.opcode = 2 → a.queueClass c.queue ≠ 0 → a.overBudget = false) ∧
      (s.link.windows.filter fun w => w.stamp == st).length < a.objN Obj.XRDY_AHEAD ∧ s.link.windows.length < 1024
    (may → a.repeatChecks c = none → Completes (.xrdyGrant dt st) s fun t => ∃ id, (∀ w ∈ s.link.windows, w.id ≠ id) ∧
      t.LinkIs { s.link with
        windows := s.link.windows ++ [{ id, stamp := st, offset := c.granted, len, timeout := a.objN Obj.XRDY_TIMEOUT_NS }]
        nextWindow := (id + 1) % 65536
        out0 := s.link.out0 ++ [.xrdy c.queue c.cid id c.granted len] }) ∧
    (¬may → NoEffect (.xrdyGrant dt st) s)) ∧
  (∀ (s : State) (dt id : Nat), s.Up →
    let a := s.elapse dt
    let past (x : Window) : Bool := x.id == id && x.sentAt.any fun t => t + x.timeout ≤ a.now
    (∀ w c, s.link.windows.find? past = some w → s.cmd? w.stamp = some c → c.path = .host → c.isEnded = false → s.link.st = 3 →
      GoesOn (.windowExpired dt id) s fun u => u.link.lastError = 9 ∧ u.link.st = 3 ∧
        (∀ x ∈ u.link.windows, x.stamp ≠ w.stamp) ∧
        .resp c.queue c.cid stDataTimeout false (w.id % 65536 * 65536 + w.offset % 2 ^ 32 * 2 ^ 32) w.stamp ∈ u.link.out0) ∧
    (s.link.windows.find? past = none → NoEffect (.windowExpired dt id) s)) ∧
  (∀ (s : State) (dt gap : Nat) (pkt : Packet), s.Up → (s.elapse dt).Takes 9 4 (some gap) pkt →
    Completes (.linkEcho dt pkt gap) s fun t =>
      t.LinkIs { s.link with out0 := s.link.out0 ++ [.link 5 0 false (hbits (asPacket 9 4 pkt.hdr) 96 32)] }) ∧
  (∀ (s : State) (dt : Nat) (pkt : Packet), s.Up → (s.elapse dt).Takes 0xA 0 none pkt →
    let h := asPacket 0xA 0 pkt.hdr
    let tag := hbits h 32 16
    let mask := hbits h 96 64
    let held := s.link.held.filter fun x => tbit mask (hbits x 48 6)
    (mask = 0 → Completes (.qrst dt pkt) s fun t =>
      t.LinkIs { s.link with rx0 := s.link.rx0 + pkt.beats, owe0 := s.link.owe0 + pkt.beats
                             out0 := s.link.out0 ++ [.qrst tag 0] }) ∧
    (mask ≠ 0 → GoesOn (.qrst dt pkt) s fun u => u.link.st = 3 ∧
      u.link.held = (s.link.held.filter fun x => !(tbit mask (hbits x 48 6))) ∧
      u.link.rx0 = s.link.rx0 + pkt.beats ∧ u.link.owe0 = s.link.owe0 + pkt.beats + held.length ∧
      ∃ stamps : List Nat, u.link.qrsts = s.link.qrsts ++ [{ qtag := tag, qmask := mask, covered := stamps }] ∧
        ∀ st, st ∈ stamps ↔ ∃ c ∈ s.cmds, c.stamp = st ∧ c.path = .host ∧ tbit mask c.queue = true ∧ c.aborted = false ∧
          ∀ q ∈ s.link.qrsts, st ∉ q.covered)) ∧
  (∀ (s : State) (dt : Nat) (past rest : List QrstRec), s.Up → s.link.qrsts = past ++ rest →
    (∀ q ∈ past, ∀ st ∈ q.covered, s.cmd? st = none) →
    (∀ q, rest.head? = some q → ∃ st ∈ q.covered, s.cmd? st ≠ none) →
    Completes (.qrstDone dt) s fun t => t.LinkIs { s.link with
      qrsts := rest, out0 := s.link.out0 ++ past.map fun q => .qrst q.qtag q.qmask })

/-! ### Filing -/

/-- A command of the opcodes that wait for COMMAND_START, by CMD packet, local submission or LSW_GO, that passes every check of
R103 is filed: stamped with the next arrival stamp, position and time (R126), waiting, and with its range locked (R128). -/
def Obligations.CommandsAreFiled : Prop :=
  (∀ (s : State) (i : Instr) (op : Nat) (via : CmdVia) (hdr : Header), s.Up → i.submits = some (op, via, hdr) →
    op ≠ 7 → op ≠ 8 → op ≠ 9 → op ≠ 0xA → op ≠ 0xB →
    let a := s.elapse i.dt
    let h := via.header (withOpcode op hdr)
    a.Reached via (withOpcode op hdr) → a.Stamped via.path h → a.filing via.path h = none →
    Completes i s fun t => t.stampNext = s.stampNext + 1 ∧ ∃ d ∈ t.cmds, d.filedAs (a.newCmd via.path h)) ∧
  (∀ (s : State) (dt p : Nat) (v : W64), s.Up →
    let a := s.elapse dt
    let h := (s.proc p).lswHdr
    let op := hbits h 64 8
    op ≠ 7 → op ≠ 8 → op ≠ 9 → op ≠ 0xA → op ≠ 0xB →
    a.WritePasses (.cfg p) Obj.LSW_GO v → v = 1 → a.Reached (.lsw p) h → a.Stamped (.lsw p) h → a.filing (.lsw p) h = none →
    Completes (.lswGo dt (.cfg p) v) s fun t => t.stampNext = s.stampNext + 1 ∧ (t.proc p).lswResult = 0 ∧
      (t.proc p).lswSeq = (s.proc p).lswSeq + 1 ∧ ∃ d ∈ t.cmds, d.filedAs (a.newCmd (.lsw p) h))

/-- The commands that act at filing: a FENCE with nothing before it completes at once (R137); a STREAM_OPEN that the plan admits
opens its stream and waits for the frame that activates its table (R58, R112); a STREAM_CLOSE waits for the next frame
(R113); MODE and PARK are mode requests (R28). -/
def Obligations.ActsAtFiling : Prop :=
  (∀ (s : State) (dt : Nat) (via : CmdVia) (hdr : Header), s.Up → via.path = .host →
    let a := s.elapse dt
    let h := via.header (withOpcode 7 hdr)
    a.Reached via (withOpcode 7 hdr) → a.Stamped .host h → a.filing .host h = none → s.cmds = [] → s.deferred = [] →
    Completes (.fence dt via hdr) s fun t =>
      t.link.out0 = s.link.out0 ++ [.resp (hbits h 48 6) (hbits h 32 16) stOk false 0 s.stampNext]) ∧
  (∀ (s : State) (dt : Nat) (via : CmdVia) (hdr : Header) (p : Plan), s.Up → via.path = .host →
    let a := s.elapse dt
    let h := via.header (withOpcode 8 hdr)
    let i := hbits h 96 3
    a.Reached via (withOpcode 8 hdr) → a.Stamped .host h → a.filing .host h = none → s.activation = none → s.streams.length = 8 →
    a.plan s.modes.current
      (a.planStreams ++ [{ s := i, unit := hbits h 54 4, bytes := hbits h 128 32, period := hbits h 160 32 }]) = .inr p →
    Completes (.streamOpen dt via hdr) s fun t => (t.stream i).isOpen = true ∧ (t.stream i).completed = false ∧
      (t.stream i).queue = hbits h 48 6 ∧ t.orbit.opens = s.orbit.opens ++ [s.stampNext]) ∧
  (∀ (s : State) (dt : Nat) (via : CmdVia) (hdr : Header), s.Up → via.path = .host →
    let a := s.elapse dt
    let h := via.header (withOpcode 9 hdr)
    a.Reached via (withOpcode 9 hdr) → a.Stamped .host h → a.filing .host h = none →
    Completes (.streamClose dt via hdr) s fun t => t.orbit.closes = s.orbit.closes ++ [s.stampNext]) ∧
  (∀ (s : State) (dt : Nat) (via : CmdVia) (hdr : Header), s.Up → via.path = .host →
    let a := s.elapse dt
    let h := via.header (withOpcode 0xB hdr)
    let m := Mode.ofNum (hbits h 96 8)
    let cur := s.modes.current
    a.Reached via (withOpcode 0xB hdr) → a.Stamped .host h → a.filing .host h = none → s.prot.pfail = false →
    cur = .openMode ∨ cur = .offload ∨ cur = .service → m = .openMode ∨ m = .offload ∨ m = .service → m ≠ cur →
    Completes (.mode dt via hdr) s fun t => t.modes.current = m ∧ t.modes.pending = none) ∧
  (∀ (s : State) (dt : Nat) (via : CmdVia) (hdr : Header), s.Up → via.path = .host →
    let a := s.elapse dt
    let h := via.header (withOpcode 0xA hdr)
    let cur := s.modes.current
    a.Reached via (withOpcode 0xA hdr) → a.Stamped .host h → a.filing .host h = none → s.prot.pfail = false →
    cur = .openMode ∨ cur = .offload ∨ cur = .service →
    Completes (.park dt via hdr) s fun t => t.modes.current = cur ∧
      t.modes.pending = some { mode := .park, cmd := some s.stampNext } ∧ t.modes.parkEntry = true)

/-- A host command that fails a check of steps 3 to 9 of R103 completes with the status and INFO of the first check that
fails, in a RESP under its stamp; one that names an outstanding command's (QUEUE, CID) is answered with INVALID_FIELD and
DUP_CID and is neither stamped nor filed (R80). A CMD packet with a nonzero PLEN, otherwise well-formed as to its reserved
bits, fails step 5 with INVALID_FIELD, reason 14, whatever its opcode (R105). A CMD that cannot be filed yet waits in the
receive buffer, in order, its space taken (R79); a CMD packet that would pass in UP is dropped with code 2 before, and in DOWN,
with no CRDT heard there, it is not heard (R73). -/
def Obligations.RefusedAtFiling : Prop :=
  (∀ (s : State) (i : Instr) (op : Nat) (via : CmdVia) (hdr : Header) (status info : Nat), s.Up →
    i.submits = some (op, via, hdr) → via.path = .host →
    let a := s.elapse i.dt
    let h := via.header (withOpcode op hdr)
    a.Reached via (withOpcode op hdr) → a.Stamped .host h → a.filing .host h = some (status, info) →
    Completes i s fun t => t.stampNext = s.stampNext + 1 ∧
      .resp (hbits h 48 6) (hbits h 32 16) status false info s.stampNext ∈ t.link.out0) ∧
  (∀ (s : State) (i : Instr) (op : Nat) (via : CmdVia) (hdr : Header) (c : Cmd), s.Up →
    i.submits = some (op, via, hdr) → via.path = .host →
    let a := s.elapse i.dt
    let h := via.header (withOpcode op hdr)
    a.Reached via (withOpcode op hdr) → c ∈ s.cmds → c.queue = hbits h 48 6 → c.cid = hbits h 32 16 →
    Completes i s fun t => t.stampNext = s.stampNext ∧ t.cmds = s.cmds ∧
      t.link.out0 = s.link.out0 ++ [.resp (hbits h 48 6) (hbits h 32 16) stInvalidField true (infoField 12 4) 0]) ∧
  (∀ (s : State) (c : Cmd), hbits c.hdr 16 16 ≠ 0 →
     s.fieldCheck c = some (infoField 14 2) ∨ ∃ b, s.fieldCheck c = some (infoField 1 b)) ∧
  (∀ (s : State) (i : Instr) (op : Nat) (via : CmdVia) (hdr : Header), s.Up → i.submits = some (op, via, hdr) →
     via.path = .host → s.prot.ready = true →
     let a := s.elapse i.dt
     let p := via.packet (withOpcode op hdr)
     let h := via.header (withOpcode op hdr)
     let good := ({ a with link := { a.link with st := 3 } }).packetFault { p with hdr := h } = none
     (s.link.st = 3 → a.Takes 1 0 none p → s.link.held ≠ [] ∨ a.canFile h = false → Completes i s fun t =>
       t.LinkIs { s.link with held := s.link.held ++ [h], rx0 := s.link.rx0 + p.beats } ∧ t.cmds = s.cmds) ∧
     (s.link.st = 0 → s.link.heard = false → Completes i s fun t => t.LinkIs s.link ∧ t.cmds = s.cmds) ∧
     (s.link.st ≠ 3 → a.Listens 1 → a.Framed 1 p → good → Completes i s fun t =>
       t.link.lastError = 2 ∧ t.link.st = s.link.st ∧ t.cmds = s.cmds))

/-- What the shallow link rows leave as it is: LINK_READY, LINK_ECHO, QRST_DONE change the link alone, but for a dropped
packet's counters; CREDIT_RETURN and HOST_LINK_STALL the link and HL_ERR. Filing changes no operation, codeword read, buffer
port, transfer, interrupt or microcode state, and not the raster; from the host path it changes no processor's bank and not
the configuration port's answer. -/
def Obligations.LinkAndFilingFrame : Prop :=
  (∀ (s t : State) (dt : Nat), s.Inv → exec (.linkReady dt) s = .next t → Untouched [.link, .dict] s t) ∧
  (∀ (s t : State) (dt : Nat), s.Inv → exec (.qrstDone dt) s = .next t → Untouched [.link] s t) ∧
  (∀ (s t : State) (dt a b : Nat), s.Inv → exec (.creditReturn dt a b) s = .next t →
    Untouched [.link, .dict] s t ∧ DictKept [Obj.HL_ERR.at 15 0] s t) ∧
  (∀ (s t : State) (dt : Nat), s.Inv → exec (.hostLinkStall dt) s = .next t → Untouched [.link] s t) ∧
  (∀ (s t : State) (i : Instr) (op : Nat) (via : CmdVia) (hdr : Header), s.Inv → i.submits = some (op, via, hdr) →
     (via.path = .host → s.link.st = 3 ∧ (s.elapse i.dt).Framed 1 (via.packet hdr)) → exec i s = .next t →
     ∀ f, f ∈ [Field.raster, .jobs, .rebuilds, .tokens, .blockLocks, .pins, .ctxs, .clusters, .activation, .nqs, .ce, .ports,
       .ints, .xfers, .cfg, .fn, .frozen, .hostCws, .origins, .nextVer, .walking, .running, .interimBlocks, .stallFrom,
       .lostDies, .comet, .codes, .codeErr, .calLast, .calSnapFrom] ++ (if via.path = .host then [.procs] else []) → f.same s t)

/-! ### Starts and media work -/

/-- COMMAND_START: a filed command that the order rules let start takes the first step of its opcode, and the work that
follows. The maintenance commands are started with the work they have to do; a WRITE draws the buffers of its first window as far
as the write cache has room (R88, R121); a FLUSH and a REPLAY_SCAN are started; a DISCARD of the host takes effect whole, and its
RESP says OK where no deferred error waits (R205); a RAW_PROGRAM out of the block's page order ends with PROG_ORDER or PROG_TWICE
(R356); a READ that needs one reference more to a buffer whose COUNT is 255 waits, counted once (R414); an ACTIVATE_MICROCODE that is
not refused begins to quiesce its clusters (R152, R401). Where there is no such command or it may not start, nothing happens: none
may that is not waiting, that acts at filing, that would need the media in PARK (R33), that follows a power failure and is neither
FLUSH nor DISCARD, or that is a second ACTIVATE_MICROCODE. WRITE_ACCEPT: a started WRITE with all of its data whose range no earlier
command holds is accepted: its codewords count as accepted host codewords and take the next write sequence numbers, its granules
become the next versions, and a FUA WRITE waits for them with its lock and its buffers given over (R138, R141). Before that, or
after a power failure, nothing happens. -/
def Obligations.StartRowsComplete : Prop :=
  (∀ (s : State) (dt st : Nat) (c : Cmd), s.Up →
    let a := s.elapse dt
    let u := a.startCmd c
    let p := c.ppa
    let k := classPerPage (a.ledger (ppaBlk p)).cls
    let n := (a.rawNextOf (ppaBlk p))
    a.cmd? st = some c → a.startable c = true →
    RunsTo (.commandStart dt st) s u.progress ∧
    (c.opcode = 0x21 ∨ c.opcode = 0x22 ∨ c.opcode = 0x27 → u.cmd? st = some { c with phase := .started, work := [] }) ∧
    (c.opcode = 0x20 → u.cmd? st = some { c with
      phase := .started, drawn := ppaPage p * k, sent := if c.count = 0 then 0 else (ppaPage p + c.count) * k }) ∧
    (c.opcode = 0x26 → u.cmd? st = some { c with phase := .started, drawn := 0, sent := 0 }) ∧
    (c.opcode = 0x24 → u.cmd? st = some { c with
      phase := .started, work := (List.range c.count).map fun i => (ppaDie p, ppaPlane p, ppaBlock p + i) }) ∧
    (c.opcode = 0x25 → u.cmd? st = some { c with
      phase := .started
      work := (if tbit c.subop 0 then [(ppaDie p, 0, 0)] else []) ++ (if tbit c.subop 1 then [(ppaDie p, 1, 0)] else []) }) ∧
    (c.opcode = 0x29 → ∃ d, u.cmd? st = some d ∧ d.phase = .started ∧ d.hdr = c.hdr) ∧
    (c.opcode = 2 → c.drawn = 0 → 0 < a.dataLen c → a.windowsAhead c < a.objN Obj.XRDY_AHEAD →
      (∀ w ∈ a.windowKeys c 0 (a.windowLen c 0), a.drawnKey c w = false) →
      a.cacheFits c (a.windowKeys c 0 (a.windowLen c 0)).length = true → c.path = .host →
      ∃ d, u.cmd? st = some d ∧ d.phase = .started ∧ d.hdr = c.hdr ∧ a.windowLen c 0 ≤ d.drawn) ∧
    (c.opcode = 3 → u = (a.updCmd st fun d => { d with phase := .started }).advance) ∧
    (c.opcode = 4 → c.path = .host → s.link.st = 3 → s.deferred = [] →
      .resp c.queue c.cid stOk false 0 st ∈ u.link.out0) ∧
    (c.opcode = 0x23 → c.path = .host → s.link.st = 3 → ppaPage p ≠ 0 →
      (n = none → .resp c.queue c.cid stProgOrder false (ppaPage p) st ∈ u.link.out0) ∧
      (∀ m, n = some m → ppaPage p < m → .resp c.queue c.cid stProgTwice false (ppaPage p) st ∈ u.link.out0) ∧
      (∀ m, n = some m → m < ppaPage p →
        .resp c.queue c.cid stProgOrder false (ppaPage p + m * 65536) st ∈ u.link.out0)) ∧
    (c.opcode = 1 → c.counted = 0 → (∃ h ∈ a.readHandles c (a.resolve c), (a.bufDesc h.2).count = 255) →
      u.cmd? st = some { c with counted := 1 } ∧
      u.obj Obj.BUF_REF_FULL = (a.bump Obj.BUF_REF_FULL).obj Obj.BUF_REF_FULL) ∧
    (c.opcode = 0x2A → c.force = true ∨ a.streamOpen = false → Completes (.commandStart dt st) s fun t =>
      ∃ x, t.activation = some x ∧ x.stamp = c.stamp ∧ x.startedAt = a.now ∧
        ∀ k ∈ x.mask, (mapGetD t.clusters k {}).quiescing = true)) ∧
  (∀ (s : State) (dt st : Nat), s.Up →
    (∀ c, (s.elapse dt).cmd? st = some c → (s.elapse dt).startable c = false) → NoEffect (.commandStart dt st) s) ∧
  (∀ (s : State) (c : Cmd),
    c.phase ≠ .waiting ∨ c.opcode ∈ [7, 8, 9, 0xA, 0xB] ∨ (s.modes.current = .park ∧ s.needsMedia c = true) ∨
      (s.prot.pfail = true ∧ c.opcode ≠ 3 ∧ c.opcode ≠ 4) ∨ (c.opcode = 0x2A ∧ s.activation ≠ none) → s.startable c = false) ∧
  (∀ (s : State) (dt st : Nat) (c : Cmd), s.Up →
    let a := s.elapse dt
    let r := a.granules c
    let total := (r.2 + 1 - r.1) * a.unitSectors c.unit
    let u := a.acceptWrite c
    a.cmd? st = some c → a.mayAccept c = true →
    RunsTo (.writeAccept dt st) s u.progress ∧
    (Completes (.writeAccept dt st) s fun t => t.hostCws = s.hostCws + total) ∧
    (c.fua = true ∨ s.deferred = [] → u.objN Obj.ORD_WRITE_SEQ = (a.objN Obj.ORD_WRITE_SEQ + total) % 2 ^ 56) ∧
    ((∀ g, r.1 ≤ g → g ≤ r.2 → ∃ b ∈ c.bufs, b.1 = g) → u.nextVer = s.nextVer + (r.2 + 1 - r.1)) ∧
    (c.fua = true → ∀ d, u.cmd? st = some d →
      d.phase = .accepted ∧ d.locked = false ∧ d.bufs = [] ∧
        d.work = (List.range (r.2 + 1 - r.1)).map fun k => (0, s.nextVer + k, 0))) ∧
  (∀ (s : State) (dt st : Nat), s.Up →
    (∀ c, (s.elapse dt).cmd? st = some c →
      c.opcode ≠ 2 ∨ c.phase ≠ .started ∨ (s.elapse dt).dataWhole c = false ∨ s.prot.pfail = true) →
    NoEffect (.writeAccept dt st) s)

/-- Buffer waits: BUF_WAIT_TIMEOUT ends a command whose wait has run its limit with DATA_TIMEOUT, cause 1, and its requests leave the
wait lists (R106, R412). BUF_GRANT grants the winner of a pool: its oldest request in time leaves the list, a command's buffer goes
to the command (R412), and a parity spill takes all of its buffers at once (R182). PAR_SPILL spills an accumulator that has been idle
for PAR_SPILL_NS, and counts it, or asks for its buffers where they cannot all be had (R182). RO_WAIT_EXPIRED makes a READ stage what
has waited RO_WAIT_NS for a reorder slot in a cluster (R304). Where nothing has waited so long, nothing happens. -/
def Obligations.WaitRowsComplete : Prop :=
  (∀ (s : State) (dt st p : Nat) (w : BufReq) (c : Cmd), s.Up →
    let a := s.elapse dt
    let u := a.waitTimeout st
    (∃ x, (p, x) ∈ s.pools ∧ w ∈ x.waits) → a.userCmd w.user = some st → a.waitOver w = true →
    a.cmd? st = some c → c.isEnded = false →
    RunsTo (.bufWaitTimeout dt st) s u.progress ∧
    (∀ x ∈ u.pools, ∀ v ∈ x.2.waits, a.userCmd v.user ≠ some st) ∧
    (c.path = .host → s.link.st = 3 → .resp c.queue c.cid stDataTimeout false
      (1 + 0xFFFF * 65536 + (if c.opcode = 2 ∨ c.opcode = 0x23 then c.granted % 2 ^ 32 else 0) * 2 ^ 32) st ∈ u.link.out0)) ∧
  (∀ (s : State) (dt st : Nat), s.Up →
    (∀ x ∈ s.pools, ∀ w ∈ x.2.waits, s.userCmd w.user = some st → (s.elapse dt).waitOver w = false) →
    NoEffect (.bufWaitTimeout dt st) s) ∧
  (∀ (s : State) (dt p r : Nat) (w : BufReq), s.Up → p < 5 →
    let a := s.elapse dt
    let live := (s.pool p).waits.filter fun v => !(a.waitOver v)
    let u := a.grantOne p
    a.bufWinner p (distinct (live.map fun v => v.requester)) = some r → (live.find? fun v => v.requester == r) = some w →
    RunsTo (.bufGrant dt p) s u.progress ∧
    (∀ st g c, w.user = .write st g → s.cmd? st = some c → c.isEnded = false → c.aborted = false →
      (u.pool p).waits = (s.pool p).waits.erase w ∧ ∃ h, u.cmd? st = some { c with bufs := c.bufs ++ [(g, h)] }) ∧
    (∀ st k c, w.user = .raw st k → s.cmd? st = some c → c.isEnded = false → c.aborted = false →
      (u.pool p).waits = (s.pool p).waits.erase w ∧ ∃ h, u.cmd? st = some { c with bufs := c.bufs ++ [(k, h)] }) ∧
    (∀ st k c, w.user = .stage st k → s.cmd? st = some c → c.isEnded = false → c.aborted = false →
      (u.pool p).waits = (s.pool p).waits.erase w ∧ ∃ h, u.cmd? st = some { c with bufs := c.bufs ++ [(2 ^ 32 + k, h)] }) ∧
    (∀ sb, w.user = .spill sb → (a.spillRow sb).2 = true → u = ((a.spillRow sb).1.noteWinner p r).dropWait p w)) ∧
  (∀ (s : State) (dt p : Nat), s.Up → 5 ≤ p → NoEffect (.bufGrant dt p) s) ∧
  (∀ (s : State) (dt sb : Nat) (b : OpenSb) (r : Row), s.Up →
    let a := s.elapse dt
    let u := (a.spillRow sb).1
    a.openSb? sb = some b → b.row = some r → r.spilled = [] → r.accAt + a.objN Obj.PAR_SPILL_NS ≤ a.now →
    ((a.spillRow sb).2 = true → RunsTo (.parSpill dt sb) s u.progress ∧
      u.obj Obj.PAR_SPILLS = (a.bump Obj.PAR_SPILLS).obj Obj.PAR_SPILLS ∧
      ∀ x, u.openSb? sb = some x → ∃ y, x.row = some y ∧ y.spilled ≠ []) ∧
    ((a.spillRow sb).2 = false → a.accBytes b ≠ 0 → (∀ w ∈ (s.pool 4).waits, w.user ≠ .spill sb) →
      RunsTo (.parSpill dt sb) s (a.bufWait 4 18 (.spill sb) none))) ∧
  (∀ (s : State) (dt sb : Nat), s.Up →
    (∀ b r, (s.elapse dt).openSb? sb = some b → b.row = some r →
      r.spilled ≠ [] ∨ (s.elapse dt).now < r.accAt + (s.elapse dt).objN Obj.PAR_SPILL_NS) → NoEffect (.parSpill dt sb) s) ∧
  (∀ (s : State) (dt st k : Nat) (c : Cmd) (w : Nat × Nat × Nat), s.Up →
    let a := s.elapse dt
    let late (w : Nat × Nat × Nat) : Bool := w.1 == k && w.2.2 == 0 && decide (w.2.1 + a.objN Obj.RO_WAIT_NS ≤ a.now)
    a.cmd? st = some c → c.opcode = 1 → c.isEnded = false → c.aborted = false → w ∈ c.work → late w = true →
    RunsTo (.roWaitExpired dt st k) s
      ((a.updCmd st fun d => { d with work := d.work.map fun x => if late x then (x.1, x.2.1, 1) else x }).issueRead st)) ∧
  (∀ (s : State) (dt st k : Nat), s.Up →
    (∀ c, s.cmd? st = some c → c.opcode ≠ 1 ∨ ∀ w ∈ c.work, w.1 ≠ k ∨ w.2.2 ≠ 0 ∨
      (s.elapse dt).now < w.2.1 + (s.elapse dt).objN Obj.RO_WAIT_NS) → NoEffect (.roWaitExpired dt st k) s)

/-- Status and data from the dies. PROGRAM_DONE and ERASE_DONE end the program or erase that a die runs, once it has been confirmed and
its latest status read has shown ready, with the FAIL bit of that status: the operation leaves its die, whose context is idle or holds
the token of the operation it was run in front of (R241, R383, R390); a good page of a RAW_PROGRAM counts for its command, and a failed
one ends it UNCORRECTABLE with the page (R356). Before that nothing happens. CODEWORD_DECODED: the decode of a codeword that has come
from its die ends, a soft one with its soft decoder: what was given up, a page as sensed, and a codeword that a READ or a merge takes as
decoded and with the metadata it needs, leave the reads (R151, R285, R307, R369); with no data come, nothing happens. COMET_READ: a
stream that runs ahead asks for the codewords of its next granule, or stops where that granule's entry is not MEDIA (R248, R249);
one that is not running, run-ahead switched off, or a power failure: nothing happens. -/
def Obligations.MediaStatusCompletes : Prop :=
  (∀ (s : State) (i : Instr) (dt : Nat) (die : DieNo) (good : Bool) (o : DieOp), s.Up →
    let a := s.elapse dt
    let ends (o : DieOp) : Bool := o.die == die && o.started && !o.suspended && !o.resetting && o.confirmed && o.shownReady
      && tbit o.status.toNat 0 == !good
    let u := (a.opDone o good).leaveCtx die o.id
    (i = .programDone dt die good ∧ (s.ops.find? fun o => ends o && o.kind.programs) = some o) ∨
      (i = .eraseDone dt die good ∧ (s.ops.find? fun o => ends o && o.kind.erases) = some o) →
    RunsTo i s u.progress ∧
    (o.id < s.nextOp → ∀ x ∈ u.ops, x.id ≠ o.id) ∧
    (∀ c, s.ctxOf die = some c → c.op = some o.id →
      (c.token = none → Completes i s fun t => t.ctxOf die = none) ∧
      (∀ k, c.token = some k → Completes i s fun t => ∃ x, t.ctxOf die = some x ∧ x.run = 4 ∧ x.kind = k.kind ∧ x.cws = 0)) ∧
    (∀ st c, o.kind = .rawProgram st → s.cmd? st = some c → c.isEnded = false → c.aborted = false →
      (good = true → u.cmd? st = some { c with sent := c.sent + 1 }) ∧
      (good = false → c.path = .host → s.link.st = 3 →
        .resp c.queue c.cid stUncorrectable false (ppaPage c.ppa + c.sent) st ∈ u.link.out0))) ∧
  (∀ (s : State) (i : Instr) (dt : Nat) (die : DieNo) (good : Bool), s.Up →
    i = .programDone dt die good ∨ i = .eraseDone dt die good →
    (∀ o ∈ s.ops, o.die = die → o.started = false ∨ o.suspended = true ∨ o.resetting = true ∨ o.confirmed = false ∨
      o.shownReady = false ∨ tbit o.status.toNat 0 = good) → NoEffect i s) ∧
  (∀ (s : State) (dt job : Nat) (j : Job), s.Up →
    let a := s.elapse dt
    let u := a.codeword j
    s.job? job = some j → j.arrived = true → j.softStep = 0 ∨ j.isPage = true ∨ j.soft = true →
    RunsTo (.codewordDecoded dt job) s u.progress ∧
    (a.givenUp j = true → u.job? job = none) ∧
    (j.isPage = true → u.job? job = none) ∧
    (∀ p, p = padTo 4112 (randomize j.ppa (padTo 4112 (a.decodeJob j).payload)) → (a.decodeJob j).satisfied = true →
      a.metaOk j p = true → (∃ st rel, j.purpose = .read st rel) ∨ (∃ v k, j.purpose = .merge v k) →
      u.job? job = none ∧
      ∀ v k x, j.purpose = .merge v k → a.givenUp j = false → u.version? v = some x → ∀ m ∈ x.merge, m.sector ≠ k)) ∧
  (∀ (s : State) (dt job : Nat), s.Up →
    (∀ j, s.job? job = some j → j.arrived = false ∨ (j.softStep ≠ 0 ∧ j.isPage = false ∧ j.soft = false)) →
    NoEffect (.codewordDecoded dt job) s) ∧
  (∀ (s : State) (dt id : Nat) (x : CometStream), s.Up →
    let a := s.elapse dt
    let n := a.unitSectors x.unit
    let g := max x.ahead (x.next / n)
    let e := a.mapEntry x.unit g
    let u := a.runAhead x
    (s.comet.find? fun y => y.id == id) = some x → tbit a.cometCtrl 0 = true → x.running = true →
    a.unitEnabled x.unit = true → s.prot.pfail = false → a.exclusiveAtWork = false →
    RunsTo (.cometRead dt id) s u.progress ∧
    (g * n < a.objN Obj.UNIT_CAPACITY 0 x.unit → (∀ k, x.stopped = some k → k < x.next / n) →
      a.cometBytes x.id + 4096 * n ≤ a.cometDepth →
      (entryState e ≠ 1 → Completes (.cometRead dt id) s fun t =>
        t.comet = s.comet.map fun y => if y.id == x.id then { y with stopped := some g } else y) ∧
      (entryState e = 1 → a.mediaGood x.unit e = true → a.diePresent (ppaDie (entryLoc e)) = true →
        (∀ h ∈ s.cometHeld, h.unit ≠ x.unit ∨ h.granule ≠ g) →
        a.cometSpace x.unit n (dieCluster (ppaDie (entryLoc e))) ≠ none →
        (Completes (.cometRead dt id) s fun t =>
          t.comet = s.comet.map fun y => if y.id == x.id then { y with ahead := g + 1 } else y) ∧
        ∃ h ∈ u.cometHeld, h.stream = x.id ∧ h.unit = x.unit ∧ h.granule = g ∧ h.entry = w64 e ∧ h.got = []))) ∧
  (∀ (s : State) (dt id : Nat), s.Up →
    tbit (s.elapse dt).cometCtrl 0 = false ∨ s.prot.pfail = true ∨ (s.elapse dt).exclusiveAtWork = true ∨
      (∀ x ∈ s.comet, x.id = id → x.running = false) → NoEffect (.cometRead dt id) s)

/-! ### Placement -/

/-- Firmware's placement registers (R169, R170, R195): BLOCK_RETIRE and BLOCK_CLASS_SET change the ledger entry of a block that
is FREE_UNCHECKED or FREE_READY and refuse any other; MAP_UNDERLAY answers the entry below a BUFFER entry; MAP_SAFE_SEQ is read;
BLOCK_RETIRE counts in RETIRED_COUNT. -/
def Obligations.PlacementRegistersComplete : Prop :=
  (∀ (s : State) (dt : Nat) (path : DictPath) (v : W64), s.Up → s.Inv →
    let a := s.elapse dt
    let b := ppaBlk v.toNat
    a.WritePasses path Obj.BLOCK_RETIRE v →
    (a.mayChange v.toNat = true → Completes (.blockRetire dt path v) s fun t =>
      t.mem = (((a.updLedger b fun e => { e with state := lsRetired }).bump Obj.RETIRED_COUNT).checkFree (a.ledger b).sb).mem ∧
      t.obj Obj.RETIRED_COUNT = (a.bump Obj.RETIRED_COUNT).obj Obj.RETIRED_COUNT ∧ t.Answers path rcOk) ∧
    (a.mayChange v.toNat = false → Completes (.blockRetire dt path v) s fun t => t.mem = s.mem ∧ t.Answers path rcRange)) ∧
  (∀ (s : State) (dt : Nat) (path : DictPath) (v : W64), s.Up → s.Inv →
    let a := s.elapse dt
    let b := ppaBlk v.toNat
    let c := ppaClass v.toNat
    let old := (a.ledger b).cls
    a.WritePasses path Obj.BLOCK_CLASS_SET v →
    (a.mayChange v.toNat = true → c ≤ 4 → a.dieRuns b.die c = true → ¬((old = 2 ∨ old = 4) ∧ c ≠ 2 ∧ c ≠ 4) →
      Completes (.blockClassSet dt path v) s fun t =>
        t.mem = (a.updLedger b fun e => { e with cls := c, code := a.classCode c }).mem ∧ t.Answers path rcOk) ∧
    (a.mayChange v.toNat = false ∨ 4 < c ∨ a.dieRuns b.die c = false ∨ ((old = 2 ∨ old = 4) ∧ c ≠ 2 ∧ c ≠ 4) →
      Completes (.blockClassSet dt path v) s fun t => t.mem = s.mem ∧ t.Answers path rcRange)) ∧
  (∀ (s : State) (dt : Nat) (path : DictPath) (e : W64), s.Up →
    let a := s.elapse dt
    a.WritePasses path Obj.MAP_UNDERLAY e → Completes (.mapUnderlay dt path e) s fun t =>
      t.obj Obj.MAP_UNDERLAY = w64 (a.underlay e.toNat) ∧ t.Answers path rcOk) ∧
  (∀ (s : State) (dt : Nat) (path : DictPath), s.Up →
    let a := s.elapse dt
    a.ReadPasses path Obj.MAP_SAFE_SEQ → Completes (.mapSafeSeqRead dt path) s fun t => t.Answers path rcOk a.mapSafeSeq)

/-- The allocator: ALLOC_CTRL's ENABLE, once 1, stays 1, and its rise starts the walk of the ledger (R188), which ends with
the allocator running; requests are answered one at a time, the highest in the order of R192 first: a rescue request with a set of
its die where there is one, a request for a class with an OPEN superblock where a class, a group and a free entry are found. A blank
check gives its verdict: a block found blank becomes FREE_READY, another is counted and erased (R193, R369). AUTO_ERASE erases the
blocks of a RELEASED superblock that the persisted map no longer needs, on each die whose token is free (R211). A die's failure and
RASTER admission: DIE_FAILED makes a PRESENT die a lost one, and RASTER admission stalls (R196, R264); any other it leaves as it is.
ADMISSION_RESUME ends a stall: the last stall is recorded, each lost die has its DIE_LOST notice with its stall, and held grants go
out (R196, R197). Where the conditions do not hold, nothing happens. -/
def Obligations.AllocatorRowsComplete : Prop :=
  (∀ (s : State) (dt : Nat) (path : DictPath) (v : W64), s.Up →
    let a := s.elapse dt
    a.WritePasses path Obj.ALLOC_CTRL v →
    (tbit (a.objN Obj.ALLOC_CTRL) 0 = false → Completes (.allocEnable dt path v) s fun t =>
      t.objN Obj.ALLOC_CTRL = Obj.ALLOC_CTRL.keep v.toNat ∧ t.walking = (tbit v.toNat 0 || s.walking) ∧ t.Answers path rcOk) ∧
    (tbit (a.objN Obj.ALLOC_CTRL) 0 = true → tbit v.toNat 0 = true → Completes (.allocEnable dt path v) s fun t =>
      t.objN Obj.ALLOC_CTRL = Obj.ALLOC_CTRL.keep v.toNat ∧ t.walking = s.walking ∧ t.Answers path rcOk) ∧
    (tbit (a.objN Obj.ALLOC_CTRL) 0 = true → tbit v.toNat 0 = false → Completes (.allocEnable dt path v) s fun t =>
      t.objN Obj.ALLOC_CTRL = a.objN Obj.ALLOC_CTRL ∧ t.walking = s.walking ∧ t.Answers path rcRange)) ∧
  (∀ (s : State) (dt : Nat), s.Up → s.walking = true →
    RunsTo (.allocWalkDone dt) s ({ (s.elapse dt).walkLedger with walking := false, running := true } : State).progress ∧
    Completes (.allocWalkDone dt) s fun t => t.walking = false ∧ t.running = true) ∧
  (∀ (s : State) (dt : Nat), s.Up → s.running = true → s.prot.pfail = false →
    let a := s.elapse dt
    let u := a.answerAlloc
    a.exclusiveAtWork = false →
    RunsTo (.allocRequest dt) s u.progress ∧
    (s.allocReqs = [] → u = a) ∧
    (∀ r, minBy (fun r => r.prio) s.allocReqs = some r →
      let b : State := { a with allocReqs := s.allocReqs.erase r }
      (r.prio = 0 → u.allocReqs = s.allocReqs.erase r ∧ (u.prot.rescue = s.prot.rescue ∨
        ∃ x, u.prot.rescue = s.prot.rescue ++ [x] ∧ x.die = r.die ∧ x.spent = false)) ∧
      (∀ c g ms sets i, r.prio ≠ 0 → r.prio ≠ 4 → b.allocAnswer r = some (c, g, ms, sets) → b.sbFirstFree = some i →
        u.allocReqs = s.allocReqs.erase r ∧
        ∃ x, u.sbs = s.sbs ++ [x] ∧ x.sb = i ∧ x.unit = r.unit ∧ x.maint = r.maint ∧ x.group = g ∧ x.cls = c ∧ x.members = ms))) ∧
  (∀ (s : State) (dt die plane block zeros : Nat), s.Up →
    let a := s.elapse dt
    let b : BlockAddr := { die, plane, block }
    let u := (a.blankVerdict b zeros).1
    a.mayBgCheck b = true →
    RunsTo (.bgBlankCheck dt die plane block zeros) s u.progress ∧
    (zeros ≤ a.objN Obj.BLANK_ZERO_LIMIT → u = a.updLedger b fun e => { e with state := lsFreeReady }) ∧
    (a.objN Obj.BLANK_ZERO_LIMIT < zeros → u.obj Obj.BLANK_FAILS = (a.bump Obj.BLANK_FAILS).obj Obj.BLANK_FAILS ∧
      u.holdsToken die 0 = true ∧ ∃ o ∈ u.ops, o.die = die ∧ o.kind = .erase [b] none)) ∧
  (∀ (s : State) (dt sb : Nat), s.Up → s.running = true → s.modes.current ≠ .recordBurst → s.modes.parkEntry = false →
    s.prot.pfail = false → s.exclusiveRuns = false →
    let a := s.elapse dt
    let u := a.eraseReleased sb
    (sb < a.objN Obj.SB_COUNT → tbit (a.objN Obj.ALLOC_CTRL) 1 = true → a.sbState sb = sbReleased →
      a.sbReleaseSeq sb < a.objN Obj.MAP_PERSISTED_SEQ →
      RunsTo (.autoErase dt sb) s u.progress ∧
      ∀ b ∈ a.sbBlocks sb, (a.ledger b).state ∉ [lsFreeReady, lsFreeUnchecked, lsRetired, lsErasing] →
        a.blockLocked b = false → a.mayBgErase b.die = true →
        ∃ o ∈ u.ops, o.die = b.die ∧ ∃ bs, o.kind = .erase bs none ∧ b ∈ bs) ∧
    (a.objN Obj.SB_COUNT ≤ sb → RunsTo (.autoErase dt sb) s a.eraseInterim.eraseSpent.eraseTorn.progress) ∧
    (sb < a.objN Obj.SB_COUNT → tbit (a.objN Obj.ALLOC_CTRL) 1 = false ∨ a.sbState sb ≠ sbReleased ∨
      a.objN Obj.MAP_PERSISTED_SEQ ≤ a.sbReleaseSeq sb → NoEffect (.autoErase dt sb) s)) ∧
  (∀ (s : State) (i : Instr) (dt die plane block zeros sb : Nat), s.Up →
    (i = .allocWalkDone dt ∧ s.walking = false) ∨
      (i = .allocRequest dt ∧ (s.running = false ∨ s.prot.pfail = true ∨ (s.elapse dt).exclusiveAtWork = true)) ∨
      ((i = .bgBlankCheck dt die plane block zeros ∨ i = .autoErase dt sb) ∧ (s.running = false ∨ s.modes.current = .recordBurst ∨
        s.modes.parkEntry = true ∨ s.prot.pfail = true ∨ s.exclusiveRuns = true)) → NoEffect i s) ∧
  (∀ (s : State) (dt : Nat) (die : DieNo) (cause op : Nat), s.Up → 16 ≤ cause → cause ≤ 20 →
    let a := s.elapse dt
    let u := a.declareFailed die cause (if cause ≤ 18 then op else 0)
    a.diePresent die = true → RunsTo (.dieFailed dt die cause op) s u.progress ∧ u.stallFrom = some a.now ∧
      ∃ n, u.lostDies = s.lostDies ++ [(die, n, a.now)]) ∧
  (∀ (s : State) (dt : Nat) (die : DieNo) (cause op : Nat), s.Up →
    (s.elapse dt).diePresent die = false ∨ cause < 16 ∨ 20 < cause → NoEffect (.dieFailed dt die cause op) s) ∧
  (∀ (s : State) (dt since : Nat), s.Up → s.stallFrom = some since →
    let a := s.elapse dt
    let told (x : Nat × Nat × Nat) : Nat := min 0xFFFFFFFF (a.now - x.2.2)
    (Completes (.admissionResume dt) s fun t => t.stallFrom = none ∧ t.lostDies = []) ∧
    ∃ v : State, RunsTo (.admissionResume dt) s v.grantHeld.progress ∧ v.cmds = s.cmds ∧
      (∀ x ∈ s.lostDies, ∃ n ∈ v.offered, n.kind = 0x40 ∧ n.source = x.1 ∧
        n.body = noticeBody [(2, x.1), (4, x.2.1), (4, told x)]) ∧
      ∀ l x, s.lostDies = l ++ [x] → v.objN Obj.FAULT_STALL_LAST_NS = told x) ∧
  (∀ (s : State) (dt : Nat), s.Up → s.stallFrom = none → NoEffect (.admissionResume dt) s)

/-! ### Channels -/

/-- Enumeration and firmware's failure declarations. ENUM starts enumeration of a channel that is not being initialized, while its
cluster has microcode and no unit is enabled, and is refused else (R230). ENUM_DONE, once nothing started remains on the channel's dies:
where a slot that passed is still to be trained, the channel is TRAINING (R231); else enumeration ends, the channel UP where some slot
passed every check and EMPTY where none did (R230 to R233); before that nothing happens. FAIL_CHANNEL makes the channel FAILED, and it
and CH_DIE_FAIL declare dies failed with cause 21; a PRESENT die that CH_DIE_FAIL names alone is a lost one (R264). Which dies
enumeration leaves PRESENT (R232): a slot that reports nothing fails check 1; two with one unique ID both fail check 7, unless an earlier
check fails; a die with an ID the image has no profile for fails check 8; and a slot that passes has a profile, passed checks 1 to 6 and
has no lane without an eye. -/
def Obligations.EnumerationRowsComplete : Prop :=
  (∀ (s : State) (dt : Nat) (path : DictPath) (ch : ChanNo), s.Up →
    let a := s.elapse dt
    let st := (s.chan ch).st
    a.WritePasses path Obj.CH_CTRL 1 0 ch →
    (st ≠ 1 → st ≠ 2 → a.activeImage (ch / 8) ≠ [] → a.enabledUnits = [] → Completes (.enum dt path ch) s fun t =>
      t.chan ch = { s.chan ch with st := 1 } ∧ t.objN Obj.CH_CTRL 0 ch = 1 ∧ t.Answers path rcOk) ∧
    (st = 1 ∨ st = 2 ∨ a.activeImage (ch / 8) = [] ∨ a.enabledUnits ≠ [] → Completes (.enum dt path ch) s fun t =>
      t.chan ch = s.chan ch ∧ t.objN Obj.CH_CTRL 0 ch = a.objN Obj.CH_CTRL 0 ch ∧ t.Answers path rcRange)) ∧
  (∀ (s : State) (dt : Nat) (ch : ChanNo) (rs : List DieReport), s.Up →
    let a := s.elapse dt
    let verdict := a.judge ch ((List.range 16).map (reportOf rs))
    (s.chan ch).st = 1 ∨ (s.chan ch).st = 2 → (∀ o ∈ s.ops, dieChannel o.die = ch → o.started = false) →
    ((∃ x ∈ verdict, x.2.1 = 0 ∧ x.1.trained = none) → Completes (.enumDone dt ch rs) s fun t =>
      (t.chan ch).st = 2 ∧ (t.chan ch).lockWait = true ∧ (t.chan ch).eyes = [] ∧ t.ops = s.ops ∧ t.dies = s.dies) ∧
    ((∀ x ∈ verdict, x.2.1 = 0 → x.1.trained ≠ none) → LeadsTo (.enumDone dt ch rs) s fun u =>
      ((∃ x ∈ verdict, x.2.1 = 0) → (u.chan ch).st = 3) ∧ ((∀ x ∈ verdict, x.2.1 ≠ 0) → (u.chan ch).st = 6) ∧
      (u.chan ch).enumerated = true ∧ (u.chan ch).training = false ∧ (u.chan ch).trimHold = none)) ∧
  (∀ (s : State) (dt : Nat) (ch : ChanNo) (rs : List DieReport), s.Up →
    ((s.chan ch).st ≠ 1 ∧ (s.chan ch).st ≠ 2) ∨ (∃ o ∈ s.ops, dieChannel o.die = ch ∧ o.started = true) →
    NoEffect (.enumDone dt ch rs) s) ∧
  (∀ (s : State) (dt : Nat) (path : DictPath) (ch : ChanNo), s.Up →
    let a := s.elapse dt
    a.WritePasses path Obj.CH_CTRL 2 0 ch →
    WritesTo (.failChannel dt path ch) s path Obj.CH_CTRL (a.failChannel ch 21).progress rcOk 0 ch ∧
    ((a.failChannel ch 21).chan ch).st = 5) ∧
  (∀ (s : State) (dt : Nat) (path : DictPath) (ch : ChanNo) (mask : W64), s.Up →
    let a := s.elapse dt
    let hit := (List.range 16).filter fun k => tbit (Obj.CH_DIE_FAIL.keep mask.toNat) k
    let u := hit.foldl (fun b k => b.declareFailed (16 * ch + k) 21 0) a
    a.WritePasses path Obj.CH_DIE_FAIL mask 0 ch →
    WritesTo (.chDieFail dt path ch mask) s path Obj.CH_DIE_FAIL u.progress rcOk 0 ch ∧
    ∀ k, hit = [k] → a.diePresent (16 * ch + k) = true →
      u.stallFrom = some a.now ∧ ∃ n, u.lostDies = s.lostDies ++ [(16 * ch + k, n, a.now)]) ∧
  (∀ (s : State) (ch : Nat) (rs : List DieReport) (k : Nat), (∀ r ∈ rs, r.slot ≠ k) →
    s.checkDie ch rs (reportOf rs k) = (1, none)) ∧
  (∀ (s : State) (ch : Nat) (rs : List DieReport) (x y : DieReport), x ∈ rs → y ∈ rs → x.slot ≠ y.slot →
    goodUid x = goodUid y → earlyCheck x = 0 → earlyCheck y = 0 → s.checkDie ch rs x = (7, none) ∧ s.checkDie ch rs y = (7, none)) ∧
  (∀ (s : State) (ch : Nat) (rs : List DieReport) (x : DieReport), earlyCheck x = 0 → s.duplicateUid ch rs x = false →
    imageProfile (s.activeImage (ch / 8)) x.idBytes.toNat = none → s.checkDie ch rs x = (8, none)) ∧
  (∀ (s : State) (ch : Nat) (rs : List DieReport) (x : DieReport × Nat × Option (Nat × Nat)), x ∈ s.judge ch rs →
    x.2.1 ≤ 11 ∧ (x.2.1 = 0 → x.2.2.isSome = true ∧ earlyCheck x.1 = 0 ∧ noEye x.1 = false))

/-- Polls and limits of operations. A status read of the operation that keeps a die busy counts once it is due, and not before: a good
one shows readiness and the status, a bad one is counted and makes the next due, the third in a row gets the die a LUN reset (R241,
R260). A rise of RB_N makes the CE's operations due (R226). A confirmed operation that has not shown ready by its limit gets its die a
LUN reset (R259). The end of a LUN reset is judged: a die not ready is lost; else, with its IDs the same and fewer than three resets in
ten seconds, the reset counts, the die is in use again, and a read that it cut off is made again once (R259, R262). A suspended operation
past its budget, with no read at work on its die, is resumed (R244). Else nothing happens. -/
def Obligations.OperationRowsComplete : Prop :=
  (∀ (s : State) (dt : Nat) (die : DieNo) (status : Byte) (o : DieOp), s.Up →
    let a := s.elapse dt
    let u := a.statusRead o status.toNat
    let now (f : DieOp → DieOp) : List DieOp := s.ops.map fun x => if x.id == o.id then f x else x
    a.busyOp die = some o → o.resetting = false →
    (a.pollIsDue o = true → RunsTo (.statusPoll dt die status) s u.progress ∧
      (a.badStatus o status.toNat = false → u.ops = now fun x =>
        { x with polledAt := some a.now, pollDue := false, badReads := 0
                 shownReady := x.shownReady || tbit status.toNat 6, status := status }) ∧
      (a.badStatus o status.toNat = true → o.badReads < 2 → u.ops = now fun x =>
        { x with polledAt := some a.now, pollDue := true, badReads := x.badReads + 1 }) ∧
      (a.badStatus o status.toNat = true → 2 ≤ o.badReads → (u.die o.die).resetting = true ∧
        ∀ x ∈ u.ops, x.die = o.die → x.started = true → x.resetting = true)) ∧
    (a.pollIsDue o = false → NoEffect (.statusPoll dt die status) s)) ∧
  (∀ (s : State) (dt : Nat) (die : DieNo) (status : Byte), s.Up →
    (∀ o, s.busyOp die = some o → o.resetting = true) → NoEffect (.statusPoll dt die status) s) ∧
  (∀ (s : State) (dt : Nat) (ch : ChanNo) (ce : Nat), s.Up → Completes (.rbRise dt ch ce) s fun t =>
    ce ∈ (t.chan ch).rbN ∧
    t.ops = s.ops.map fun o => if dieChannel o.die = ch ∧ dieSlot o.die / 2 = ce ∧ o.started = true ∧ o.suspended = false
      then { o with pollDue := true } else o) ∧
  (∀ (s : State) (dt : Nat) (die : DieNo) (o : DieOp), s.Up →
    let a := s.elapse dt
    let u := a.timeOut o
    a.busyOp die = some o →
    (o.confirmed = true → o.resetting = false → o.shownReady = false → o.startedAt + a.opLimit o ≤ a.now →
      RunsTo (.dieOpTimeout dt die) s u.progress ∧ (u.die o.die).resetting = true ∧
      ∀ x ∈ u.ops, x.die = o.die → x.started = true → x.resetting = true) ∧
    (o.confirmed = false ∨ o.resetting = true ∨ o.shownReady = true ∨ a.now < o.startedAt + a.opLimit o →
      NoEffect (.dieOpTimeout dt die) s)) ∧
  (∀ (s : State) (dt : Nat) (die : DieNo) (ready : Bool) (id : W64) (uid : BitVec 128), s.Up →
    let a := s.elapse dt
    let u := a.resetEnded die ready id uid
    let times := ((s.die die).resetTimes ++ [a.now]).filter fun t => a.now < t + 10000000000
    ((s.die die).resetting = true → RunsTo (.lunResetDone dt die ready id uid) s u.progress ∧
      (ready = false → a.diePresent die = true → u.stallFrom = some a.now ∧ ∃ n, u.lostDies = s.lostDies ++ [(die, n, a.now)]) ∧
      (ready = true → times.length < 3 → s.obj Obj.DIE_ID (dieSlot die) (dieChannel die) = id → (s.die die).uid = uid →
        ((∀ o ∈ s.ops, o.die = die → o.resetting = false) → u.ops = s.ops ∧
          u.die die = { s.die die with resetting := false, idCheckAt := a.now, resetTimes := times } ∧
          u.obj Obj.DIE_RESETS (dieSlot die) (dieChannel die)
            = (a.bump Obj.DIE_RESETS (dieSlot die) (dieChannel die)).obj Obj.DIE_RESETS (dieSlot die) (dieChannel die)) ∧
        (∀ o, (s.ops.filter fun x => x.die == die && x.resetting) = [o] → o.kind.reads = true → o.retried = false →
          ∃ x ∈ u.ops, x.id = o.id ∧ x.started = false ∧ x.retried = true ∧ x.resetting = false))) ∧
    ((s.die die).resetting = false → NoEffect (.lunResetDone dt die ready id uid) s)) ∧
  (∀ (s : State) (dt : Nat) (die : DieNo) (o : DieOp), s.Up →
    let a := s.elapse dt
    (s.ops.find? fun o => o.die == die && o.suspended) = some o →
    (o.resetting = false → a.suspOver o = true → a.busyOp die = none →
      Completes (.suspendBudgetExpired dt die) s fun t =>
        (∀ x ∈ t.ops, x.id = o.id → x.sent = false) ∧
        ∃ c, t.ctxOf die = some c ∧ c.run = 1 ∧ c.kind = (if o.kind.erases then 20 else 18) ∧ c.op = some o.id) ∧
    (o.resetting = true ∨ a.suspOver o = false ∨ a.busyOp die ≠ none → NoEffect (.suspendBudgetExpired dt die) s))

/-- Channel faults (R263): a PHY fault takes a channel into RECOVERING, its operations cut off: cause 1, LOCKED falling, of a channel that
is UP, causes 2 to 5 of any that is not RECOVERING or FAILED already (the model's choice, log 243); else only the status shown changes.
Recovery within CH_RECOVER_NS brings the channel UP again where it has PRESENT dies, and counts, its trims loaded again; a channel never
enumerated is DOWN again and one without dies EMPTY (the model's choice, log 243). Recovery not ended in that time makes the channel
FAILED. An ID check of a free die that is due makes a die whose IDs have changed a lost one, with cause 19; one whose IDs are the same
is not due again before CH_ID_CHECK_S (R262). -/
def Obligations.ChannelFaultRowsComplete : Prop :=
  (∀ (s : State) (dt : Nat) (ch : ChanNo) (cause phy : Nat), s.Up →
    let st := (s.chan ch).st
    let taken := (cause = 1 ∧ st = 3) ∨ (2 ≤ cause ∧ cause ≤ 5 ∧ st ≠ 4 ∧ st ≠ 5)
    (taken → LeadsTo (.phyFault dt ch cause phy) s fun u =>
      (u.chan ch).st = 4 ∧ (u.chan ch).lastFault = cause ∧ (u.chan ch).phy = phy % 16 ∧
      (u.chan ch).recoverAt = (s.elapse dt).now ∧ (u.chan ch).busOwner = none ∧
      (∀ o ∈ u.ops, dieChannel o.die = ch → o.started = true → o.resetting = true) ∧
      (∀ o ∈ s.ops, dieChannel o.die = ch → o.started = true → (u.die o.die).resetting = true) ∧
      ∀ n, n ≠ ch → u.chan n = s.chan n) ∧
    (¬taken → Completes (.phyFault dt ch cause phy) s fun t =>
      t.chan ch = { s.chan ch with phy := phy % 16 } ∧ t.ops = s.ops)) ∧
  (∀ (s : State) (dt : Nat) (ch : ChanNo), s.Up → (s.chan ch).st = 4 →
    let a := s.elapse dt
    let limit := (s.chan ch).recoverAt + a.objN Obj.CH_RECOVER_NS 0 ch
    (a.now < limit → (LeadsTo (.channelRecoveryDone dt ch) s fun u =>
      (u.chan ch).st = (if (s.chan ch).enumerated = false then 0 else if a.channelDies ch = [] then 6 else 3) ∧
      tbit (u.chan ch).phy 0 = true ∧ (u.chan ch).ce = [] ∧ (u.chan ch).beats = [] ∧
      ((u.chan ch).trimLoad = true ↔ (u.chan ch).trimWords ≠ []) ∧
      u.obj Obj.CH_RETRAINS 0 ch = (a.bump Obj.CH_RETRAINS 0 ch).obj Obj.CH_RETRAINS 0 ch ∧
      ((∀ d ∈ a.channelDies ch, (s.die d).resetting = false) → u.ops = s.ops)) ∧ NoEffect (.recoverTimeout dt ch) s) ∧
    (limit ≤ a.now → RunsTo (.recoverTimeout dt ch) s (a.failChannel ch 20).progress ∧
      ((a.failChannel ch 20).chan ch).st = 5 ∧ NoEffect (.channelRecoveryDone dt ch) s)) ∧
  (∀ (s : State) (i : Instr) (dt : Nat) (ch : ChanNo), s.Up → (s.chan ch).st ≠ 4 →
    i = .channelRecoveryDone dt ch ∨ i = .recoverTimeout dt ch → NoEffect i s) ∧
  (∀ (s : State) (dt : Nat) (die : DieNo) (id : W64) (uid : BitVec 128), s.Up →
    let a := s.elapse dt
    let p := a.objN Obj.CH_ID_CHECK_S 0 (dieChannel die)
    let same := s.obj Obj.DIE_ID (dieSlot die) (dieChannel die) = id ∧ (s.die die).uid = uid
    let due := a.dieFree die = true ∧ p ≠ 0 ∧ (s.die die).idCheckAt + 1000000000 * p ≤ a.now
    (due → ¬same → LeadsTo (.idCheck dt die id uid) s fun u =>
      u.stallFrom = some a.now ∧ ∃ n, u.lostDies = s.lostDies ++ [(die, n, a.now)]) ∧
    (due → same → Completes (.idCheck dt die id uid) s fun t =>
      t.die die = { s.die die with idCheckAt := a.now } ∧ t.ops = s.ops ∧ t.stallFrom = s.stallFrom) ∧
    (¬due → NoEffect (.idCheck dt die id uid) s))

/-- Moon banks (R255 to R257, R329): a write of MB_CTRL clears SHADOW_LATE, and HANDOVER_AT takes 0 or 1; a field write goes to
the bank alone and, while ARM is 1, sets SHADOW_LATE; MB_RL_GEN takes only the value it holds; a hand-over, with nothing waiting
to be armed and no switch pending, puts the bank in force, loads changed trims, clears ARM and counts; without ARM, after a late write,
or with a transaction in progress it does nothing. -/
def Obligations.MoonBankRowsComplete : Prop :=
  (∀ (s : State) (dt : Nat) (path : DictPath) (ch : ChanNo) (v : W64), s.Up →
    let a := s.elapse dt
    let k := Obj.MB_CTRL.keep v.toNat
    a.WritePasses path Obj.MB_CTRL v 0 ch →
    (bits k 1 2 < 2 → (∀ x ∈ s.cal, x.2.hold = none) → (∀ x ∈ s.chans, x.2.trimHold = none) →
      Completes (.mbCtrl dt path ch v) s fun t => t.objN Obj.MB_CTRL 0 ch = k ∧
        t.chan ch = { s.chan ch with shadowLate := false, tickSince := false } ∧ t.Answers path rcOk) ∧
    (2 ≤ bits k 1 2 → Completes (.mbCtrl dt path ch v) s fun t =>
      t.objN Obj.MB_CTRL 0 ch = a.objN Obj.MB_CTRL 0 ch ∧ t.chan ch = s.chan ch ∧ t.Answers path rcRange)) ∧
  (∀ (s : State) (dt : Nat) (path : DictPath) (ch : ChanNo) (k : Nat) (o : Obj) (base : Nat) (v : W64), s.Up →
    let a := s.elapse dt
    k < 16 → (o = Obj.MB_DQ_TRIM ∧ base = 0x10) ∨ (o = Obj.MB_STROBE_TRIM ∧ base = 0x20) ∨ (o = Obj.MB_RL_GEN ∧ base = 0x30) →
    a.WritePasses path o v k ch →
    (o ≠ Obj.MB_RL_GEN ∨ v.toNat = a.objN Obj.MB_RL_GEN k ch → Completes (.mbFieldWrite dt path ch (base + k) v) s fun t =>
      t.objN o k ch = o.keep v.toNat ∧ t.Answers path rcOk ∧ t.obj Obj.DIE_DQ_TRIM k ch = s.obj Obj.DIE_DQ_TRIM k ch ∧
      t.obj Obj.DIE_STROBE_TRIM k ch = s.obj Obj.DIE_STROBE_TRIM k ch ∧
      t.chan ch = { s.chan ch with shadowLate := (s.chan ch).shadowLate || tbit (a.objN Obj.MB_CTRL 0 ch) 0 }) ∧
    (o = Obj.MB_RL_GEN → v.toNat ≠ a.objN Obj.MB_RL_GEN k ch → Completes (.mbFieldWrite dt path ch (base + k) v) s fun t =>
      t.objN o k ch = a.objN o k ch ∧ t.chan ch = s.chan ch ∧ t.Answers path rcRange)) ∧
  (∀ (s : State) (dt : Nat) (ch : ChanNo), s.Up → ch < s.build.channels →
    let a := s.elapse dt
    (a.mayHandOver ch = true → RunsTo (.mbHandover dt ch) s (a.handOver ch).progress) ∧
    (tbit (a.objN Obj.MB_CTRL 0 ch) 0 = false ∨ (s.chan ch).shadowLate = true ∨
      ((s.chan ch).st ∉ [0, 4, 5, 6] ∧ (s.chan ch).busOwner ≠ none) → NoEffect (.mbHandover dt ch) s)) ∧
  (∀ (s : State) (ch : Nat), (∀ x ∈ s.cal, x.2.hold = none ∧ x.2.switchPending = false) →
    (∀ x ∈ s.chans, x.2.trimHold = none ∧ x.2.trimPending = false) → ch < 64 →
    let u := s.handOver ch
    (∀ k, k < 16 → u.obj Obj.DIE_DQ_TRIM k ch = s.obj Obj.MB_DQ_TRIM k ch ∧
      u.obj Obj.DIE_STROBE_TRIM k ch = s.obj Obj.MB_STROBE_TRIM k ch ∧ u.obj Obj.DIE_RL_GEN k ch = s.obj Obj.MB_RL_GEN k ch) ∧
    (u.chan ch).handPos = s.pos ∧ ((u.chan ch).trimLoad = true ↔ (u.chan ch).trimWords ≠ []) ∧
    tbit (u.objN Obj.MB_CTRL 0 ch) 0 = false ∧ u.objN Obj.MB_GENERATION 0 ch = (s.objN Obj.MB_GENERATION 0 ch + 1) % 2 ^ 32 ∧
    u.obj Obj.MB_HANDOVER_TIME 0 ch = w64 s.now)

/-! ### Calibration -/

/-- Triggers (R315 to R317): a poll that is due, on a free die, takes the die's temperature and, while AUTO_RL, AUTO_TRIM and TEMP_TRIG
allow, triggers a run of each kind whose last switch lies CAL_TEMP_DELTA or more away; the age trigger comes once CAL_PERIOD_S has
passed. A die that is not free, or is powered down, is not polled; a period of 0 disables the age trigger. Runs: CALIBRATION_RUN runs
what is due: results that pass wait to be armed, else the run ends with its cause and nothing waits, for read levels (R320 to R323) and
for PHY trims (R324 to R326); where nothing is due, nothing happens. A scan that overruns rejects its run with cause 7 (R319, R326);
results that have waited CAL_HOLD_MS are given up with cause 5, but for the time a snapshot is read (R328). -/
def Obligations.CalibrationRunsComplete : Prop :=
  (∀ (s : State) (dt : Nat) (die : DieNo) (temp : Byte), s.Up →
    let a := s.elapse dt
    let now := if a.dieFlag die 5 then signedOf 8 temp.toNat else signedOf 8 (a.objN Obj.CAL_TEMP_EXT)
    let far (last : Int) : Bool := now != -128 && decide (a.objN Obj.CAL_TEMP_DELTA ≤ (now - last).natAbs)
    a.dieFree die = true → a.tempDue die = true → s.modes.poweredDown = false →
    Completes (.tempPoll dt die temp) s fun t =>
      t.calDie die = { s.calDie die with
        tempNow := now, polledAt := a.now
        trigRl := (s.calDie die).trigRl || (a.calCtrl 0 && a.calCtrl 2 && far (s.calDie die).tempLast) } ∧
      t.chan (dieChannel die) = { s.chan (dieChannel die) with
        trigTrim := (s.chan (dieChannel die)).trigTrim || (a.calCtrl 1 && a.calCtrl 2 && far (s.calDie die).tempTrim) } ∧
      t.die die = { s.die die with mustPoll := false }) ∧
  (∀ (s : State) (dt : Nat) (die : DieNo) (temp : Byte), s.Up →
    (s.elapse dt).dieFree die = false ∨ (s.elapse dt).tempDue die = false ∨ s.modes.poweredDown = true →
    NoEffect (.tempPoll dt die temp) s) ∧
  (∀ (s : State) (dt : Nat) (die : DieNo), s.Up →
    let a := s.elapse dt
    let p := a.objN Obj.CAL_PERIOD_S
    let due := a.diePresent die = true ∧ a.calCtrl 0 = true ∧ a.calCtrl 3 = true ∧ p ≠ 0 ∧
      (s.calDie die).timeLast + 1000000000 * p ≤ a.now
    (due → Completes (.calAgeTrigger dt die) s fun t => t.calDie die = { s.calDie die with trigRl := true }) ∧
    (¬due → NoEffect (.calAgeTrigger dt die) s)) ∧
  (∀ (s : State) (dt : Nat) (die : DieNo) (cmd : Option Nat) (ts : List (DieNo × Byte)) (ms : List BucketMeas)
     (eyes : List EyeWord), s.Up →
    let a := s.elapse dt
    let j := a.judgeLevels die (a.runMoved die ts) ms
    let u := a.runLevels die cmd ts ms
    a.levelsDue die = some cmd → RunsTo (.calibrationRun dt die false ts ms eyes) s u.progress ∧
      (j.1 = 0 → (u.calDie die).hold = some a.now ∧ (u.calDie die).result = j.2 ∧ (u.calDie die).changed = j.2.length) ∧
      (j.1 ≠ 0 → (u.calDie die).hold = none ∧ (u.calDie die).lastCause = j.1) ∧
      (cmd = none → (u.calDie die).trigRl = false)) ∧
  (∀ (s : State) (dt : Nat) (die : DieNo) (cmd : Option Nat) (ts : List (DieNo × Byte)) (ms : List BucketMeas)
     (eyes : List EyeWord), s.Up →
    let a := s.elapse dt
    let n := dieChannel die
    let u := a.runTrims n cmd ts eyes
    let passes := a.channelDies n ≠ [] ∧ (s.chan n).st = 3 ∧
      ∀ d ∈ a.channelDies n, a.runMoved d ts = false ∧ a.slotEyes eyes (dieSlot d) ≠ none
    a.trimsDue n = some cmd → RunsTo (.calibrationRun dt die true ts ms eyes) s u.progress ∧
      (u.chan n).trainMode = 5 ∧ (u.chan n).eyes = eyes ∧ (cmd = none → (u.chan n).trigTrim = false) ∧
      (passes → (u.chan n).trimHold = some a.now ∧ (u.chan n).trimResult.map (fun x => x.1) = (a.channelDies n).map dieSlot) ∧
      (¬passes → (u.chan n).trimHold = none ∧ (u.chan n).trimResult = [])) ∧
  (∀ (s : State) (dt : Nat) (die : DieNo) (trim : Bool) (ts : List (DieNo × Byte)) (ms : List BucketMeas) (eyes : List EyeWord),
    s.Up → (trim = false → (s.elapse dt).levelsDue die = none) → (trim = true → (s.elapse dt).trimsDue (dieChannel die) = none) →
    NoEffect (.calibrationRun dt die trim ts ms eyes) s) ∧
  (∀ (s : State) (dt : Nat) (ch : ChanNo), s.Up →
    let a := s.elapse dt
    (∀ cmd, a.trimsDue ch = some cmd → GoesOn (.eyeScanOverrun dt ch) s fun u =>
      u.chan ch = { s.chan ch with trigTrim := if cmd.isNone then false else (s.chan ch).trigTrim, trimCmd := cmd } ∧
      (u.calDie (a.trimDie ch)).lastCause = 7) ∧
    (a.trimsDue ch = none → NoEffect (.eyeScanOverrun dt ch) s)) ∧
  (∀ (s : State) (dt : Nat) (die : DieNo), s.Up →
    let a := s.elapse dt
    let beyond (h : Option Nat) : Prop := s.calSnapFrom = none ∧ ∃ x, h = some x ∧ x + 1000000 * a.objN Obj.CAL_HOLD_MS ≤ a.now
    (beyond (s.calDie die).hold → (s.chan (dieChannel die)).trimHold = none →
      LeadsTo (.calHoldExpired dt die) s fun u => u = a.dropLevels die 5 ∧ (u.calDie die).hold = none ∧
        (u.calDie die).result = [] ∧ (u.calDie die).lastCause = 5) ∧
    (beyond (s.chan (dieChannel die)).trimHold → (s.calDie die).hold = none →
      LeadsTo (.calHoldExpired dt die) s fun u => u = a.dropTrims (dieChannel die) 5 ∧
        (u.chan (dieChannel die)).trimHold = none ∧ (u.chan (dieChannel die)).trimResult = []) ∧
    (¬beyond (s.calDie die).hold → ¬beyond (s.chan (dieChannel die)).trimHold → NoEffect (.calHoldExpired dt die) s))

/-- A lane passes when its word was returned, its eye is at least CAL_EYE_MIN wide and its error rate is at most CAL_EYE_BER_PPM;
a slot has new trims only where each of its ten lanes passes (R325). -/
def Obligations.LanesPass : Prop :=
  ∀ (s : State) (eyes : List EyeWord) (k : Nat),
    (s.slotEyes eyes k).isSome = true ↔ ∀ l, l < 10 → ∃ w, (eyes.find? fun w => w.slot == k && w.lane == l) = some w ∧
      (s.objN Obj.CAL_EYE_MIN : Int) ≤ w.right - w.left + 1 ∧ w.errors * 1000000 ≤ s.objN Obj.CAL_EYE_BER_PPM * w.samples

/-- Tables and codes: a snapshot is 64 + 2,064 × DIES + 196 × CH_RECORDS bytes long and raises CAL_SNAP_SEQ by 1 (R331); an image
that fails a check of R332 is refused with its result and changes no table, and one that passes makes the records that are not skipped
wait to be armed, with their counts in its result (R332); a code descriptor that passes every check loads its
slot, and the first check that fails is recorded (R281). -/
def Obligations.CalibrationImagesComplete : Prop :=
  (∀ (s : State) (dt : Nat) (path : DictPath), s.Up →
    let a := s.elapse dt
    let n := 64 + 2064 * a.presentDies.length + 196 * ((List.range s.build.channels).filter fun n => (s.chan n).st == 3).length
    a.TransferPasses path Obj.CAL_SNAPSHOT false 1 →
    Completes (.calSnapshotRead dt path) s fun t =>
      t.obj Obj.CAL_SNAP_SEQ = s.obj Obj.CAL_SNAP_SEQ + 1 ∧ t.cal = s.cal ∧ t.Answers path rcOk n) ∧
  (∀ (s : State) (dt : Nat) (path : DictPath) (image : List Byte), s.Up →
    let a := s.elapse dt
    a.TransferPasses path Obj.CAL_SNAPSHOT true image.length →
    (a.restoreCheck image ≠ 1 → Completes (.calRestore dt path image) s fun t =>
      t.objN Obj.CAL_RESTORE_STATUS = a.restoreCheck image ∧ t.cal = s.cal ∧ t.Answers path rcRefused) ∧
    (a.restoreCheck image = 1 → Completes (.calRestore dt path image) s fun t => t.Answers path rcOk ∧
      let recs := (List.range (leAt image 8 2)).map fun i => (image.drop (64 + 2064 * i)).take 2064
      let good := recs.filter fun r => !(a.skipRecord r)
      ∃ u : State, t = a.settle ((u.armAll.account path Obj.CAL_SNAPSHOT.key true rcOk 0).notePrev path Obj.CAL_SNAPSHOT.key true 0) ∧
        u.objN Obj.CAL_RESTORE_STATUS = 1 + (recs.length - good.length) % 2 ^ 12 * 2 ^ 8 + good.length % 2 ^ 12 * 2 ^ 20 ∧
        ∀ r ∈ good, (u.calDie (leAt r 0 2)).hold = some a.now ∧ (u.calDie (leAt r 0 2)).kind = 3)) ∧
  (∀ (s : State) (dt : Nat) (path : DictPath) (code : Nat) (image : List Byte), s.Up → code < 4 →
    let a := s.elapse dt
    let k := descCheck image (tbit (a.objN Obj.ALLOC_CTRL) 0)
    a.TransferPasses path Obj.CODE_DESC true image.length code →
    (k = 0 → Completes (.codeDescWrite dt path code image) s fun t =>
      t.codes = mapPut s.codes code image ∧ t.codeErr = s.codeErr ∧ t.Answers path rcOk) ∧
    (k ≠ 0 → Completes (.codeDescWrite dt path code image) s fun t =>
      t.codes = s.codes ∧ t.codeErr = mapPut s.codeErr code k ∧ t.Answers path rcRefused))

/-! ### Protection, saves, sanitize and power failure -/

/-- PROT_READY ends the pool scan (R344): a system die that passes checks 1 to 6 is usable; with none usable the level is 2 and
NO_SYSTEM_DIE shows; with no block that holds a header the pool is blank and the level 0; with headers and no protection record the level is 2 and RECORD_LOST shows;
else the latest record gives the level, the boot region, the raw area, and SANITIZING as SAN_INTERRUPTED. Once PROT_READY has
risen the row has no effect. -/
def Obligations.PoolScanCompletes : Prop :=
  (∀ (s : State) (dt : Nat) (sys0 sys1 : DieReport) (spent : List Nat) (pages : List PoolPage), s.testMode = false →
    s.phase = .scanning →
    let u0 := earlyCheck sys0 == 0
    let u1 := earlyCheck sys1 == 0
    let ps := scanPages u0 u1 pages
    let recs := scanRecords ps (scanBlocks ps)
    GoesOn (.protReady dt sys0 sys1 spent pages) s fun u =>
      u.phase = .running ∧ u.prot.records = recs ∧ u.prot.pool = scanBlocks ps ∧ u.prot.ready = true ∧ u.prot.usable0 = u0 ∧ u.prot.usable1 = u1 ∧ u.prot.sealed = s.prot.sealed ∧
      (u0 = false → u1 = false → u.prot.level = 2 ∧ u.prot.noSystemDie = true) ∧
      (u0 = true ∨ u1 = true → scanBlocks ps = [] → u.prot.level = 0 ∧ u.prot.poolBlank = true) ∧
      (u0 = true ∨ u1 = true → scanBlocks ps ≠ [] → (∀ r ∈ recs, r.kind ≠ 1) →
        u.prot.level = 2 ∧ u.prot.recordLost = true) ∧
      (∀ r, u0 = true ∨ u1 = true → scanBlocks ps ≠ [] → (recs.find? fun r => r.kind == 1) = some r →
        u.prot.level = min 2 (leAt r.payload 0 1) ∧ u.prot.bootFirst = leAt r.payload 4 2 ∧
        u.prot.bootCount = leAt r.payload 6 2 ∧ u.prot.rawFirst = leAt r.payload 8 2 ∧ u.prot.rawCount = leAt r.payload 10 2 ∧
        u.prot.levelChanges = leAt r.payload 12 4 ∧ (u.prot.sanInterrupted = true ↔ leAt r.payload 1 1 ≠ 0))) ∧
  (∀ (s : State) (dt : Nat) (sys0 sys1 : DieReport) (spent : List Nat) (pages : List PoolPage), s.Up →
    NoEffect (.protReady dt sys0 sys1 spent pages) s)

/-- The protection level rises and never falls by a write: a value above the level in force is written to the pool and then in
force, one more change counted; the level itself changes nothing; a lower value, one during a sanitize sequence, one that the pool
cannot take, and one after a power failure are refused (R348; a value above 2 fails the check of its range). SEAL takes 0x5EA1, once, and no other value
(R353). The boot region and the raw area (R339, R357): BOOT_REGION takes blocks of the raw area alone, and is in force once
its record is written; RAW_AREA starts at block 33 or above and holds the boot region. -/
def Obligations.ProtectionRowsComplete : Prop :=
  (∀ (s : State) (dt : Nat) (path : DictPath) (v : W64), s.Up →
     let a := s.elapse dt
     let n := (s.prot.levelChanges + 1) % 2 ^ 32
     let w := (a.writeProt v.toNat n (s.prot.bootFirst, s.prot.bootCount) (s.prot.rawFirst, s.prot.rawCount)).2
     a.WritePasses path Obj.PROT_LEVEL_RAISE v →
     (s.prot.level < v.toNat → v.toNat ≤ 2 → s.prot.sanRunning = false → s.prot.pfail = false → w = true →
       Completes (.protLevelRaise dt path v) s fun t =>
         t.prot.level = v.toNat ∧ t.prot.levelChanges = n ∧ t.prot.sealed = s.prot.sealed ∧ t.Answers path rcOk) ∧
     (v.toNat = s.prot.level → v.toNat ≤ 2 → s.prot.sanRunning = false → Completes (.protLevelRaise dt path v) s fun t =>
       t.prot = s.prot ∧ t.Answers path rcOk) ∧
     (v.toNat < s.prot.level ∨ 2 < v.toNat ∨ s.prot.sanRunning = true ∨
         (s.prot.level < v.toNat ∧ (s.prot.pfail = true ∨ w = false)) →
       Completes (.protLevelRaise dt path v) s fun t => t.prot = s.prot ∧ t.Answers path rcRange)) ∧
  (∀ (s : State) (dt : Nat) (path : DictPath) (v : W64), s.Up → (s.elapse dt).WritePasses path Obj.SEAL v →
    (v = 0x5EA1 → s.prot.sealed = false → Completes (.seal dt path v) s fun t =>
      t.prot = { s.prot with sealed := true } ∧ t.Answers path rcOk) ∧
    (v ≠ 0x5EA1 ∨ s.prot.sealed = true → Completes (.seal dt path v) s fun t =>
      t.prot = s.prot ∧ t.Answers path rcRange)) ∧
  (∀ (s : State) (dt : Nat) (path : DictPath) (v : W64), s.Up →
    let a := s.elapse dt
    let first := bits v.toNat 16 16
    let count := bits v.toNat 0 16
    let w := (a.writeProt s.prot.level s.prot.levelChanges (first, count) (s.prot.rawFirst, s.prot.rawCount)).2
    let inside := count = 0 ∨ (s.prot.rawFirst ≤ first ∧ first + count ≤ s.prot.rawFirst + s.prot.rawCount)
    a.WritePasses path Obj.BOOT_REGION v →
    (inside → s.prot.pfail = false → w = true → Completes (.bootRegionWrite dt path v) s fun t =>
      t.prot.bootFirst = first ∧ t.prot.bootCount = count ∧ t.prot.rawFirst = s.prot.rawFirst ∧ t.Answers path rcOk) ∧
    (¬inside ∨ s.prot.pfail = true ∨ w = false → Completes (.bootRegionWrite dt path v) s fun t =>
      t.prot = s.prot ∧ t.Answers path rcRange)) ∧
  (∀ (s : State) (dt : Nat) (path : DictPath) (v : W64), s.Up →
    let a := s.elapse dt
    let first := bits v.toNat 16 16
    let count := bits v.toNat 0 16
    let w := (a.writeProt s.prot.level s.prot.levelChanges (s.prot.bootFirst, s.prot.bootCount) (first, count)).2
    let holds := s.prot.bootCount = 0 ∨ (first ≤ s.prot.bootFirst ∧ s.prot.bootFirst + s.prot.bootCount ≤ first + count)
    a.WritePasses path Obj.RAW_AREA v →
    (33 ≤ first → holds → tbit (a.objN Obj.ALLOC_CTRL) 0 = false → s.prot.pfail = false → w = true →
      ∃ u : State, WritesTo (.rawAreaWrite dt path v) s path Obj.RAW_AREA u.progress rcOk ∧ u.prot.rawFirst = first ∧
        u.prot.rawCount = count ∧ u.prot.bootFirst = s.prot.bootFirst ∧ u.prot.level = s.prot.level) ∧
    (first < 33 ∨ ¬holds ∨ s.prot.pfail = true → Completes (.rawAreaWrite dt path v) s fun t =>
      t.prot = s.prot ∧ t.Answers path rcRange))

/-- The boot window (R358 to R361): once sealed it cannot be opened. A fetch beyond the region reads zeros; one in a page that is held is
served from there; another comes from S0 where that serves it, with the page held from then on, else from S1 with FALLBACK, waits while
S0 is busy, and where neither page decodes reads zeros and is counted. One taken before PROT_READY waits (R529); a second fetch and one
not aligned are counted and dropped; a closed window takes none, nor does any after a power failure; a fetch whose die stays busy past
its limit goes to the other one (R360), and none does before. The 64 bytes come as eight beats, in ascending address. -/
def Obligations.BootWindowRowsComplete : Prop :=
  let beats (bs : List Byte) : List W64 := (List.range 8).map fun k => w64 (leAt (padTo 64 bs) (8 * k) 8)
  (∀ (s : State) (dt : Nat) (path : DictPath) (v : W64), s.Up →
    let on := tbit v.toNat 0
    (s.elapse dt).WritePasses path Obj.BW_CTRL v →
    (on = false ∨ s.prot.sealed = false → Completes (.bwCtrlWrite dt path v) s fun t =>
      t.prot = { s.prot with bwOpen := on, bwHeld := [] } ∧ t.Answers path rcOk) ∧
    (on = true → s.prot.sealed = true → Completes (.bwCtrlWrite dt path v) s fun t =>
      t.prot = s.prot ∧ t.Answers path rcRange)) ∧
  (∀ (s : State) (dt addr : Nat) (p0 p1 : Option (List Byte)) (ahead : List (List Byte)), s.Up →
    let a := s.elapse dt
    let i : Instr := .bwFetch dt addr p0 p1 ahead
    let idle (w : Nat) : Prop := a.bootDie w = true ∧ a.bootBusy w = none
    let held := s.prot.bwHeld.find? fun x => x.1 == addr / 16384
    let from_ (w : Nat) (p : List Byte) : Prop := Completes i s fun t =>
      t.prot = { s.prot with bwBeats := beats (p.drop (addr % 16384)), bwFallback := w == 1, bwHeld := t.prot.bwHeld } ∧
      t.prot.bwHeld.head? = some (addr / 16384, w, padTo 16384 p) ∧ t.prot.bwHeld.length ≤ 4
    (s.prot.bwOpen = false ∨ s.prot.pfail = true → NoEffect i s) ∧
    (s.prot.bwOpen = true → s.prot.pfail = false → s.prot.bwPending ≠ none ∨ addr % 64 ≠ 0 → Completes i s fun t =>
      t.prot = s.prot ∧ t.obj Obj.BW_FETCH_ERR = (a.bump Obj.BW_FETCH_ERR).obj Obj.BW_FETCH_ERR) ∧
    (s.prot.ready = true → s.prot.bwOpen = true → s.prot.pfail = false → s.prot.bwPending = none → addr % 64 = 0 →
      (a.bootBytes ≤ addr → Completes i s fun t => t.prot = { s.prot with bwBeats := beats [], bwFallback := false }) ∧
      (∀ x, addr < a.bootBytes → held = some x → Completes i s fun t =>
        t.prot = { s.prot with bwBeats := beats (x.2.2.drop (addr % 16384)), bwFallback := x.2.1 == 1 }) ∧
      (addr < a.bootBytes → held = none →
        (∀ p, idle 0 → p0 = some p → from_ 0 p) ∧
        (∀ p, idle 0 → idle 1 → p0 = none → p1 = some p → from_ 1 p) ∧
        (∀ p, a.bootDie 0 = false → idle 1 → p1 = some p → from_ 1 p) ∧
        (a.bootDie 0 = true → a.bootBusy 0 ≠ none → Completes i s fun t => t.prot = { s.prot with
          bwPending := some { addr, which := 0, since := a.now, page0 := p0, page1 := p1, ahead } }) ∧
        (idle 0 → p0 = none → p1 = none → Completes i s fun t =>
          t.prot = { s.prot with bwBeats := beats [], bwFallback := false } ∧
          t.obj Obj.BW_FETCH_ERR = (a.bump Obj.BW_FETCH_ERR).obj Obj.BW_FETCH_ERR)))) ∧
  (∀ (s : State) (dt addr : Nat) (p0 p1 : Option (List Byte)) (ahead : List (List Byte)), s.testMode = false →
    s.phase = .clearing ∨ s.phase = .scanning →
    s.prot.ready = false → s.prot.bwOpen = true → s.prot.pfail = false → s.prot.bwPending = none → addr % 64 = 0 →
    Completes (.bwFetch dt addr p0 p1 ahead) s fun t => t.prot = { s.prot with
      bwPending := some { addr, which := 0, since := (s.elapse dt).now, page0 := p0, page1 := p1, ahead } }) ∧
  (∀ (s : State) (dt : Nat) (f : BwFetch) (p : List Byte), s.Up → s.prot.ready = true →
    let a := s.elapse dt
    f.addr < a.bootBytes → s.prot.bwPending = some f → f.which = 0 → s.prot.pfail = false → a.bootBusy 0 ≠ none → a.bootDie 1 = true →
    a.bootBusy 1 = none → f.since + a.profile 0 84 4 ≤ a.now → f.page1 = some p → (∀ x ∈ s.prot.bwHeld, x.1 ≠ f.addr / 16384) →
    Completes (.bwFetchWaitExpired dt) s fun t =>
      t.prot = { s.prot with bwPending := none, bwBeats := beats (p.drop (f.addr % 16384)), bwFallback := true
                             bwHeld := t.prot.bwHeld } ∧
      t.prot.bwHeld.head? = some (f.addr / 16384, 1, padTo 16384 p)) ∧
  (∀ (s : State) (dt : Nat), s.Up →
    let a := s.elapse dt
    (∀ f, s.prot.bwPending = some f → a.bootBusy f.which = none ∨ a.now < f.since + a.profile (16 * f.which) 84 4) →
    NoEffect (.bwFetchWaitExpired dt) s)

/-- A parameter save (R345): a download to PSAVE_DATA becomes the latest record of its slot, result 1; refused with 5 after a
power failure or during a sanitize sequence, 2 if too long, 3 with no system die or a failed program (R373). The raw unlock
(R354): KEY1 stages its path; KEY2 within RMP_ARM_NS of it arms the path; a wrong key, a KEY2 that is not staged or too late
clears the path's stage and arm, is counted and shows why in RMP_LAST_ERR; a stage or arm lapses after RMP_ARM_NS. -/
def Obligations.SavesAndUnlockComplete : Prop :=
  (∀ (s : State) (dt : Nat) (path : DictPath) (bs : List Byte) (good : Bool), s.Up →
     let a := s.elapse dt
     let slot := a.objN Obj.PSAVE_SLOT
     let ends (k : Nat) : Prop := Completes (.psaveDataWrite dt path bs good) s fun t =>
       t.prot = { t.prot with psaveResult := k } ∧ t.prot.records = s.prot.records ∧ t.Answers path rcRefused
     a.TransferPasses path Obj.PSAVE_DATA true bs.length →
     (s.prot.pfail = true ∨ s.prot.sanRunning = true → ends 5) ∧
     (s.prot.pfail = false → s.prot.sanRunning = false →
       (16320 < bs.length → ends 2) ∧
       (bs.length ≤ 16320 → s.prot.noSystemDie = true ∨ good = false → ends 3) ∧
       (bs.length ≤ 16320 → s.prot.noSystemDie = false → good = true → (a.writeRecord 2 slot bs).2 = true →
         Completes (.psaveDataWrite dt path bs good) s fun t => t.prot.psaveResult = 1 ∧ t.Answers path rcOk ∧
           ∃ r, t.recordOf 2 slot = some r ∧ r.payload = bs))) ∧
  (∀ (s : State) (dt : Nat) (path : DictPath) (v : W64), s.Up →
    let a := s.elapse dt
    let p := pathArm path
    a.WritePasses path Obj.RMP_KEY1 v →
    (v = 0x4B4C → Completes (.rmpKey1 dt path v) s fun t =>
      t.armOf p = { s.armOf p with staged := some a.now } ∧ t.Answers path rcOk) ∧
    (v ≠ 0x4B4C → Completes (.rmpKey1 dt path v) s fun t => t.armOf p = { path := p } ∧ t.prot.rmpLastErr = 1 ∧
      t.obj Obj.RMP_KEY_ERR = (a.bump Obj.RMP_KEY_ERR).obj Obj.RMP_KEY_ERR ∧ t.Answers path rcRange)) ∧
  (∀ (s : State) (dt : Nat) (path : DictPath) (v : W64), s.Up →
    let a := s.elapse dt
    let p := pathArm path
    let fails (k : Nat) : Prop := Completes (.rmpKey2 dt path v) s fun t => t.armOf p = { path := p } ∧ t.prot.rmpLastErr = k ∧
      t.obj Obj.RMP_KEY_ERR = (a.bump Obj.RMP_KEY_ERR).obj Obj.RMP_KEY_ERR ∧ t.Answers path rcRange
    a.WritePasses path Obj.RMP_KEY2 v →
    (v ≠ 0xB4B3 → fails 2) ∧
    (v = 0xB4B3 → (s.armOf p).staged = none → fails 3) ∧
    (∀ since, v = 0xB4B3 → (s.armOf p).staged = some since →
      (since + a.objN Obj.RMP_ARM_NS < a.now → fails 4) ∧
      (a.now ≤ since + a.objN Obj.RMP_ARM_NS → Completes (.rmpKey2 dt path v) s fun t =>
        t.armOf p = { path := p, staged := none, armed := some a.now } ∧ t.Answers path rcOk))) ∧
  (∀ (s : State) (dt : Nat) (path : DictPath), s.Up →
    let a := s.elapse dt
    let p := pathArm path
    let late (x : Option Nat) : Prop := ∃ since, x = some since ∧ since + a.objN Obj.RMP_ARM_NS < a.now
    (path ≠ .fn → late (s.armOf p).armed ∨ late (s.armOf p).staged →
      (late (s.armOf p).armed ∨ (s.armOf p).armed = none) → (late (s.armOf p).staged ∨ (s.armOf p).staged = none) →
      Completes (.rmpArmLapse dt path) s fun t => t.armOf p = { path := p } ∧ t.prot.rmpLastErr = 4) ∧
    (¬late (s.armOf p).armed → ¬late (s.armOf p).staged → NoEffect (.rmpArmLapse dt path) s))

/-- The sanitize sequence (R370, R371): the three operations are taken in SANITIZE alone, one at a time, LOWER only to a lower level; with
nothing else running the sequence begins at once with the blocks its operation selects and an erase on every die that has some, but for a
LOWER while a die is QUARANTINED or FAILED, which ends with result 4. SANITIZE_DONE, once every selected block has been seen to, ends the
sequence: the versions, superblocks and interim blocks of the old contents are gone, and the result is 2 with, for LOWER, the target level
in force only where no block was left uncleared, else 3 and the level that stood; before that nothing happens. -/
def Obligations.SanitizeRowsComplete : Prop :=
  (∀ (s : State) (dt : Nat) (path : DictPath) (v : W64) (i : Instr) (op : Nat), s.Up →
    let a := s.elapse dt
    let target := if op = 3 then fld v 8 2 else s.prot.level
    let lost := ∃ d, d < s.build.dies ∧ (a.dieState d = 2 ∨ a.dieState d = 3)
    (i = .eraseUser dt path v ∧ op = 1) ∨ (i = .eraseAll dt path v ∧ op = 2) ∨ (i = .lower dt path v ∧ op = 3) →
    fld v 0 2 = op → a.WritePasses path Obj.SAN_CTRL v →
    (s.modes.current = .sanitize → s.prot.sanRunning = false → s.prot.pfail = false → (op = 3 → target < s.prot.level) →
      (s.mediaBusy = true → Completes i s fun t => t.Answers path rcOk ∧ t.prot = { s.prot with
        sanRunning := true, sanBegun := false, sanOp := op, sanResult := 1, sanTarget := target }) ∧
      (s.mediaBusy = false → op ≠ 3 → s.prot.sanInterrupted = false → Completes i s fun t => t.Answers path rcOk ∧
        t.prot = { s.prot with sanRunning := true, sanBegun := true, sanOp := op, sanResult := 1, sanTarget := target,
                               sanBlocks := a.sanSelect op, sanTried := [], sanGood := [], sanFilled := [], sanBad := [] }) ∧
      (s.mediaBusy = false → op = 3 → lost → Completes i s fun t => t.Answers path rcOk ∧
        t.prot.sanRunning = false ∧ t.prot.sanResult = 4 ∧ t.prot.level = s.prot.level) ∧
      (s.mediaBusy = false → (op = 3 → ¬lost) → Completes i s fun t => t.Answers path rcOk ∧
        t.prot.sanRunning = true ∧ t.prot.sanBegun = true ∧ t.prot.sanOp = op ∧ t.prot.sanTarget = target ∧
        t.prot.sanBlocks = a.sanSelect op ∧
        ∀ b ∈ a.sanSelect op, ∃ o ∈ t.ops, o.die = b.die ∧ ∃ bs, o.kind = .erase bs (some 0))) ∧
    (s.modes.current ≠ .sanitize ∨ s.prot.sanRunning = true ∨ s.prot.pfail = true ∨ (op = 3 ∧ s.prot.level ≤ target) →
      Completes i s fun t => t.prot = s.prot ∧ t.Answers path rcRange)) ∧
  (∀ (s : State) (dt : Nat), s.Up →
    (s.prot.sanBegun = true → s.prot.pfail = false → s.prot.sanBlocks = [] → (∀ o ∈ s.ops, o.kind.ofSanitize = false) →
      GoesOn (.sanitizeDone dt) s fun u =>
        u.prot.sanRunning = false ∧ u.prot.sanBegun = false ∧ u.versions = [] ∧ u.sbs = [] ∧ u.interimBlocks = [] ∧ u.origins = [] ∧
        (u.prot.sanResult = 2 ∨ u.prot.sanResult = 3) ∧
        (s.prot.sanBad ≠ [] → u.prot.sanResult = 3 ∧ u.prot.level = s.prot.level) ∧
        (u.prot.sanResult = 2 → u.prot.level = if s.prot.sanOp = 3 then s.prot.sanTarget else s.prot.level)) ∧
    (s.prot.sanBegun = false ∨ s.prot.pfail = true ∨ s.prot.sanBlocks ≠ [] ∨ (∃ o ∈ s.ops, o.kind.ofSanitize = true) →
      NoEffect (.sanitizeDone dt) s))

/-- Power failure (R35, R362, R365, R367): PFAIL takes T0, ends a waiting mode request with reason 5 and cancels an activation;
a second one has no effect; DRAIN_DONE, with no rescue unit left, ends the drain with PFAIL_DONE and WP_N low on every
channel. -/
def Obligations.PowerFailureRowsComplete : Prop :=
  (∀ (s : State) (dt : Nat), s.Up → s.prot.pfail = false → GoesOn (.pfail dt) s fun u =>
    u.prot.pfail = true ∧ u.prot.draining = true ∧ u.prot.drainT0 = (s.elapse dt).now ∧ u.prot.drainCws = 0 ∧
    u.modes.pending = none ∧ u.modes.current = s.modes.current ∧ u.modes.poweredDown = false ∧ u.activation = none ∧
    (s.modes.pending ≠ none → u.modes.lastRefusal = 5)) ∧
  (∀ (s : State) (dt : Nat), s.Up → s.prot.pfail = true → NoEffect (.pfail dt) s) ∧
  (∀ (s : State) (dt : Nat), s.Up → s.prot.draining = true → s.prot.pfailDone = false →
    (∀ o ∈ s.ops, ∀ r m p c, o.kind ≠ .rescue r m p c) → Completes (.drainDone dt) s fun t =>
      t.prot.draining = false ∧ t.prot.pfailDone = true ∧ ∀ n, (t.chan n).wpN = false) ∧
  (∀ (s : State) (dt : Nat), s.Up → s.prot.draining = false ∨ s.prot.pfailDone = true → NoEffect (.drainDone dt) s)

/-! ### Microcode -/

/-- Sequencers (R376, R383, R387, R389, R392). DIE_OP_DISPATCH: a channel sequencer that runs no context starts what ranks first: a
context that is ready runs on, a suspended operation's resume routine or an operation's next routine gets its die's context. A
housekeeping sequencer starts its next channel-scope routine: on a channel in enumeration RESET_ALL, with the bus held and the
interface at SDR (R230, R231). A sequencer that runs a context, or a channel sequencer with its bus held for housekeeping, with its
channel neither UP nor in enumeration or with nothing to start, starts nothing. MICROWORD: a context that may run executes its word: a
fault for one that is no code, sets a reserved bit or asserts all CEs for one die; at a yield point a wanted suspend takes the
context, saving its token, what ranks higher the sequencer, and a WAIT that does not hold leaves it; else the word does its work once its
WAIT holds and its beats can be sent, a word without beats, effects or address computing its registers and going on at the next
word or the jump's target; until then the context stays at it. UCODE_WATCHDOG: a running context has fault 7 when its limit is over,
and not before. -/
def Obligations.SequencerRowsComplete : Prop :=
  (∀ (s : State) (dt seq : Nat) (x : Nat × Start), s.Up →
    let a := s.elapse dt
    let u := a.takeStart x.2
    seq < 64 → (∀ c ∈ s.ctxs, c.seq = seq → c.run ≠ 1) → (s.chan seq).st = 1 ∨ (s.chan seq).st = 3 →
    (s.chan seq).busOwner ≠ some 16 → minBy (fun y => y.1) (a.starts seq) = some x →
    RunsTo (.dieOpDispatch dt seq) s u.progress ∧
    (∀ c, x.2 = .ready c → u.ctxAt c.seq c.ctx = some { c with run := 1, wordAt := none, runAt := a.now }) ∧
    (∀ o, x.2 = .resume o → ∃ c, u.ctxOf o.die = some c ∧ c.run = 1 ∧ c.kind = (if o.kind.erases then 20 else 18) ∧
      c.op = some o.id) ∧
    (∀ o r, x.2 = .routine o → a.op? o.id = some o → a.routineOf o = some r → r.kind ≠ 13 →
      ∃ c, u.ctxOf o.die = some c ∧ c.run = 1 ∧ c.kind = r.kind ∧ c.op = some o.id ∧ c.runAt = a.now) ∧
    (∀ o bs st, x.2 = .fresh o → a.op? o.id = some o → o.kind = .erase bs st → o.routine = 0 →
      (∃ c, u.ctxOf o.die = some c ∧ c.run = 1 ∧ c.kind = 16 ∧ c.op = some o.id) ∧
      ∃ d, u.op? o.id = some d ∧ d.started = true ∧ d.startedAt = a.now)) ∧
  (∀ (s : State) (dt h : Nat), s.Up → h < 4 →
    let a := s.elapse dt
    exec (.dieOpDispatch dt (64 + h)) s = .next (a.settle ((a.parkStep (64 + h)).onMedia fun x => x.housekeep h)) ∧
    (s.modes.parkEntry = false → RunsTo (.dieOpDispatch dt (64 + h)) s (a.housekeep h)) ∧
    ((∃ c ∈ s.ctxs, c.seq = 64 + h ∧ c.run = 1) → s.modes.parkEntry = false → NoEffect (.dieOpDispatch dt (64 + h)) s) ∧
    (∀ k, k < 16 → 4 * k + h < s.build.channels → (∀ c ∈ s.ctxs, c.seq ≠ 64 + h) → (s.chan (4 * k + h)).st = 1 →
      (s.chan (4 * k + h)).busOwner = none → (∀ o ∈ s.ops, dieChannel o.die = 4 * k + h → o.started = false) →
      (∀ j, j < k → (s.chan (4 * j + h)).st ≠ 1 ∧ (s.chan (4 * j + h)).st ≠ 3) →
      let u := a.housekeep h
      (∃ c, u.ctxAt (64 + h) k = some c ∧ c.run = 1 ∧ c.kind = 1) ∧ (u.chan (4 * k + h)).busOwner = some 16 ∧
      (u.chan (4 * k + h)).iface = 0 ∧ (u.chan (4 * k + h)).rate = 0)) ∧
  (∀ (s : State) (dt seq : Nat), s.Up →
    (seq < 64 ∧ ((∃ c ∈ s.ctxs, c.seq = seq ∧ c.run = 1) ∨ ((s.chan seq).st ≠ 1 ∧ (s.chan seq).st ≠ 3) ∨
      (s.chan seq).busOwner = some 16 ∨ (s.elapse dt).starts seq = [])) ∨ 68 ≤ seq → NoEffect (.dieOpDispatch dt seq) s) ∧
  (∀ (s : State) (dt seq ctx : Nat) (env : UcodeEnv) (c0 : Ctx), s.Up →
    let a := s.elapse dt
    let img := a.activeImage c0.cluster
    let w := imgWord img c0.pc
    let c := if uwYield w then c0 else { c0 with wordAt := c0.wordAt.or (some a.now) }
    let b := a.phyIn c env
    let c1 := { c with wordAt := c.wordAt.or (some b.now), runAt := b.now }
    let illegal := imgIsCode img c0.pc = false ∨ uwReserved w = true ∨ (uwCeop w = 3 ∧ c0.housekeeping = false)
    let ready := b.waitHolds c img w env = true ∧ b.beatsHeld c w env = false
    let y := b.yieldWord c img w env
    let u := b.runWord c img w env
    let plain := uwBkind w = 0 ∧ uwCeop w = 0 ∧ uwEff w = 0 ∧ uwCommit w = false ∧ uwAgop w = 0
    s.ctxAt seq ctx = some c0 → a.mayRun c0 = true →
    (illegal → RunsTo (.microword dt seq ctx env) s (b.ucodeFault c 1).progress) ∧
    (¬illegal → uwYield w = true → RunsTo (.microword dt seq ctx env) s y.progress ∧
      (uwCommit w = false → c.stage = [] → c.txOpen = false →
        (∀ o, b.suspendAt c1 w = some o → ∃ d, y.ctxAt seq ctx = some d ∧ d.run = 1 ∧
          d.kind = (if o.kind.erases then 19 else 17) ∧ d.op = some o.id ∧ d.token = some (c1.save (uwRpt w))) ∧
        (b.suspendAt c1 w = none → b.parkAddr c1 (uwRpt w) = none →
          (b.outranked c1 = true → y.ctxAt seq ctx = some { c1 with run := 2, wordAt := none }) ∧
          (b.outranked c1 = false → b.waitHolds c1 img w env = false → y.ctxAt seq ctx = some { c1 with run := 3 })))) ∧
    (¬illegal → uwYield w = false → ready → RunsTo (.microword dt seq ctx env) s u.progress ∧
      (plain → uwNext w = 0 →
        u.ctxAt seq ctx = some { c.compute w with pc := c0.pc + 1, run := 1, wordAt := none }) ∧
      (plain → uwNext w = 1 → uwCond w = 0 → u.ctxAt seq ctx = some
        { c.compute w with pc := if uwCneg w then c0.pc + 1 else uwTarget w, run := 1, wordAt := none })) ∧
    (¬illegal → uwYield w = false → ¬ready →
      Completes (.microword dt seq ctx env) s fun t => t.ctxAt seq ctx = some { c with run := 1 } ∧ t.ops = s.ops)) ∧
  (∀ (s : State) (dt seq ctx : Nat) (c : Ctx), s.Up → s.ctxAt seq ctx = some c →
    let a := s.elapse dt
    let past := c.runAt + ceilDiv (5 * a.objN Obj.UCODE_WATCHDOG) 6 ≤ a.now
    (c.run = 1 → past → RunsTo (.ucodeWatchdog dt seq ctx) s (a.ucodeFault c 7).progress) ∧
    (c.run ≠ 1 ∨ ¬past → NoEffect (.ucodeWatchdog dt seq ctx) s)) ∧
  (∀ (s : State) (dt seq ctx : Nat) (env : UcodeEnv), s.Up → s.ctxAt seq ctx = none →
    NoEffect (.microword dt seq ctx env) s ∧ NoEffect (.ucodeWatchdog dt seq ctx) s)

/-- A microcode load (R399, R400): after a power failure, or with a named cluster quiescing, it is refused with result 10 and
changes no bank; else the standby banks of the named clusters are emptied, and an image that passes every check fills them.
The swap of an activation (R402): once every context of its clusters has quiesced, the banks of each change places and the
activation is over; until then nothing happens. -/
def Obligations.MicrocodeImagesComplete : Prop :=
  (∀ (s : State) (dt : Nat) (path : DictPath) (img : List Byte), s.Up →
     let a := s.elapse dt
     let r := imageCheck 0x10300 img
     let busy := ∃ k ∈ a.loadMask, (mapGetD s.clusters k {}).quiescing = true
     a.TransferPasses path Obj.UCODE_IMAGE true img.length →
     (s.prot.pfail = true ∨ busy → Completes (.ucodeLoad dt path img) s fun t =>
       t.objN Obj.UCODE_LOAD_STATUS = 10 ∧ t.clusters = s.clusters ∧ t.Answers path rcRefused) ∧
     (s.prot.pfail = false → ¬busy → r.1 = 1 → Completes (.ucodeLoad dt path img) s fun t =>
       t.obj Obj.UCODE_LOAD_STATUS = w64 (r.2 * 2 ^ 16 + 1) ∧ t.Answers path rcOk ∧
       ∀ k, mapGetD t.clusters k {} = if k ∈ a.loadMask then { mapGetD s.clusters k {} with standby := some img }
         else mapGetD s.clusters k {}) ∧
     (s.prot.pfail = false → ¬busy → r.1 ≠ 1 → Completes (.ucodeLoad dt path img) s fun t =>
       t.obj Obj.UCODE_LOAD_STATUS = w64 (r.2 * 2 ^ 16 + r.1) ∧ t.Answers path rcRefused ∧
       ∀ k, mapGetD t.clusters k {} = if k ∈ a.loadMask then { mapGetD s.clusters k {} with standby := none }
         else mapGetD s.clusters k {})) ∧
  (∀ (s : State) (dt : Nat) (x : Activation), s.Up → s.activation = some x → x.mask.Nodup →
    (∀ k ∈ x.mask, s.quiesced k = true) → Completes (.ucodeSwap dt) s fun t =>
      t.activation = none ∧
      (∀ k, mapGetD t.clusters k {} = if k ∈ x.mask then
          { active := (mapGetD s.clusters k {}).standby, standby := (mapGetD s.clusters k {}).active, quiescing := false }
        else mapGetD s.clusters k {})) ∧
  (∀ (s : State) (dt : Nat), s.Up → (∀ x, s.activation = some x → ∃ k ∈ x.mask, s.quiesced k = false) →
    NoEffect (.ucodeSwap dt) s)

/-! ### Buffers, the copy engine and the memory ports -/

/-- POOL_CTRL (R409): each pool newly enabled must have buffers, no fewer than its reserves; then all are READY, and a bit
that is 1 stays 1; else the write is refused and no pool changes. Firmware's buffers (R412, R415, R417): a read of BUF_ALLOC
that wins gets a buffer that is not out, and one that does not gets NOBUF and is counted; BUF_FREE, BUF_FREE_ADDR and BUF_REF
drop or raise a reference of a buffer they may name, and are refused for any other, with memory as it was. -/
def Obligations.BufferRowsComplete : Prop :=
  (∀ (s : State) (dt : Nat) (path : DictPath) (v : W64), s.Up →
     let a := s.elapse dt
     let new := (List.range 5).filter fun p => tbit v.toNat p && !(tbit (a.objN Obj.POOL_CTRL) p)
     a.WritePasses path Obj.POOL_CTRL v →
     ((∀ p ∈ new, a.objN Obj.POOL_COUNT p ≠ 0 ∧ a.reserveSum p ≤ a.objN Obj.POOL_COUNT p) →
       GoesOn (.poolEnable dt path v) s fun u => u.Answers path rcOk ∧
         (∀ p, u.pool p = if p ∈ new then { s.pool p with ready := true } else s.pool p) ∧
         ∀ p, p < 5 → tbit (u.objN Obj.POOL_CTRL) p = (tbit (a.objN Obj.POOL_CTRL) p || tbit v.toNat p)) ∧
     ((∃ p ∈ new, a.objN Obj.POOL_COUNT p = 0 ∨ a.objN Obj.POOL_COUNT p < a.reserveSum p) →
       GoesOn (.poolEnable dt path v) s fun u => u.Answers path rcRange ∧ u.pools = s.pools ∧ u.mem = s.mem ∧
         u.objN Obj.POOL_CTRL = a.objN Obj.POOL_CTRL)) ∧
  (∀ (s : State) (dt proc pool : Nat), s.Up → s.Inv → pool < 5 →
    let a := s.elapse dt
    a.ReadPasses (.cfg proc) Obj.BUF_ALLOC pool →
    (a.winsNow pool (procRequester proc) = true → Completes (.bufAlloc dt proc pool) s fun t =>
      ∃ i, t.Answers (.cfg proc) rcOk (handleOf pool i) ∧ (∀ x ∈ a.poolOut pool, x.1 ≠ i)) ∧
    (a.winsNow pool (procRequester proc) = false → Completes (.bufAlloc dt proc pool) s fun t =>
      t.Answers (.cfg proc) rcOk noBuf ∧ t.mem = s.mem ∧ t.obj Obj.BUF_NOBUF = (a.bump Obj.BUF_NOBUF).obj Obj.BUF_NOBUF)) ∧
  (∀ (s : State) (dt proc : Nat) (v : W64), s.Up →
    let a := s.elapse dt
    let h := v.toNat
    let d := a.bufDesc h
    a.WritePasses (.cfg proc) Obj.BUF_FREE v →
    (a.bufCheck (procRequester proc) h true = none → GoesOn (.bufFree dt proc v) s fun u => u.Answers (.cfg proc) rcOk ∧
      u.mem = (a.setBufDesc h { d with count := d.count - 1, alloc := 1 < d.count }).mem) ∧
    (a.bufCheck (procRequester proc) h true ≠ none → GoesOn (.bufFree dt proc v) s fun u =>
      u.Answers (.cfg proc) rcRange ∧ u.mem = s.mem)) ∧
  (∀ (s : State) (dt proc : Nat) (v : W64), s.Up →
    let a := s.elapse dt
    a.WritePasses (.cfg proc) Obj.BUF_FREE_ADDR v →
    (∀ h, a.bufAtAddr v.toNat = some h → a.bufCheck (procRequester proc) h true = none →
      GoesOn (.bufFreeAddr dt proc v) s fun u => u.Answers (.cfg proc) rcOk ∧
        u.mem = (a.setBufDesc h { a.bufDesc h with count := (a.bufDesc h).count - 1, alloc := 1 < (a.bufDesc h).count }).mem) ∧
    (a.bufAtAddr v.toNat = none → GoesOn (.bufFreeAddr dt proc v) s fun u => u.Answers (.cfg proc) rcRange ∧ u.mem = s.mem ∧
      u.obj Obj.BUF_BAD_POINTER = (a.bump Obj.BUF_BAD_POINTER).obj Obj.BUF_BAD_POINTER)) ∧
  (∀ (s : State) (dt proc : Nat) (v : W64), s.Up → s.Inv →
    let a := s.elapse dt
    let h := v.toNat
    let d := a.bufDesc h
    a.WritePasses (.cfg proc) Obj.BUF_REF v →
    (a.bufCheck (procRequester proc) h false = none → d.count ≠ 255 → Completes (.bufRef dt proc v) s fun t =>
      t.Answers (.cfg proc) rcOk ∧
      t.mem = (a.setBufDesc h { d with count := d.count + 1, holders := setBits d.holders (procRequester proc) 1 1 }).mem) ∧
    (a.bufCheck (procRequester proc) h false ≠ none ∨ d.count = 255 → Completes (.bufRef dt proc v) s fun t =>
      t.Answers (.cfg proc) rcRange ∧ t.mem = s.mem))

/-- The copy engine's commands (R430, R436, R442, R443): START on a channel that is not busy starts it: a register transfer of
length 0 is done at once, a longer one without error asks for the slot of its first burst, a list that does not begin on 16
bytes ends with cause 4, one that does waits for its first entry. A busy channel refuses a START; an ABORT of one that waits for a
slot or for room in a buffer's COUNT ends it with cause 6, of any other it is kept until the burst at work is over (R435). CE_DONE
ends a transfer that has come to its end, with DONE or with ERR and its
cause, and has no effect before. -/
def Obligations.CopyEngineRowsComplete : Prop :=
  (∀ (s : State) (dt ch : Nat) (path : DictPath) (v : W64), s.Up →
    let a := s.elapse dt
    let x := w64 (setBits v.toNat 0 1 1)
    let c := s.ceChan ch
    a.WritePasses path Obj.CE_CTRL x 0 ch →
    (c.busy = true → GoesOn (.ceStart dt path ch v) s fun u => u.Answers path rcRange ∧ u.ce = s.ce) ∧
    (c.busy = false → tbit v.toNat 1 = false → a.objN Obj.CE_LEN 0 ch = 0 →
      GoesOn (.ceStart dt path ch v) s fun u => u.Answers path rcOk ∧ (u.ceChan ch).busy = false ∧
        (u.ceChan ch).done = true ∧ (u.ceChan ch).err = c.err ∧ (u.ceChan ch).cause = 0 ∧ (u.ceChan ch).doneBytes = 0) ∧
    (c.busy = false → tbit v.toNat 1 = false → a.objN Obj.CE_LEN 0 ch ≠ 0 →
      a.objN Obj.CE_LEN 0 ch % swapGroup (bits v.toNat 6 2) = 0 →
      GoesOn (.ceStart dt path ch v) s fun u => u.Answers path rcOk ∧ (u.ceChan ch).busy = true ∧
        (u.ceChan ch).ask = some a.now ∧ (u.ceChan ch).cause = 0 ∧ (u.ceChan ch).doneBytes = 0) ∧
    (c.busy = false → tbit v.toNat 1 = true → a.objN Obj.CE_LIST 0 ch % 16 ≠ 0 →
      GoesOn (.ceStart dt path ch v) s fun u => u.Answers path rcOk ∧ (u.ceChan ch).busy = true ∧
        (u.ceChan ch).ending = some (4, a.objN Obj.CE_LIST 0 ch)) ∧
    (c.busy = false → tbit v.toNat 1 = true → a.objN Obj.CE_LIST 0 ch % 16 = 0 →
      GoesOn (.ceStart dt path ch v) s fun u => u.Answers path rcOk ∧ (u.ceChan ch).busy = true ∧
        (u.ceChan ch).list = some (a.objN Obj.CE_LIST 0 ch) ∧ (u.ceChan ch).elements = 0 ∧
        ∃ r ∈ (u.port (a.sharedPort (a.objN Obj.CE_LIST 0 ch))).out ++ (u.port (a.sharedPort (a.objN Obj.CE_LIST 0 ch))).wait,
          r.use = .ceRead ch ∧ r.write = false ∧ r.addr = a.objN Obj.CE_LIST 0 ch / 64 * 64)) ∧
  (∀ (s : State) (dt ch : Nat) (path : DictPath), s.Up →
    let a := s.elapse dt
    let c := s.ceChan ch
    tbit c.ctrl 0 = false → a.WritePasses path Obj.CE_CTRL (w64 (setBits c.ctrl 2 1 1)) 0 ch →
    (c.busy = true → (∀ e, c.cur = some e → e.paired = false ∨ (e.begun = true ∧ c.ask = none)) →
      GoesOn (.ceAbort dt path ch) s fun u => u.Answers path rcOk ∧ u.ceChan ch = { c with abort := true }) ∧
    (c.busy = true → (∃ e, c.cur = some e ∧ e.paired = true ∧ (e.begun = false ∨ c.ask ≠ none)) →
      GoesOn (.ceAbort dt path ch) s fun u => u.Answers path rcOk ∧ ∃ addr, (u.ceChan ch).ending = some (6, addr)) ∧
    (c.busy = false → GoesOn (.ceAbort dt path ch) s fun u => u.Answers path rcOk ∧
      u.ceChan ch = { c with ctrl := (u.ceChan ch).ctrl })) ∧
  (∀ (s : State) (dt ch cause addr : Nat), s.Up → (s.ceChan ch).ending = some (cause, addr) →
    Completes (.ceDone dt ch) s fun t =>
      (t.ceChan ch).busy = false ∧ (t.ceChan ch).ending = none ∧ (t.ceChan ch).cause = cause ∧
      (t.ceChan ch).done = ((s.ceChan ch).done || cause == 0) ∧ (t.ceChan ch).err = ((s.ceChan ch).err || cause != 0) ∧
      (cause ≠ 0 → (t.ceChan ch).errAddr = addr)) ∧
  (∀ (s : State) (dt ch : Nat), s.Up → (s.ceChan ch).ending = none → NoEffect (.ceDone dt ch) s)

/-- The memory ports (R512 to R515): a command credit is kept, or puts the request that waits; write-beat credits are kept or
spent on beats, and never lost; a beat of read data joins its request; an acknowledged write takes effect in memory before what
waited for it goes on. A credit for a port that the build lacks, and data or an acknowledgement for a tag that is not out, have
no effect. -/
def Obligations.MemoryPortRowsComplete : Prop :=
  (∀ (s : State) (dt n : Nat), s.Up → n < s.build.clusters →
    let p := s.port n
    (p.wait = [] → Completes (.mpCmdCredit dt n) s fun t =>
      (t.port n).cmdCr = min 4095 (p.cmdCr + 1) ∧ (t.port n).wait = [] ∧ (t.port n).out.length = p.out.length) ∧
    (∀ r rest, p.wait = r :: rest → p.cmdCr = 0 → p.outstanding r.write < 256 → Completes (.mpCmdCredit dt n) s fun t =>
      (t.port n).cmdCr = 0 ∧ (t.port n).wait = rest ∧ (t.port n).out.length = p.out.length + 1)) ∧
  (∀ (s : State) (dt n : Nat), s.Up → n < s.build.clusters →
    let p := s.port n
    Completes (.mpWrCredit dt n) s fun t =>
      (t.port n).wrCr + sumOf (((t.port n).out ++ (t.port n).wait).map fun r => r.sent)
        = min 4095 (p.wrCr + 1) + sumOf ((p.out ++ p.wait).map fun r => r.sent)) ∧
  (∀ (s : State) (dt n : Nat), s.Up → s.build.clusters ≤ n →
    NoEffect (.mpCmdCredit dt n) s ∧ NoEffect (.mpWrCredit dt n) s) ∧
  (∀ (s : State) (dt n tag : Nat) (beat : List Byte) (bad : Bool) (r : MpReq), s.Up → s.Inv →
    let a := s.elapse dt
    let r1 := { r with got := r.got ++ padTo 64 beat, bad := r.bad || bad }
    ((s.port n).out.find? fun r => !r.write && r.tag == tag) = some r →
    (Completes (.mpRdBeat dt n tag beat false bad) s fun t => t.mem = s.mem ∧ r1 ∈ (t.port n).out ∧
      (t.port n).out.length = (s.port n).out.length) ∧
    GoesOn (.mpRdBeat dt n tag beat true bad) s fun u => ∃ b : State, u = (b.mpReadDone r1).servePops ∧ b.mem = a.mem ∧
      b.dict = a.dict ∧ b.ce = a.ce ∧ b.nqs = a.nqs ∧ (b.port n).cmdCr + (b.port n).out.length = (s.port n).cmdCr + (s.port n).out.length - 1) ∧
  (∀ (s : State) (dt n tag : Nat) (bad : Bool) (r : MpReq), s.Up →
    let a := s.elapse dt
    ((s.port n).out.find? fun r => r.write && r.tag == tag && r.sent == r.beats) = some r →
    GoesOn (.mpAck dt n tag bad) s fun u => ∃ b : State, u = (b.mpWriteDone r bad).servePops ∧
      (bad = false → b.mem = r.apply a.mem) ∧ (bad = true → ∃ pick, b.mem = r.applySome pick a.mem) ∧ b.dict = a.dict) ∧
  (∀ (s : State) (dt n tag : Nat) (beat : List Byte) (last bad : Bool), s.Up → (∀ r ∈ (s.port n).out, r.tag ≠ tag) →
    NoEffect (.mpRdBeat dt n tag beat last bad) s ∧ NoEffect (.mpAck dt n tag bad) s)

/-! ### Notice queues -/

/-- How notices enter (R422, R423): the notice offered first is taken by its queue, and every notice takes the queue's next
NSEQ; what fits enters; a held notice that does not fit waits in line; any other is dropped and counted, and on an enabled queue
the pennant counts it. HELD_NOTICE_ENTER lets the first held one enter. -/
def Obligations.NoticeEntryCompletes : Prop :=
  (∀ (s : State) (dt : Nat) (n : Notice) (rest : List Notice), s.Up → s.offers = n :: rest →
    GoesOn (.noticeOffer dt) s fun u => u = ({ s.elapse dt with offers := rest }.nqTake n).servePops.deliver ∧ u.offers = rest) ∧
  (∀ (s : State) (dt : Nat), s.Up → s.offers = [] → NoEffect (.noticeOffer dt) s) ∧
  (∀ (s : State) (dt q : Nat), s.Up →
    GoesOn (.heldNoticeEnter dt q) s fun u => u = ((s.elapse dt).nqEnterHeld q).servePops.deliver) ∧
  (∀ (s : State) (n : Notice), (s.nq n.queue).pennant = none →
    let q := n.queue
    let u := s.nqTake n
    (u.nq q).seq = ((s.nq q).seq + 1) % 2 ^ 32 ∧
    (s.nqFits q n.words = true → u.obj Obj.NQ_DROPPED q = s.obj Obj.NQ_DROPPED q ∧ (u.nq q).held = (s.nq q).held ∧
      (u.nq q).lastWord = s.now) ∧
    (s.nqFits q n.words = false → n.held = true → (u.nq q).held = (s.nq q).held ++ [((s.nq q).seq, n)] ∧
      (u.nq q).held_words = (s.nq q).held_words) ∧
    (s.nqFits q n.words = false → n.held = false → u.obj Obj.NQ_DROPPED q = (s.bump Obj.NQ_DROPPED q).obj Obj.NQ_DROPPED q ∧
      (u.nq q).pennant = if s.nqEnabled q then some (1, (s.nq q).seq, 2 ^ n.cls) else none))

/-- Pops (R424): only the queue's reader may pop, and gets PATH else; a pop answers with the first word of the tail stage, and
the whole word in the reader's latches; with nothing readable NQ_POP waits with CFG_READY low, and NQ_TRY answers with the
empty word; a pop that has waited NQ_BLOCK_NS answers with the empty word and is counted. FLUSH, CLEAR and the flush time
(R418, R427): CLEAR discards every word of the queue and counts them, and drops a pending pennant; the write of a FLUSH is
answered at once where nothing lies above the tail stage, and else keeps CFG_READY low until the words that were there have
moved on; NQ_FLUSH_NS without a new word sends what the head stage holds on its way; before that time nothing happens. -/
def Obligations.NoticePopsComplete : Prop :=
  (∀ (s : State) (dt proc q : Nat) (i : Instr), s.Up → proc < 8 → q < 8 → s.portHeld (.cfg proc) = false →
    let a := s.elapse dt
    i = .nqPop dt proc q ∨ i = .nqTry dt proc q →
    (a.nqReader q ≠ proc → Completes i s fun t => t.Answers (.cfg proc) rcPath ∧ t.nqs = s.nqs) ∧
    (∀ w rest, a.nqReader q = proc → (s.nq q).tail = w :: rest → Completes i s fun t =>
      t.Answers (.cfg proc) rcOk (w.toNat % 2 ^ 32) ∧ (t.proc proc).nqLatch = w ∧
      (t.proc proc).rdLatch = w64 (w.toNat % 2 ^ 64) ∧ (t.proc proc).popWait = none)) ∧
  (∀ (s : State) (dt proc q : Nat), s.Up → proc < 8 → q < 8 → s.portHeld (.cfg proc) = false →
    let a := s.elapse dt
    a.nqReader q = proc → (s.nq q).tail = [] →
    (Completes (.nqPop dt proc q) s fun t => t.cfg.ready = false ∧ (t.proc proc).popWait = some (q, a.now) ∧ t.nqs = s.nqs) ∧
    (Completes (.nqTry dt proc q) s fun t => t.Answers (.cfg proc) rcOk 0 ∧ (t.proc proc).nqLatch = 0 ∧ t.nqs = s.nqs)) ∧
  (∀ (s : State) (dt proc q since : Nat), s.Up → (s.proc proc).popWait = some (q, since) →
    let a := s.elapse dt
    (since + a.objN Obj.NQ_BLOCK_NS ≤ a.now → s.flushing = false → Completes (.nqBlockExpired dt proc) s fun t =>
      t.Answers (.cfg proc) rcOk 0 ∧ (t.proc proc).popWait = none ∧ t.nqs = s.nqs ∧
      t.obj Obj.NQ_BLOCK_EXPIRED = (a.bump Obj.NQ_BLOCK_EXPIRED).obj Obj.NQ_BLOCK_EXPIRED) ∧
    (a.now < since + a.objN Obj.NQ_BLOCK_NS → NoEffect (.nqBlockExpired dt proc) s)) ∧
  (∀ (s : State) (dt q : Nat) (path : DictPath), s.Up → q < 8 →
    let a := s.elapse dt
    let cfg := a.nqCfg q
    let ring := bits cfg 20 4
    bits cfg 0 8 ≠ 0 → ring = 0 ∨ 8 ≤ ring →
    (a.WritePasses path Obj.NQ_CFG (w64 (setBits cfg 16 1 1)) q → Completes (.clearNq dt path q) s fun t =>
      t.Answers path rcOk ∧ (t.nq q).head = [] ∧ (t.nq q).ring = [] ∧ (t.nq q).tail = [] ∧ (t.nq q).pennant = none ∧
      t.obj Obj.NQ_DROPPED q = (a.bump Obj.NQ_DROPPED q 0 (s.nq q).held_words).obj Obj.NQ_DROPPED q) ∧
    (a.WritePasses path Obj.NQ_CFG (w64 (setBits cfg 15 1 1)) q → ∃ u : State,
      exec (.flushNq dt path q) s = .next (a.settle u.servePops) ∧
      ((s.nq q).ring ++ (s.nq q).head = [] → u.Answers path rcOk ∧ (u.nq q).flush = none ∧ (u.nq q).tail = (s.nq q).tail) ∧
      (∀ p, path = .cfg p → (u.cfg.ready = true ↔ (u.nq q).flush = none)) ∧
      ((u.nq q).flush = none ∨
        (u.nq q).flush = some ((s.nq q).moved + (s.nq q).head.length + (s.nq q).ring.length)))) ∧
  (∀ (s : State) (dt q : Nat), s.Up →
    let a := s.elapse dt
    ((s.nq q).lastWord + a.objN Obj.NQ_FLUSH_NS ≤ a.now → Completes (.nqFlushTimeout dt q) s fun t =>
      t = a.settle ((a.nqWriteOut q).nqAdvance q)) ∧
    (a.now < (s.nq q).lastWord + a.objN Obj.NQ_FLUSH_NS → NoEffect (.nqFlushTimeout dt q) s))

/-! ### Interrupts -/

/-- Claims and ends of interrupts (R450, R452): a claim returns the best eligible source, pushes it on the processor's stack
and clears its latch; with none eligible it returns 0x8000_0000 and is counted; INT_EOI takes the source's entry off the
stack, or is a stray. The source that a claim returns is eligible, and no other source that is configured and eligible has a
higher PRIORITY, or the same one and a lower ID (R450). -/
def Obligations.InterruptClaimsComplete : Prop :=
  (∀ (s : State) (dt p : Nat), s.Up → p < 8 → s.ints.handlers.length = 8 →
    let a := s.elapse dt
    a.ReadPasses (.cfg p) Obj.INT_CLAIM →
    (∀ k, a.intBest p = some k → Completes (.intClaim dt p) s fun t =>
      t.Answers (.cfg p) rcOk (keyId k + s.intPrio k * 2 ^ 12) ∧ t.intStack p = s.intStack p ++ [(keyId k, s.intPrio k)] ∧
      (∀ q, q ≠ p → t.intStack q = s.intStack q) ∧ t.ints.latches = s.ints.latches.filter fun x => x != k) ∧
    (a.intBest p = none → Completes (.intClaim dt p) s fun t =>
      t.Answers (.cfg p) rcOk 0x80000000 ∧ (t.proc p).empty = satAdd 0xFFFFFFFF (s.proc p).empty 1 ∧
      t.ints.handlers = s.ints.handlers ∧ t.ints.latches = s.ints.latches)) ∧
  (∀ (s : State) (dt p : Nat) (v : W64), s.Up → p < 8 → s.ints.handlers.length = 8 →
    let k := intKey p (bits v.toNat 0 9)
    (s.elapse dt).WritePasses (.cfg p) Obj.INT_EOI v →
    (s.activeFor p k = true → Completes (.intEoi dt p v) s fun t =>
      t.Answers (.cfg p) rcOk ∧ t.activeFor p k = false ∧ (∀ j, j ≠ k → t.activeFor p j = s.activeFor p j) ∧
      (t.proc p).stray = (s.proc p).stray) ∧
    (s.activeFor p k = false → Completes (.intEoi dt p v) s fun t =>
      t.Answers (.cfg p) rcOk ∧ t.ints.handlers = s.ints.handlers ∧ (t.proc p).stray = satAdd 0xFFFFFFFF (s.proc p).stray 1)) ∧
  (∀ (s : State) (p k : Nat), s.intBest p = some k → s.intEligible p k = true ∧
     ∀ j, (∃ c, (j, c) ∈ s.ints.cfg) → s.intEligible p j = true →
       s.intPrio j < s.intPrio k ∨ (s.intPrio j = s.intPrio k ∧ keyId k ≤ keyId j))

/-- INT_SOFT sets the latch of private source 480 + N in the bank of each processor that it names, and no other latch (R447).
SLEEP_IND keeps a processor's level, under which its groups with items open (R458); a group whose time has passed opens, if it
has items, and a timer that has not run out has no effect (R456). -/
def Obligations.InterruptRowsComplete : Prop :=
  (∀ (s : State) (dt p : Nat) (v : W64), s.Up → (s.elapse dt).WritePasses (.cfg p) Obj.INT_SOFT v →
     Completes (.intSoft dt p v) s fun t => t.Answers (.cfg p) rcOk ∧
       ∀ k, k ∈ t.ints.latches ↔ k ∈ s.ints.latches ∨ ∃ q, q < 8 ∧ tbit v.toNat (8 + q) = true ∧
         k = intKey q (480 + bits v.toNat 0 4)) ∧
  (∀ (s : State) (dt p : Nat) (level : Bool), s.Up → p < s.ints.sleep.length → Completes (.sleepInd dt p level) s fun t =>
    t.ints.sleep = s.ints.sleep.set p level ∧ t.ints.handlers = s.ints.handlers ∧ t.ints.latches = s.ints.latches ∧
    (level = true → ∀ g, g < 32 → (s.elapse dt).coalTarget g = p → 1 ≤ (s.elapse dt).groupItems g → (t.coal g).isOpen = true)) ∧
  (∀ (s : State) (dt g : Nat), s.Up → g < 32 →
    let a := s.elapse dt
    (a.coalExpired g = true → 1 ≤ a.groupItems g → Completes (.coalTimer dt g) s fun t => (t.coal g).isOpen = true) ∧
    (a.coalExpired g = false → NoEffect (.coalTimer dt g) s))

/-! ### The dictionary -/

/-- OBJECT_WRITE and CFG_WRITE_LATCH (R470, R540): an object of 4 bytes or fewer takes a write at +0 that passes its checks by
its own rule, or, having none, keeps the value; a write that fails a check answers that check's code and writes nothing but the
error count; a write at +4 answers ALIGN. An 8-byte object's low half is latched at +0, and a write at +4 applies the latch and
the word as one value only when the processor's previous access was that write at +0; otherwise it answers SEQUENCE. An offset
other than 0 and 4 answers ALIGN, an object that does not exist NO_OBJECT. After the seal every write of UNIT_WP_MAP gives the
OR of the old value and the value written (R352). -/
def Obligations.ObjectWritesComplete : Prop :=
  (∀ (s : State) (dt proc k r : Nat) (w : W32) (o : Obj), s.Up →
    let a := s.elapse dt
    let path := DictPath.cfg proc
    let key := o.at k r
    a.Reaches path o k r → o.ty ≠ .domain → o.ty.bytes ≤ 4 →
    (a.writeCheck path o k r 32 w.toNat = rcOk →
      GoesOn (.objectWrite dt proc (key / 256) (key % 256) 0 w) s fun u =>
        let e := writeRule path o k r a (o.keep w.toNat)
        u = (e.1.account path key true e.2 0).notePrev path key true 0 ∧
        (((ruleA path o k r).or (ruleB o k r)).or (ruleC path o k r) = none →
          u.objN o k r = o.keep w.toNat ∧ u.Answers path rcOk)) ∧
    (a.writeCheck path o k r 32 w.toNat ≠ rcOk → o.key ≠ Obj.RMP_KEY1.key → o.key ≠ Obj.RMP_KEY2.key →
      GoesOn (.objectWrite dt proc (key / 256) (key % 256) 0 w) s fun u =>
        u.Answers path (a.writeCheck path o k r 32 w.toNat) ∧ u.mem = a.mem ∧ u.prot = a.prot ∧
        ∀ x, x ≠ Obj.DICT_ERRORS.at 0 0 → mapGet u.dict x = mapGet a.dict x) ∧
    (Completes (.objectWrite dt proc (key / 256) (key % 256) 4 w) s fun t => t.Answers path rcAlign)) ∧
  (∀ (s : State) (dt proc k r : Nat) (w : W32) (o : Obj), s.Up →
    let a := s.elapse dt
    let path := DictPath.cfg proc
    let key := o.at k r
    let v := (s.proc proc).wrLatch.toNat + w.toNat * 2 ^ 32
    a.Reaches path o k r → o.ty ≠ .domain → o.ty.bytes = 8 → a.pathAllows path o k r true = true → a.attrCheck o true = rcOk →
    (Completes (.cfgWriteLatch dt proc (key / 256) (key % 256) w) s fun t =>
      t.Answers path rcOk ∧ (t.proc proc).wrLatch = w ∧ (t.proc proc).prev = some (key, true, 0)) ∧
    ((s.proc proc).prev = some (key, true, 0) → a.writeCheck path o k r 64 v = rcOk →
      GoesOn (.objectWrite dt proc (key / 256) (key % 256) 4 w) s fun u =>
        let e := writeRule path o k r a (o.keep v)
        u = (e.1.account path key true e.2 0).notePrev path key true 4) ∧
    ((s.proc proc).prev ≠ some (key, true, 0) →
      Completes (.objectWrite dt proc (key / 256) (key % 256) 4 w) s fun t => t.Answers path rcSequence)) ∧
  (∀ (s : State) (dt proc index sub off : Nat) (w : W32), s.Up → s.portHeld (.cfg proc) = false →
    let a := s.elapse dt
    (off ≠ 0 → off ≠ 4 → Completes (.objectWrite dt proc index sub off w) s fun t => t.Answers (.cfg proc) rcAlign) ∧
    (off = 0 ∨ off = 4 → a.objAt (index * 256 + sub) = none →
      Completes (.objectWrite dt proc index sub off w) s fun t => t.Answers (.cfg proc) rcNoObject)) ∧
  (∀ (s : State) (path : DictPath) (k u v : Nat), k < 16 → u < 16 → v < 2 ^ 64 → s.prot.sealed = true →
    let e := writeRule path Obj.UNIT_WP_MAP k u s v
    e.2 = rcOk ∧ e.1.objN Obj.UNIT_WP_MAP k u = (s.objN Obj.UNIT_WP_MAP k u).lor v)

/-- A register write that fails a check changes nothing else (R540): the rows that write one register answer with the code of
the first check that fails, NO_OBJECT, PATH, READ_ONLY or OUT_OF_RANGE; what changes is the count of errors, for the field
network its refused writes, the port's answer and the processor's record of it. -/
def Obligations.RefusedWritesChangeNothing : Prop :=
  ∀ (s : State) (i : Instr) (path : DictPath) (o : Obj) (k r : Nat) (v : W64), s.Up → s.Inv →
    i.writes = some (path, o, k, r, v) → s.portHeld path = false →
    let a := s.elapse i.dt
    let refused (code : Nat) : Prop := Completes i s fun t => t.Answers path code ∧ Untouched [.dict, .cfg, .procs] s t ∧
      DictKept [Obj.DICT_ERRORS.at 0 0, Obj.FN_WRITE_REFUSED.at 0 0] s t
    (a.objAt (o.at k r) = none → refused rcNoObject) ∧
    (∀ x, a.objAt (o.at k r) = some x →
      (a.pathAllows path o k r true = false → refused rcPath) ∧
      (a.pathAllows path o k r true = true → a.attrCheck o true ≠ rcOk → refused rcReadOnly) ∧
      (a.pathAllows path o k r true = true → a.attrCheck o true = rcOk →
        (o.fits 64 v.toNat = false ∨ o.inRange (o.keep v.toNat) = false) → refused rcRange))

/-- Transfers on the configuration port (R471, R477), for a DOMAIN object that is in no other transfer: a length written at +4
opens a download, in place of the processor's own transfer there, which a length out of range leaves as it was (the model's choice,
log 116); each write at +0 appends four bytes, and the write that reaches the total runs the end action; a read at +4
opens an upload with its contents, and each read at +0 returns the next four bytes; the abandon ends the processor's transfer
and no other; an access at +0 without a transfer answers SEQUENCE. A transfer idle for DICT_SEG_TIMEOUT_NS is abandoned, and its
next access answers TIMEOUT. -/
def Obligations.ConfigPortTransfersComplete : Prop :=
  (∀ (s : State) (dt proc k : Nat) (o : Obj), s.Up →
    let a := s.elapse dt
    let path := DictPath.cfg proc
    let key := o.at k 0
    a.Reaches path o k 0 → o.ty = .domain →
    (s.xfer? proc = none →
      (∀ len : W32, a.attrCheck o true = rcOk → a.domainBusy key proc = false → 1 ≤ len.toNat → len.toNat ≤ 16777216 →
        Completes (.cfgDownloadOpen dt proc (key / 256) (key % 256) len) s fun t => t.Answers path rcOk ∧
          t.xfer? proc = some { ctx := proc, key, upload := false, total := len.toNat, bytes := [], lastAt := a.now }) ∧
      (a.attrCheck o false = rcOk → a.domainBusy key proc = false →
        (∀ b bs, a.uploadContents o k = (b, .inr bs) →
          Completes (.cfgUploadOpen dt proc (key / 256) (key % 256)) s fun t => t.Answers path rcOk bs.length ∧
            ∃ x, t.xfer? proc = some x ∧ x.key = key ∧ x.upload = true ∧ x.total = bs.length ∧ x.bytes = bs ∧ x.pos = 0 ∧
              x.timedOut = false) ∧
        (∀ b c, a.uploadContents o k = (b, .inl c) → c ≠ rcOk →
          Completes (.cfgUploadOpen dt proc (key / 256) (key % 256)) s fun t => t.Answers path c)) ∧
      (∀ w : W32, a.attrCheck o true = rcOk → Completes (.cfgDownloadAppend dt proc (key / 256) (key % 256) w) s fun t =>
        t.Answers path rcSequence) ∧
      (a.attrCheck o false = rcOk → Completes (.cfgUploadRead dt proc (key / 256) (key % 256)) s fun t =>
        t.Answers path rcSequence)) ∧
    (∀ x, s.xfer? proc = some x → x.key = key → x.timedOut = false →
      (∀ w : W32, x.upload = false → a.attrCheck o true = rcOk → x.bytes ≠ [] ∨ o.key ≠ Obj.UCODE_IMAGE.key →
        (x.bytes.length + 4 < x.total → Completes (.cfgDownloadAppend dt proc (key / 256) (key % 256) w) s fun t =>
          t.Answers path rcOk ∧ t.xfer? proc = some { x with bytes := x.bytes ++ leBytes 4 w.toNat, lastAt := a.now }) ∧
        (x.total ≤ x.bytes.length + 4 → GoesOn (.cfgDownloadAppend dt proc (key / 256) (key % 256) w) s fun u =>
          let e := (a.dropXfer proc).endDownload o k ((x.bytes ++ leBytes 4 w.toNat).take x.total)
          u = (e.1.account path key true e.2 0).notePrev path key true 0)) ∧
      (∀ len : W32, a.attrCheck o true = rcOk → a.domainBusy key proc = false →
        (1 ≤ len.toNat → len.toNat ≤ 16777216 →
          Completes (.cfgDownloadOpen dt proc (key / 256) (key % 256) len) s fun t => t.Answers path rcOk ∧
            t.xfer? proc = some { ctx := proc, key, upload := false, total := len.toNat, bytes := [], lastAt := a.now }) ∧
        (len.toNat = 0 ∨ (16777216 < len.toNat ∧ len.toNat ≠ 0xFFFFFFFF) →
          Completes (.cfgDownloadOpen dt proc (key / 256) (key % 256) len) s fun t => t.Answers path rcRange ∧
            t.xfer? proc = some x)) ∧
      (x.upload = true → a.attrCheck o false = rcOk → Completes (.cfgUploadRead dt proc (key / 256) (key % 256)) s fun t =>
        t.Answers path rcOk (leAt x.bytes x.pos 4) ∧ t.xfer? proc = some { x with pos := x.pos + 4, lastAt := a.now })) ∧
    (Completes (.cfgAbandon dt proc (key / 256) (key % 256)) s fun t => t.Answers path rcOk ∧ t.xfer? proc = none ∧
      ∀ c, c ≠ proc → t.xfer? c = s.xfer? c) ∧
    (∀ (x : Xfer) (w : W32), s.xfer? proc = some x → x.key = key → x.timedOut = true → a.attrCheck o true = rcOk →
      Completes (.cfgDownloadAppend dt proc (key / 256) (key % 256) w) s fun t =>
        t.Answers path rcTimeout ∧ t.xfer? proc = none)) ∧
  (∀ (s : State) (dt c : Nat) (x : Xfer), s.Up → s.xfer? c = some x → x.timedOut = false →
    let a := s.elapse dt
    (x.lastAt + a.objN Obj.DICT_SEG_TIMEOUT_NS ≤ a.now → Completes (.dictSegTimeout dt c) s fun t =>
      t.xfer? c = some { x with timedOut := true, bytes := [], lastResp := [] }) ∧
    (a.now < x.lastAt + a.objN Obj.DICT_SEG_TIMEOUT_NS → NoEffect (.dictSegTimeout dt c) s))

/-- Closa requests (R84, R478, R481 to R483): an MREQ that is taken while fewer than 16 are at work is served, and its MRSP, padded
to 24 bytes, goes out with its MTAG; a further one waits with its credit held. A REQUEST frame to the field port's own node with an allowance is served and answered in the smallest CAN FD length; one
that finds no token is dropped and counted; a frame that is no CAN FD frame is counted as ignored; a frame for another node or
function, or one that comes while the port is off the bus, has no effect. -/
def Obligations.ClosaRequestsComplete : Prop :=
  (∀ (s : State) (i : Instr) (n : Nat) (pkt : Packet), s.Up → i.closa = some (n, .mreq pkt) →
    let a := s.elapse i.dt
    a.Takes 6 0 none pkt →
    let hdr := asPacket 6 0 pkt.hdr
    let plen := hbits hdr 16 16
    let q := closaParse (asService n ((leBytes 32 hdr.toNat).drop 8 ++ padTo plen pkt.payload))
    let r := (a.occupy 0 pkt.beats).closaServe .mreq (8 + q.tag) 208 (plen == q.dlen - 16) q
    (s.link.mreqs = [] → s.mreqsAtWork < 16 → GoesOn i s fun u =>
      OutPkt.mrsp (hbits hdr 32 16) (r.data ++ List.replicate (24 - r.data.length) 0) ∈ u.link.out0 ∧
      u.link.owe0 = r.s.link.owe0 + pkt.beats ∧ u.dict = r.s.dict ∧ u.mem = r.s.mem ∧ u.prot = r.s.prot ∧
      u.xfers = r.s.xfers) ∧
    (s.link.mreqs ≠ [] ∨ 16 ≤ s.mreqsAtWork → Completes i s fun t =>
      t.LinkIs { s.link.takes 6 0 pkt.beats with mreqs := s.link.mreqs ++ [(n, { pkt with hdr })] } ∧ t.dict = a.dict)) ∧
  (∀ (s : State) (i : Instr) (n id : Nat) (kind : CanKind) (data : List Byte), s.Up → i.closa = some (n, .fn id kind data) →
    let a := s.elapse i.dt
    let own := a.objN Obj.FN_NODE_ID
    let b := (a.bump Obj.FN_RX_FRAMES).fnRefill
    let c := { b with fn := { b.fn with tokens := b.fn.tokens - 1 } }
    let q := closaParse (asService n data)
    (s.fn.st = 0 ∨ 3 ≤ s.fn.st → NoEffect i s) ∧
    (s.fn.st = 1 ∨ s.fn.st = 2 →
      (kind ≠ .fd → Completes i s fun t => t.fn = s.fn ∧ t.obj Obj.FN_IGNORED = (a.bump Obj.FN_IGNORED).obj Obj.FN_IGNORED) ∧
      (kind = .fd → id / 128 ≠ 4 ∨ (id % 128 ≠ 0 ∧ id % 128 ≠ own) → NoEffect i s) ∧
      (kind = .fd → id / 128 = 4 → id % 128 = 0 ∨ id % 128 = own → b.fn.tokens = 0 → Completes i s fun t =>
        t.fn.tx = s.fn.tx ∧ t.obj Obj.FN_RATE_DROPPED = (b.bump Obj.FN_RATE_DROPPED).obj Obj.FN_RATE_DROPPED) ∧
      (kind = .fd → id / 128 = 4 → id % 128 = own → own ≠ 0 → b.fn.tokens ≠ 0 → GoesOn i s fun u =>
        let r := c.closaServe .fn 264 56 true q
        u.fn.tx = some (5 * 128 + own, padTo (canLen r.data.length) r.data) ∧ u.mem = r.s.mem ∧ u.prot = r.s.prot) ∧
      (kind = .fd → id / 128 = 4 → id % 128 = 0 → b.fn.tokens ≠ 0 → GoesOn i s fun u =>
        let fnw := ((c.objAt (q.idx * 256 + q.sub)).any fun x => x.1.fnw) = true
        (q.svc = 2 → fnw → q.dlen ≤ 56 → q.dlen ≤ q.data.length → u = (c.closaServe .fn 264 56 true q).s) ∧
        (q.svc ≠ 2 ∨ ¬fnw ∨ 56 < q.dlen ∨ q.data.length < q.dlen → u = c.bump Obj.FN_MALFORMED)))) ∧
  (∀ n : Nat, n ≤ 64 → n ≤ canLen n ∧ canLen n ∈ [8, 12, 16, 20, 24, 32, 48, 64] ∧
    ∀ l, l ∈ [8, 12, 16, 20, 24, 32, 48, 64] → n ≤ l → canLen n ≤ l)

/-- The checks of a Closa request in the order of R540, and what a service that passes them answers: SERVICE, NO_OBJECT,
SERVICE for a service that does not fit the type, PATH, READ_ONLY or WRITE_ONLY; then LENGTH where the data does not fit, BUSY
where the context or the object is in a transfer, OUT_OF_RANGE; a READ gives the value in the type's size, a WRITE applies the
object's rule, UPLOAD_BEGIN takes the contents and answers their length, DOWNLOAD_BEGIN opens the transfer, and ABANDON ends
it. Segments (R475): the next one is moved, the last one answered is answered again and moves nothing, any other abandons the
transfer with SEQUENCE. -/
def Obligations.ClosaServicesFollowTheirChecks : Prop :=
  (∀ (s : State) (path : DictPath) (ctx lim : Nat) (wf : Bool) (q : ClosaReq),
    let e := s.closaCheck path ctx lim wf q
    let bad := wf = false ∨ q.svc = 0 ∨ 7 < q.svc ∨ lim < q.dlen ∨ q.data.length < q.dlen
    (bad → e.code = rcService ∧ e.s = s) ∧
    (¬bad → s.objAt (q.idx * 256 + q.sub) = none → e.code = rcNoObject ∧ e.s = s) ∧
    (∀ o k r, ¬bad → s.objAt (q.idx * 256 + q.sub) = some (o, k, r) →
      let a := s.attrCheck o (closaWrites q.svc)
      let allowed := s.pathAllows path o k r (closaWrites q.svc)
      ((o.ty = .domain ↔ q.svc ≤ 2) → e.code = rcService ∧ e.s = s) ∧
      (¬(o.ty = .domain ↔ q.svc ≤ 2) → q.svc ≠ 7 →
        (allowed = false → e.code = rcPath ∧ e.s = s) ∧
        (allowed = true → a ≠ rcOk → e.code = a ∧ e.s = s) ∧
        (allowed = true → a = rcOk → e = s.closaDo path ctx lim o k r q)) ∧
      (o.ty = .domain → q.svc = 7 → e.s.xfer? ctx = none ∧
        e.code = if (s.xfer? ctx).any fun x => x.timedOut then rcTimeout else rcOk))) ∧
  (∀ (s : State) (path : DictPath) (ctx lim k r : Nat) (o : Obj) (q : ClosaReq),
    let e := s.closaDo path ctx lim o k r q
    let key := o.at k r
    let free := s.ctxFree path ctx = true ∧ s.domainBusy key ctx = false
    (q.svc = 1 → (q.dlen ≠ 0 → e.code = rcLength) ∧
      (q.dlen = 0 → e = { s, code := rcOk, data := leBytes o.ty.bytes (s.readObj 0 o k r) })) ∧
    (q.svc = 2 → (q.dlen ≠ o.ty.bytes → e.code = rcLength ∧ e.s = s) ∧
      (q.dlen = o.ty.bytes → o.fits (8 * o.ty.bytes) (leNat q.data) = true → o.inRange (o.keep (leNat q.data)) = true →
        e.s = (writeRule path o k r s (o.keep (leNat q.data))).1 ∧
        e.code = (writeRule path o k r s (o.keep (leNat q.data))).2)) ∧
    (q.svc = 3 → (q.dlen ≠ 0 → e.code = rcLength) ∧ (q.dlen = 0 → ¬free → e.code = rcBusy) ∧
      (q.dlen = 0 → free → ∀ b bs, s.uploadContents o k = (b, .inr bs) → e.code = rcOk ∧ e.data = leBytes 4 bs.length)) ∧
    (q.svc = 5 → (q.dlen ≠ 4 → e.code = rcLength) ∧ (q.dlen = 4 → ¬free → e.code = rcBusy) ∧
      (q.dlen = 4 → free → leNat q.data = 0 ∨ 16777216 < leNat q.data → e.code = rcRange ∧ e.s = s) ∧
      (q.dlen = 4 → free → 1 ≤ leNat q.data → leNat q.data ≤ 16777216 → e.code = rcOk ∧
        ∃ x, e.s.xfer? ctx = some x ∧ x.key = key ∧ x.upload = false ∧ x.total = leNat q.data ∧ x.seq = 0)) ∧
    (∀ x, q.svc = 4 → q.dlen = 0 → s.xfer? ctx = some x → x.timedOut = false → x.key = key → x.upload = true →
      (q.seq = x.seq → x.seq ≠ 0 → e.again = some x.lastResp ∧ e.code = rcOk ∧
        e.s.xfer? ctx = some { x with lastAt := s.now }) ∧
      (q.seq = nextSeg x.seq → e.code = rcOk ∧ e.data = (x.bytes.drop x.pos).take lim) ∧
      (q.seq ≠ x.seq ∨ x.seq = 0 → q.seq ≠ nextSeg x.seq → e.code = rcSequence ∧ e.s.xfer? ctx = none)))

/-- The field port and the statistics: a STATUS frame of 32 bytes, with R485's fields at their places, goes out every
FN_STATUS_MS while STATUS_EN is 1 and the node has an ID, and at no other time; bus-off is counted and abandons the field
transfer, and the port is error-active again after FN_BUSOFF_HOLD_MS (R484). STAT_FREEZE with FREEZE = 1 latches the statistics,
which reads then return, and clears the latency maxima; with FREEZE = 0 the live values show again (R489). -/
def Obligations.FieldPortAndFreezeComplete : Prop :=
  (∀ (s : State) (dt : Nat), s.Up →
    let a := s.elapse dt
    let id := a.objN Obj.FN_NODE_ID
    let due := s.fn.statusAt + 1000000 * a.objN Obj.FN_STATUS_MS ≤ a.now
    (s.fn.st = 1 ∨ s.fn.st = 2 → tbit (a.objN Obj.FN_CTRL) 2 = true → id ≠ 0 → due →
      Completes (.fnStatusFrame dt) s fun t =>
        t.fn = { s.fn with tx := some (7 * 128 + id, a.fnStatus), statusCount := (s.fn.statusCount + 1) % 2 ^ 32,
                           statusAt := a.now } ∧
        t.obj Obj.FN_TX_FRAMES = (a.bump Obj.FN_TX_FRAMES).obj Obj.FN_TX_FRAMES) ∧
    (s.fn.st = 0 ∨ 3 ≤ s.fn.st ∨ tbit (a.objN Obj.FN_CTRL) 2 = false ∨ id = 0 ∨ ¬due → NoEffect (.fnStatusFrame dt) s)) ∧
  (∀ s : State, s.fnStatus.length = 32 ∧ leAt s.fnStatus 0 1 = 1 ∧ leAt s.fnStatus 1 1 = s.modes.current.num ∧
    leAt s.fnStatus 3 1 = s.fnFlags ∧ leAt s.fnStatus 8 8 = s.pos.pack % 2 ^ 64 ∧
    leAt s.fnStatus 24 4 = s.objN Obj.FN_FW_BEAT % 2 ^ 32 ∧ leAt s.fnStatus 28 4 = s.fn.statusCount % 2 ^ 32) ∧
  (∀ (s : State) (dt : Nat), s.Up →
    let a := s.elapse dt
    (s.fn.st ≠ 0 → s.fn.st ≠ 3 → Completes (.fnBusoff dt) s fun t => t.fn = { s.fn with st := 3, busoffAt := a.now } ∧
      t.xfer? 264 = none) ∧
    (s.fn.st = 0 ∨ s.fn.st = 3 → NoEffect (.fnBusoff dt) s) ∧
    (s.fn.st = 3 → s.fn.busoffAt + 1000000 * a.objN Obj.FN_BUSOFF_HOLD_MS ≤ a.now →
      Completes (.fnBusoffRecover dt) s fun t => t.fn = { s.fn with st := 1 }) ∧
    (s.fn.st ≠ 3 ∨ a.now < s.fn.busoffAt + 1000000 * a.objN Obj.FN_BUSOFF_HOLD_MS → NoEffect (.fnBusoffRecover dt) s)) ∧
  (∀ (s : State) (dt : Nat) (path : DictPath) (v : W64), s.Up →
    let a := s.elapse dt
    a.WritePasses path Obj.STAT_CTRL v →
    (tbit v.toNat 0 = true → Completes (.statFreeze dt path v) s fun t => t.Answers path rcOk ∧ t.frozen = a.freezeValues ∧
      (∀ c, c < 4 → t.objN Obj.STAT_LAT_MAX_C c = 0) ∧ t.obj Obj.STAT_FREEZE_TIME = w64 a.now ∧
      (∀ p k o j r, k < 0x38 → a.objAt (0x300010 + k) = some (o, j, r) →
        t.readObj p o j r = (mapGetD a.freezeValues (0x300010 + k) 0).toNat)) ∧
    (tbit v.toNat 0 = false → Completes (.statFreeze dt path v) s fun t => t.Answers path rcOk ∧ t.frozen = [] ∧
      ∀ p o j r, t.readObj p o j r = t.live p o j r))

/-! ### The trouble log -/

/-- TLOG_RECORD: the oldest queued event becomes the next record, in the first area while that has room, then in the last
area, over its oldest record once it is full (R491, R499), and sets the latch of source 33 if its class is enabled (R503).
TLOG_MARK raises an event whose DETAIL is the value written; a full queue loses it, counted (R493, R494). TLOG_CLEAR empties
both areas but for the CLEARED record, puts TLOG_FIRST_SIZE in force, abandons an open image upload and keeps the queue (R499);
that the record is entered in the same cycle is the model's choice (log 151). TLOG_IMAGE_READ gives 36 + 128 n bytes for n
records (R501) and leaves the log as it is. -/
def Obligations.TroubleLogRowsComplete : Prop :=
  (∀ (s : State) (dt : Nat) (e : TlEvent) (rest : List TlEvent), s.Up → s.Inv → s.tlog.queue = e :: rest →
    let a := s.elapse dt
    Completes (.tlogRecord dt) s fun t => ∃ r : TlRecord,
      r.lseq = s.tlog.nextSeq ∧ r.kind = e.kind ∧ r.source = e.source ∧ r.detail = e.detail ∧ r.time = e.time ∧ r.pos = e.pos ∧
      r.list = a.classList e.cls ∧ r.lostBefore = s.tlog.lostBefore ∧ r.count = (a.listEntries r.list).length ∧
      t.tlog.queue = rest ∧ t.tlog.nextSeq = s.tlog.nextSeq + 1 ∧ t.tlog.lostBefore = false ∧
      (s.tlog.first.length < s.tlog.size → t.tlog.first = s.tlog.first ++ [r] ∧ t.tlog.last = s.tlog.last ∧
        r.firstArea = true) ∧
      (s.tlog.size ≤ s.tlog.first.length → t.tlog.first = s.tlog.first ∧ r.firstArea = false ∧
        (s.tlog.last.length < 512 - s.tlog.size → t.tlog.last = s.tlog.last ++ [r] ∧ t.tlog.wrapped = s.tlog.wrapped) ∧
        (512 - s.tlog.size ≤ s.tlog.last.length → t.tlog.last = s.tlog.last.drop 1 ++ [r] ∧ t.tlog.wrapped = true ∧
          t.tlog.overwritten = satAdd (2 ^ 64 - 1) s.tlog.overwritten 1)) ∧
      (∀ x, x ∈ t.ints.latches ↔ x ∈ s.ints.latches ∨ (x = 33 ∧ tbit (a.objN Obj.TLOG_IRQ_CLASS) e.cls = true))) ∧
  (∀ (s : State) (dt : Nat), s.Up → s.tlog.queue = [] → NoEffect (.tlogRecord dt) s) ∧
  (∀ (s : State) (dt : Nat) (path : DictPath) (v : W64), s.Up → s.Inv →
    let a := s.elapse dt
    let e : TlEvent := { kind := 0x02, cls := 0, source := pathArm path, detail := v.toNat, time := a.now, pos := a.pos }
    a.WritePasses path Obj.TLOG_MARK v → Completes (.tlogMark dt path v) s fun t => t.Answers path rcOk ∧
      (s.tlog.queue.length < 32 → t.tlog = { s.tlog with queue := s.tlog.queue ++ [e] }) ∧
      (s.tlog.queue.length = 32 → t.tlog = { s.tlog with lost := satAdd 0xFFFFFFFF s.tlog.lost 1, lostBefore := true })) ∧
  (∀ (s : State) (dt : Nat) (path : DictPath) (v : W64), s.Up → s.Inv →
    let a := s.elapse dt
    a.WritePasses path Obj.TLOG_CTRL (w64 (setBits v.toNat 0 1 1)) → Completes (.tlogClear dt path v) s fun t =>
      t.Answers path rcOk ∧ t.tlog.queue = s.tlog.queue ∧ t.tlog.size = a.objN Obj.TLOG_FIRST_SIZE ∧ t.tlog.wrapped = false ∧
      t.tlog.nextSeq = s.tlog.nextSeq + 1 ∧ (∀ x ∈ t.xfers, x.timedOut = false → x.key ≠ Obj.TLOG_IMAGE.key) ∧
      ∃ r : TlRecord, t.tlog.first ++ t.tlog.last = [r] ∧ r.kind = 0x03 ∧ r.lseq = s.tlog.nextSeq ∧
        r.detail = s.tlog.first.length + s.tlog.last.length ∧
        r.firstArea = decide (0 < a.objN Obj.TLOG_FIRST_SIZE) ∧ (0 < a.objN Obj.TLOG_FIRST_SIZE → t.tlog.first = [r])) ∧
  (∀ (s : State) (dt : Nat) (path : DictPath), s.Up → s.Inv →
    let a := s.elapse dt
    a.TransferPasses path Obj.TLOG_IMAGE false 1 → Completes (.tlogImageRead dt path) s fun t =>
      t.Answers path rcOk (36 + 128 * a.imageRecords.length) ∧ t.tlog = s.tlog)

/-! ### Frames -/

/-- What the rows of media work leave as it is: the raster, the notice queues, interrupt stacks, latches and configuration, the
processors' banks, dictionary transfers, the configuration port, the field port, frozen statistics, the codes and a snapshot's
hold; offered notices are only added to. -/
def Obligations.MediaRowsFrame : Prop :=
  ∀ (s t : State) (i : Instr), s.Inv → i.isMedia = true → exec i s = .next t →
    ∀ f, f ∈ [Field.raster, .nqs, .ints, .procs, .xfers, .cfg, .fn, .frozen, .codes, .codeErr, .calSnapFrom, .offers] → f.same s t

/-- What the other families leave as it is. Protection writes and the keys change protection, stored objects and the access's
own answer, and the start of a sanitize sequence also die operations and tokens; interrupt rows change interrupts and the processors' banks; notice, buffer, copy-engine and memory-port rows leave
the raster, the sequencers, the codes, transfers and the field port; reads of the dictionary change only what an access records;
trouble-log rows change the log, its latch and an image upload. -/
def Obligations.OtherRowsFrame : Prop :=
  (∀ (s t : State) (i : Instr), s.Inv →
    (∃ dt path v, i = .protLevelRaise dt path v ∨ i = .seal dt path v ∨ i = .bootRegionWrite dt path v ∨
      i = .bwCtrlWrite dt path v ∨ i = .rmpKey1 dt path v ∨ i = .rmpKey2 dt path v) → exec i s = .next t →
    Untouched [.prot, .dict, .cfg, .procs] s t) ∧
  (∀ (s t : State) (i : Instr), s.Inv →
    (∃ dt path v, i = .eraseUser dt path v ∨ i = .eraseAll dt path v ∨ i = .lower dt path v) → exec i s = .next t →
    Untouched [.prot, .dict, .cfg, .procs, .ops, .nextOp, .tokens] s t) ∧
  (∀ (s t : State) (i : Instr), s.Inv → (∃ dt path, i = .rmpArmLapse dt path) → exec i s = .next t → Untouched [.prot] s t) ∧
  (∀ (s t : State) (i : Instr), s.Inv → (∃ dt p v, i = .intEoi dt p v ∨ i = .intSoft dt p v) ∨ (∃ dt p, i = .intClaim dt p) →
    exec i s = .next t → Untouched [.ints, .procs, .cfg, .dict] s t) ∧
  (∀ (s t : State) (i : Instr), s.Inv → (∃ dt p l, i = .sleepInd dt p l) ∨ (∃ dt g, i = .coalTimer dt g) →
    exec i s = .next t → Untouched [.ints] s t) ∧
  (∀ (s t : State) (i : Instr), s.Inv →
    (∃ dt, i = .noticeOffer dt) ∨ (∃ dt q, i = .heldNoticeEnter dt q) ∨ (∃ dt n, i = .mpCmdCredit dt n ∨ i = .mpWrCredit dt n) ∨
      (∃ dt n tag beat l b, i = .mpRdBeat dt n tag beat l b) ∨ (∃ dt n tag b, i = .mpAck dt n tag b) ∨
      (∃ dt p q, i = .bufAlloc dt p q) ∨ (∃ dt p v, i = .bufFree dt p v ∨ i = .bufFreeAddr dt p v ∨ i = .bufRef dt p v) ∨
      (∃ dt path v, i = .poolEnable dt path v) ∨ (∃ dt path c v, i = .ceStart dt path c v) ∨
      (∃ dt path c, i = .ceAbort dt path c) ∨ (∃ dt c, i = .ceDone dt c) → exec i s = .next t →
    ∀ f, f ∈ [Field.raster, .clusters, .ctxs, .activation, .comet, .codes, .codeErr, .calSnapFrom, .xfers, .fn, .frozen, .hostCws,
      .origins, .nextVer, .walking, .running, .lostDies] → f.same s t) ∧
  (∀ (s t : State) (dt q : Nat), s.Inv → exec (.nqFlushTimeout dt q) s = .next t → Untouched [.nqs, .ports, .freeN] s t) ∧
  (∀ (s t : State) (dt p q : Nat), s.Inv → exec (.nqTry dt p q) s = .next t ∨ exec (.nqPop dt p q) s = .next t →
    Untouched [.nqs, .ports, .freeN, .cfg, .procs, .dict] s t) ∧
  (∀ (s t : State) (dt : Nat) (path : DictPath), s.Inv → exec (.mapSafeSeqRead dt path) s = .next t →
    Untouched [.cfg, .procs, .dict] s t) ∧
  (∀ (s t : State) (dt : Nat) (path : DictPath) (v : W64), s.Inv → exec (.statFreeze dt path v) s = .next t →
    Untouched [.frozen, .cfg, .procs, .dict] s t) ∧
  (∀ (s t : State) (i : Instr), s.Inv → (∃ dt, i = .fnStatusFrame dt ∨ i = .fnBusoffRecover dt) → exec i s = .next t →
    Untouched [.fn, .dict] s t ∧ DictKept [Obj.FN_TX_FRAMES.at 0 0] s t) ∧
  (∀ (s t : State) (dt : Nat), s.Inv → exec (.tlogRecord dt) s = .next t → Untouched [.tlog, .ints, .xfers] s t) ∧
  (∀ (s t : State) (dt : Nat) (path : DictPath) (v : W64), s.Inv → exec (.tlogMark dt path v) s = .next t →
    Untouched [.tlog, .cfg, .procs, .dict] s t) ∧
  (∀ (s t : State) (dt : Nat) (path : DictPath) (v : W64), s.Inv → exec (.tlogClear dt path v) s = .next t →
    Untouched [.tlog, .ints, .xfers, .cfg, .procs, .dict] s t)

/-- What the rows of the remaining shapes leave as it is: the narrow ones by the fields they may change, the wide ones, which let
waiting work go on, by fields that they never change. -/
def Obligations.RemainingRowsFrame : Prop :=
  (∀ (s t : State) (dt : Nat), s.Inv → exec (.initDone dt) s = .next t → Untouched [.chans, .phase, .raster, .tlog] s t) ∧
  (∀ (s t : State) (dt : Nat) (path : DictPath) (v : W64), s.Inv →
    (exec (.allocEnable dt path v) s = .next t → Untouched [.walking, .dict, .cfg, .procs] s t) ∧
    (exec (.blockRetire dt path v) s = .next t ∨ exec (.blockClassSet dt path v) s = .next t →
      (s.modes.current ≠ .recordBurst → Untouched [.mem, .dict, .cfg, .procs] s t) ∧
      ∀ f, f ∈ [Field.raster, .nqs, .ints, .ce, .ports, .xfers, .fn, .frozen, .codes, .codeErr, .sbs, .versions, .ops, .jobs,
        .comet, .chans, .dies, .ctxs, .activation] → f.same s t) ∧
    (exec (.mapUnderlay dt path v) s = .next t → Untouched [.dict, .cfg, .procs] s t)) ∧
  (∀ (s t : State) (dt ch sub : Nat) (path : DictPath) (v : W64), s.Inv → exec (.mbFieldWrite dt path ch sub v) s = .next t →
    Untouched [.chans, .dict, .cfg, .procs] s t) ∧
  (∀ (s t : State) (dt : Nat), s.Inv → exec (.drainDone dt) s = .next t → Untouched [.chans, .prot, .dict] s t) ∧
  (∀ (s t : State) (i : Instr), s.Inv → (∃ dt a p q l, i = .bwFetch dt a p q l) ∨ (∃ dt, i = .bwFetchWaitExpired dt) →
    exec i s = .next t → Untouched [.prot, .dict, .tlog] s t) ∧
  (∀ (s t : State) (dt p : Nat), s.Inv → exec (.nqBlockExpired dt p) s = .next t → Untouched [.cfg, .procs, .dict] s t) ∧
  (∀ (s t : State) (dt q : Nat) (path : DictPath), s.Inv →
    exec (.flushNq dt path q) s = .next t ∨ exec (.clearNq dt path q) s = .next t →
    Untouched [.nqs, .ports, .freeN, .cfg, .procs, .dict] s t) ∧
  (∀ (s t : State) (i : Instr), s.Inv →
    (∃ dt path bs, i = .orbitStandbyWrite dt path bs ∨ i = .calRestore dt path bs ∨ i = .ucodeLoad dt path bs) ∨
      (∃ dt path c bs, i = .codeDescWrite dt path c bs) ∨ (∃ dt path bs g, i = .psaveDataWrite dt path bs g) ∨
      (∃ dt path, i = .calSnapshotRead dt path ∨ i = .tlogImageRead dt path) → exec i s = .next t →
    ∀ f, f ∈ [Field.raster, .modes, .streams, .versions, .sbs, .ops, .jobs, .rebuilds, .dies, .nqs, .ints, .ce, .ports, .fn,
      .frozen, .activation, .ctxs, .pins, .blockLocks, .hostCws, .origins, .nextVer, .walking, .running, .comet, .stampNext] →
      f.same s t) ∧
  (∀ (s t : State) (i : Instr), s.Inv →
    (∃ dt n, i = .frameBoundary dt n) ∨ (∃ dt, i = .rasValidFall dt ∨ i = .rasterLossTimeout dt ∨ i = .virtualFrameBoundary dt ∨
      i = .orbitTick dt) → exec i s = .next t →
    ∀ f, f ∈ [Field.prot, .nqs, .ce, .ports, .procs, .xfers, .cfg, .fn, .frozen, .codes, .codeErr, .clusters, .ctxs, .activation,
      .jobs, .rebuilds, .comet, .calLast, .calSnapFrom, .hostCws, .origins, .nextVer, .walking, .running, .stampNext, .tokens,
      .blockLocks, .pins] → f.same s t) ∧
  (∀ (s t : State) (i : Instr), s.Inv →
    (∃ x, i.inbound = some x) ∨ (∃ dt, i = .readyDrop dt) ∨ (s.link.mreqs = [] ∧ ∃ dt, i = .packetSend dt) ∨
      (∃ dt n, i = .xrdyGrant dt n ∨ i = .windowExpired dt n) → exec i s = .next t →
    ∀ f, f ∈ [Field.raster, .nqs, .ints, .procs, .cfg, .fn, .frozen, .codes, .codeErr, .comet, .hostCws, .origins, .nextVer,
      .walking, .running, .interimBlocks, .stallFrom, .lostDies] → f.same s t) ∧
  (∀ (s t : State) (i : Instr), s.Inv →
    (∃ dt a b sp ps, i = .protReady dt a b sp ps) ∨ (∃ dt path ch, i = .enum dt path ch ∨ i = .failChannel dt path ch) ∨
      (∃ dt path ch v, i = .chDieFail dt path ch v ∨ i = .mbCtrl dt path ch v) ∨
      (∃ dt path v, i = .rawAreaWrite dt path v ∨ i = .lswGo dt path v) ∨ (∃ dt, i = .sanitizeDone dt) ∨
      (∃ dt, i = .pfail dt ∨ i = .fnBusoff dt) ∨ (∃ dt n, i = .dictSegTimeout dt n ∨ i = .eyeScanOverrun dt n) →
    exec i s = .next t →
    ∀ f, f ∈ [Field.raster, .nqs, .frozen, .codes, .codeErr, .comet, .hostCws, .nextVer, .running, .walking] → f.same s t) ∧
  (∀ (s t : State) (i : Instr), s.Inv →
    (∃ x, i.closa = some x) ∨ (∃ dt p n b w, i = .cfgDownloadOpen dt p n b w ∨ i = .cfgDownloadAppend dt p n b w ∨
      i = .cfgWriteLatch dt p n b w) ∨ (∃ dt p n b, i = .cfgAbandon dt p n b ∨ i = .cfgUploadOpen dt p n b ∨
      i = .cfgUploadRead dt p n b) ∨ (∃ dt p n b off w, i = .objectWrite dt p n b off w) → exec i s = .next t →
    ∀ f, f ∈ [Field.comet, .hostCws, .nextVer, .running] → f.same s t)
end

