-- ==== Sys2Proof/Laws/Bytes.lean ====
section
/-!
SUPPORT. Laws/Bytes.lean: byte strings as numbers: what a field of the string of a number holds, its parts and length, and its
CRC-32C as a fold over the number.
-/

namespace Sys2Proof.Laws

open Sys2Proof Sys2Proof.Machine

theorem byteAt_leBytes : ∀ (n x i : Nat), byteAt (leBytes n x) i = BitVec.ofNat 8 (x % 256 ^ n / 256 ^ i) := by
  intro n
  induction n with
  | zero => intro x i; simp [leBytes, byteAt, Nat.mod_one]
  | succ n ih =>
    intro x i
    cases i with
    | zero =>
      simp only [leBytes, byteAt, List.getD_cons_zero, Nat.pow_zero, Nat.div_one]
      apply BitVec.eq_of_toNat_eq
      simp only [BitVec.toNat_ofNat]
      show x % 256 = x % 256 ^ (n + 1) % 256
      rw [Nat.pow_succ' (m := 256) (n := n), Nat.mod_mul_right_mod]
    | succ i =>
      have := ih (x / 256) i
      simp only [byteAt, leBytes, List.getD_cons_succ] at this ⊢
      rw [this, Nat.pow_succ' (m := 256) (n := n), Nat.pow_succ' (m := 256) (n := i), ← Nat.div_div_eq_div_mul,
        Nat.mod_mul_right_div_self]

theorem leAt_leBytes (n x o k : Nat) : leAt (leBytes n x) o k = x % 256 ^ n / 256 ^ o % 256 ^ k := by
  induction k generalizing o with
  | zero => simp [leAt, leNat, Nat.mod_one]
  | succ k ih =>
    have e : leAt (leBytes n x) o (k + 1) = (byteAt (leBytes n x) o).toNat + 256 * leAt (leBytes n x) (o + 1) k := by
      simp only [leAt, List.range_succ_eq_map, List.map_cons, List.map_map, leNat, Nat.add_zero, Function.comp_def,
        Nat.succ_eq_add_one, Nat.add_assoc, Nat.add_comm 1]
    rw [e, ih (o + 1), byteAt_leBytes, BitVec.toNat_ofNat, Nat.pow_succ 256 o, ← Nat.div_div_eq_div_mul,
      Nat.pow_succ' (m := 256) (n := k), Nat.mod_mul]

theorem take_leBytes : ∀ (k n x : Nat), k ≤ n → (leBytes n x).take k = leBytes k x := by
  intro k
  induction k with
  | zero => intros; rfl
  | succ k ih =>
    intro n x h
    cases n with
    | zero => omega
    | succ n => simp [leBytes, ih n (x / 256) (by omega)]

theorem drop_leBytes : ∀ (k n x : Nat), k ≤ n → (leBytes n x).drop k = leBytes (n - k) (x / 256 ^ k) := by
  intro k
  induction k with
  | zero => intros; simp
  | succ k ih =>
    intro n x h
    cases n with
    | zero => omega
    | succ n =>
      simp only [leBytes, List.drop_succ_cons]
      rw [ih n (x / 256) (by omega), Nat.div_div_eq_div_mul, Nat.pow_succ', Nat.add_sub_add_right]

@[simp] theorem length_leBytes (n x : Nat) : (leBytes n x).length = n := by
  induction n generalizing x with
  | zero => rfl
  | succ n ih => simp [leBytes, ih]

/-! ### Fields of strings, and randomizing -/

theorem leAt_succ (bs : List Byte) (o n : Nat) : leAt bs o (n + 1) = (byteAt bs o).toNat + 256 * leAt bs (o + 1) n := by
  simp only [leAt, List.range_succ_eq_map, List.map_cons, List.map_map, leNat, Nat.add_zero, Function.comp_def,
    Nat.succ_eq_add_one, Nat.add_assoc, Nat.add_comm 1]

/-- A bit of a field of a string is a bit of one of its bytes. -/
theorem tbit_leAt (bs : List Byte) (n o i : Nat) (h : i < 8 * n) :
    tbit (leAt bs o n) i = tbit (byteAt bs (o + i / 8)).toNat (i % 8) := by
  induction n generalizing o i with
  | zero => omega
  | succ n ih =>
    have hb := (byteAt bs o).isLt
    rw [leAt_succ]
    by_cases h8 : i < 8
    · have e : i / 8 = 0 := by omega
      have m : i % 8 = i := by omega
      rw [e, m]
      have : ∀ r : Nat, ((byteAt bs o).toNat + 256 * r) / 2 ^ i % 2 = (byteAt bs o).toNat / 2 ^ i % 2 := by
        intro r
        have hi : i = 0 ∨ i = 1 ∨ i = 2 ∨ i = 3 ∨ i = 4 ∨ i = 5 ∨ i = 6 ∨ i = 7 := by omega
        rcases hi with rfl | rfl | rfl | rfl | rfl | rfl | rfl | rfl <;> omega
      simp only [tbit, this, Nat.add_zero]
    · have e : o + i / 8 = o + 1 + (i - 8) / 8 := by omega
      have m : i % 8 = (i - 8) % 8 := by omega
      rw [e, m, ← ih (o + 1) (i - 8) (by omega)]
      have hp : 2 ^ i = 2 ^ 8 * 2 ^ (i - 8) := by rw [← Nat.pow_add]; congr 1; omega
      simp only [tbit]
      rw [hp, ← Nat.div_div_eq_div_mul]
      congr 3
      omega

@[simp] theorem length_whiten (s : Nat) (l : List Byte) : (whiten s l).length = l.length := by
  induction l generalizing s with
  | nil => rfl
  | cons b bs ih => simp [whiten, ih]

theorem padTo_length (l : List Byte) : padTo l.length l = l := by simp [padTo]

/-- `f c`, with `c` evaluated first. -/
def evalThen (c : Nat) (f : Nat → Nat) : Nat := match c with
  | 0 => f 0
  | d + 1 => f (d + 1)

theorem evalThen_eq (c : Nat) (f : Nat → Nat) : evalThen c f = f c := by cases c <;> rfl

/-- The keystream state after `n` bytes. -/
def lfsrAt : Nat → Nat → Nat
  | 0, s => s
  | n + 1, s => evalThen (lfsrByte s).2 (lfsrAt n)

/-- Randomizing XORs each byte with its byte of the keystream (R275, R276). -/
theorem byteAt_whiten (l : List Byte) (s i : Nat) (h : i < l.length) :
    byteAt (whiten s l) i = byteAt l i ^^^ BitVec.ofNat 8 (lfsrByte (lfsrAt i s)).1 := by
  induction l generalizing s i with
  | nil => simp at h
  | cons b bs ih =>
    cases i with
    | zero => rfl
    | succ i =>
      have := ih (lfsrByte s).2 i (by simpa using h)
      simpa only [byteAt, whiten, List.getD_cons_succ, lfsrAt, evalThen_eq] using this

/-- The CRC register over the bytes of a number. -/
def crcOver : Nat → Nat → Nat → Nat
  | 0, _, c => c
  | n + 1, x, c => evalThen (crcByte c (BitVec.ofNat 8 x)) fun d => crcOver n (x / 256) d

theorem crc_leBytes (n x : Nat) : crc32c (leBytes n x) = (crcOver n x 0xFFFFFFFF).xor 0xFFFFFFFF := by
  have h : ∀ (n x c : Nat), (leBytes n x).foldl crcByte c = crcOver n x c := by
    intro n
    induction n with
    | zero => intro x c; rw [leBytes, crcOver, List.foldl_nil]
    | succ n ih => intro x c; rw [crcOver, evalThen_eq, leBytes, List.foldl_cons, ih]
  rw [crc32c, h]

end Sys2Proof.Laws
end

