-- ==== Sys2Proof/Laws/State.lean ====
section
/-!
SUPPORT. Laws/State.lean: which fields of the state each named operation of Machine/Ops.lean leaves as they are, one lemma
for each field and operation.
-/

namespace Sys2Proof.Machine

open Sys2Proof

variable (s : State)

/-! `setObj` changes only: dict. -/

@[simp] theorem State.setObj_pending (o : Obj) (v : W64) (i r : Nat) : (s.setObj o v i r).pending = s.pending := (rfl)
@[simp] theorem State.setObj_build (o : Obj) (v : W64) (i r : Nat) : (s.setObj o v i r).build = s.build := (rfl)
@[simp] theorem State.setObj_phase (o : Obj) (v : W64) (i r : Nat) : (s.setObj o v i r).phase = s.phase := (rfl)
@[simp] theorem State.setObj_resetPor (o : Obj) (v : W64) (i r : Nat) : (s.setObj o v i r).resetPor = s.resetPor := (rfl)
@[simp] theorem State.setObj_porLow (o : Obj) (v : W64) (i r : Nat) : (s.setObj o v i r).porLow = s.porLow := (rfl)
@[simp] theorem State.setObj_blkLow (o : Obj) (v : W64) (i r : Nat) : (s.setObj o v i r).blkLow = s.blkLow := (rfl)
@[simp] theorem State.setObj_lostAtReset (o : Obj) (v : W64) (i r : Nat) : (s.setObj o v i r).lostAtReset = s.lostAtReset := (rfl)
@[simp] theorem State.setObj_trefKhz (o : Obj) (v : W64) (i r : Nat) : (s.setObj o v i r).trefKhz = s.trefKhz := (rfl)
@[simp] theorem State.setObj_fnclkSel (o : Obj) (v : W64) (i r : Nat) : (s.setObj o v i r).fnclkSel = s.fnclkSel := (rfl)
@[simp] theorem State.setObj_testMode (o : Obj) (v : W64) (i r : Nat) : (s.setObj o v i r).testMode = s.testMode := (rfl)
@[simp] theorem State.setObj_mbistBusy (o : Obj) (v : W64) (i r : Nat) : (s.setObj o v i r).mbistBusy = s.mbistBusy := (rfl)
@[simp] theorem State.setObj_mbistDone (o : Obj) (v : W64) (i r : Nat) : (s.setObj o v i r).mbistDone = s.mbistDone := (rfl)
@[simp] theorem State.setObj_mbistFail (o : Obj) (v : W64) (i r : Nat) : (s.setObj o v i r).mbistFail = s.mbistFail := (rfl)
@[simp] theorem State.setObj_tref (o : Obj) (v : W64) (i r : Nat) : (s.setObj o v i r).tref = s.tref := (rfl)
@[simp] theorem State.setObj_freeN (o : Obj) (v : W64) (i r : Nat) : (s.setObj o v i r).freeN = s.freeN := (rfl)
@[simp] theorem State.setObj_mem (o : Obj) (v : W64) (i r : Nat) : (s.setObj o v i r).mem = s.mem := (rfl)
@[simp] theorem State.setObj_modes (o : Obj) (v : W64) (i r : Nat) : (s.setObj o v i r).modes = s.modes := (rfl)
@[simp] theorem State.setObj_raster (o : Obj) (v : W64) (i r : Nat) : (s.setObj o v i r).raster = s.raster := (rfl)
@[simp] theorem State.setObj_orbit (o : Obj) (v : W64) (i r : Nat) : (s.setObj o v i r).orbit = s.orbit := (rfl)
@[simp] theorem State.setObj_streams (o : Obj) (v : W64) (i r : Nat) : (s.setObj o v i r).streams = s.streams := (rfl)
@[simp] theorem State.setObj_link (o : Obj) (v : W64) (i r : Nat) : (s.setObj o v i r).link = s.link := (rfl)
@[simp] theorem State.setObj_cmds (o : Obj) (v : W64) (i r : Nat) : (s.setObj o v i r).cmds = s.cmds := (rfl)
@[simp] theorem State.setObj_stampNext (o : Obj) (v : W64) (i r : Nat) : (s.setObj o v i r).stampNext = s.stampNext := (rfl)
@[simp] theorem State.setObj_seqWritten (o : Obj) (v : W64) (i r : Nat) : (s.setObj o v i r).seqWritten = s.seqWritten := (rfl)
@[simp] theorem State.setObj_deferred (o : Obj) (v : W64) (i r : Nat) : (s.setObj o v i r).deferred = s.deferred := (rfl)
@[simp] theorem State.setObj_deferNew (o : Obj) (v : W64) (i r : Nat) : (s.setObj o v i r).deferNew = s.deferNew := (rfl)
@[simp] theorem State.setObj_versions (o : Obj) (v : W64) (i r : Nat) : (s.setObj o v i r).versions = s.versions := (rfl)
@[simp] theorem State.setObj_nextVer (o : Obj) (v : W64) (i r : Nat) : (s.setObj o v i r).nextVer = s.nextVer := (rfl)
@[simp] theorem State.setObj_hostCws (o : Obj) (v : W64) (i r : Nat) : (s.setObj o v i r).hostCws = s.hostCws := (rfl)
@[simp] theorem State.setObj_origins (o : Obj) (v : W64) (i r : Nat) : (s.setObj o v i r).origins = s.origins := (rfl)
@[simp] theorem State.setObj_sbs (o : Obj) (v : W64) (i r : Nat) : (s.setObj o v i r).sbs = s.sbs := (rfl)
@[simp] theorem State.setObj_allocReqs (o : Obj) (v : W64) (i r : Nat) : (s.setObj o v i r).allocReqs = s.allocReqs := (rfl)
@[simp] theorem State.setObj_walking (o : Obj) (v : W64) (i r : Nat) : (s.setObj o v i r).walking = s.walking := (rfl)
@[simp] theorem State.setObj_running (o : Obj) (v : W64) (i r : Nat) : (s.setObj o v i r).running = s.running := (rfl)
@[simp] theorem State.setObj_interimBlocks (o : Obj) (v : W64) (i r : Nat) : (s.setObj o v i r).interimBlocks = s.interimBlocks := (rfl)
@[simp] theorem State.setObj_zeroFrom (o : Obj) (v : W64) (i r : Nat) : (s.setObj o v i r).zeroFrom = s.zeroFrom := (rfl)
@[simp] theorem State.setObj_stallFrom (o : Obj) (v : W64) (i r : Nat) : (s.setObj o v i r).stallFrom = s.stallFrom := (rfl)
@[simp] theorem State.setObj_lostDies (o : Obj) (v : W64) (i r : Nat) : (s.setObj o v i r).lostDies = s.lostDies := (rfl)
@[simp] theorem State.setObj_tokens (o : Obj) (v : W64) (i r : Nat) : (s.setObj o v i r).tokens = s.tokens := (rfl)
@[simp] theorem State.setObj_blockLocks (o : Obj) (v : W64) (i r : Nat) : (s.setObj o v i r).blockLocks = s.blockLocks := (rfl)
@[simp] theorem State.setObj_pins (o : Obj) (v : W64) (i r : Nat) : (s.setObj o v i r).pins = s.pins := (rfl)
@[simp] theorem State.setObj_ops (o : Obj) (v : W64) (i r : Nat) : (s.setObj o v i r).ops = s.ops := (rfl)
@[simp] theorem State.setObj_nextOp (o : Obj) (v : W64) (i r : Nat) : (s.setObj o v i r).nextOp = s.nextOp := (rfl)
@[simp] theorem State.setObj_jobs (o : Obj) (v : W64) (i r : Nat) : (s.setObj o v i r).jobs = s.jobs := (rfl)
@[simp] theorem State.setObj_nextJob (o : Obj) (v : W64) (i r : Nat) : (s.setObj o v i r).nextJob = s.nextJob := (rfl)
@[simp] theorem State.setObj_rebuilds (o : Obj) (v : W64) (i r : Nat) : (s.setObj o v i r).rebuilds = s.rebuilds := (rfl)
@[simp] theorem State.setObj_comet (o : Obj) (v : W64) (i r : Nat) : (s.setObj o v i r).comet = s.comet := (rfl)
@[simp] theorem State.setObj_cometHeld (o : Obj) (v : W64) (i r : Nat) : (s.setObj o v i r).cometHeld = s.cometHeld := (rfl)
@[simp] theorem State.setObj_slotsUsed (o : Obj) (v : W64) (i r : Nat) : (s.setObj o v i r).slotsUsed = s.slotsUsed := (rfl)
@[simp] theorem State.setObj_slcOkOnce (o : Obj) (v : W64) (i r : Nat) : (s.setObj o v i r).slcOkOnce = s.slcOkOnce := (rfl)
@[simp] theorem State.setObj_codes (o : Obj) (v : W64) (i r : Nat) : (s.setObj o v i r).codes = s.codes := (rfl)
@[simp] theorem State.setObj_codeErr (o : Obj) (v : W64) (i r : Nat) : (s.setObj o v i r).codeErr = s.codeErr := (rfl)
@[simp] theorem State.setObj_cal (o : Obj) (v : W64) (i r : Nat) : (s.setObj o v i r).cal = s.cal := (rfl)
@[simp] theorem State.setObj_calLast (o : Obj) (v : W64) (i r : Nat) : (s.setObj o v i r).calLast = s.calLast := (rfl)
@[simp] theorem State.setObj_calSnapFrom (o : Obj) (v : W64) (i r : Nat) : (s.setObj o v i r).calSnapFrom = s.calSnapFrom := (rfl)
@[simp] theorem State.setObj_prot (o : Obj) (v : W64) (i r : Nat) : (s.setObj o v i r).prot = s.prot := (rfl)
@[simp] theorem State.setObj_chans (o : Obj) (v : W64) (i r : Nat) : (s.setObj o v i r).chans = s.chans := (rfl)
@[simp] theorem State.setObj_dies (o : Obj) (v : W64) (i r : Nat) : (s.setObj o v i r).dies = s.dies := (rfl)
@[simp] theorem State.setObj_clusters (o : Obj) (v : W64) (i r : Nat) : (s.setObj o v i r).clusters = s.clusters := (rfl)
@[simp] theorem State.setObj_ctxs (o : Obj) (v : W64) (i r : Nat) : (s.setObj o v i r).ctxs = s.ctxs := (rfl)
@[simp] theorem State.setObj_activation (o : Obj) (v : W64) (i r : Nat) : (s.setObj o v i r).activation = s.activation := (rfl)
@[simp] theorem State.setObj_pools (o : Obj) (v : W64) (i r : Nat) : (s.setObj o v i r).pools = s.pools := (rfl)
@[simp] theorem State.setObj_offered (o : Obj) (v : W64) (i r : Nat) : (s.setObj o v i r).offered = s.offered := (rfl)
@[simp] theorem State.setObj_offers (o : Obj) (v : W64) (i r : Nat) : (s.setObj o v i r).offers = s.offers := (rfl)
@[simp] theorem State.setObj_nqs (o : Obj) (v : W64) (i r : Nat) : (s.setObj o v i r).nqs = s.nqs := (rfl)
@[simp] theorem State.setObj_ce (o : Obj) (v : W64) (i r : Nat) : (s.setObj o v i r).ce = s.ce := (rfl)
@[simp] theorem State.setObj_ceSlots (o : Obj) (v : W64) (i r : Nat) : (s.setObj o v i r).ceSlots = s.ceSlots := (rfl)
@[simp] theorem State.setObj_ports (o : Obj) (v : W64) (i r : Nat) : (s.setObj o v i r).ports = s.ports := (rfl)
@[simp] theorem State.setObj_ints (o : Obj) (v : W64) (i r : Nat) : (s.setObj o v i r).ints = s.ints := (rfl)
@[simp] theorem State.setObj_procs (o : Obj) (v : W64) (i r : Nat) : (s.setObj o v i r).procs = s.procs := (rfl)
@[simp] theorem State.setObj_xfers (o : Obj) (v : W64) (i r : Nat) : (s.setObj o v i r).xfers = s.xfers := (rfl)
@[simp] theorem State.setObj_cfg (o : Obj) (v : W64) (i r : Nat) : (s.setObj o v i r).cfg = s.cfg := (rfl)
@[simp] theorem State.setObj_fn (o : Obj) (v : W64) (i r : Nat) : (s.setObj o v i r).fn = s.fn := (rfl)
@[simp] theorem State.setObj_frozen (o : Obj) (v : W64) (i r : Nat) : (s.setObj o v i r).frozen = s.frozen := (rfl)
@[simp] theorem State.setObj_tlog (o : Obj) (v : W64) (i r : Nat) : (s.setObj o v i r).tlog = s.tlog := (rfl)

/-! `setObjN` changes only: dict. -/

@[simp] theorem State.setObjN_pending (o : Obj) (v i r : Nat) : (s.setObjN o v i r).pending = s.pending := (rfl)
@[simp] theorem State.setObjN_build (o : Obj) (v i r : Nat) : (s.setObjN o v i r).build = s.build := (rfl)
@[simp] theorem State.setObjN_phase (o : Obj) (v i r : Nat) : (s.setObjN o v i r).phase = s.phase := (rfl)
@[simp] theorem State.setObjN_resetPor (o : Obj) (v i r : Nat) : (s.setObjN o v i r).resetPor = s.resetPor := (rfl)
@[simp] theorem State.setObjN_porLow (o : Obj) (v i r : Nat) : (s.setObjN o v i r).porLow = s.porLow := (rfl)
@[simp] theorem State.setObjN_blkLow (o : Obj) (v i r : Nat) : (s.setObjN o v i r).blkLow = s.blkLow := (rfl)
@[simp] theorem State.setObjN_lostAtReset (o : Obj) (v i r : Nat) : (s.setObjN o v i r).lostAtReset = s.lostAtReset := (rfl)
@[simp] theorem State.setObjN_trefKhz (o : Obj) (v i r : Nat) : (s.setObjN o v i r).trefKhz = s.trefKhz := (rfl)
@[simp] theorem State.setObjN_fnclkSel (o : Obj) (v i r : Nat) : (s.setObjN o v i r).fnclkSel = s.fnclkSel := (rfl)
@[simp] theorem State.setObjN_testMode (o : Obj) (v i r : Nat) : (s.setObjN o v i r).testMode = s.testMode := (rfl)
@[simp] theorem State.setObjN_mbistBusy (o : Obj) (v i r : Nat) : (s.setObjN o v i r).mbistBusy = s.mbistBusy := (rfl)
@[simp] theorem State.setObjN_mbistDone (o : Obj) (v i r : Nat) : (s.setObjN o v i r).mbistDone = s.mbistDone := (rfl)
@[simp] theorem State.setObjN_mbistFail (o : Obj) (v i r : Nat) : (s.setObjN o v i r).mbistFail = s.mbistFail := (rfl)
@[simp] theorem State.setObjN_tref (o : Obj) (v i r : Nat) : (s.setObjN o v i r).tref = s.tref := (rfl)
@[simp] theorem State.setObjN_freeN (o : Obj) (v i r : Nat) : (s.setObjN o v i r).freeN = s.freeN := (rfl)
@[simp] theorem State.setObjN_mem (o : Obj) (v i r : Nat) : (s.setObjN o v i r).mem = s.mem := (rfl)
@[simp] theorem State.setObjN_modes (o : Obj) (v i r : Nat) : (s.setObjN o v i r).modes = s.modes := (rfl)
@[simp] theorem State.setObjN_raster (o : Obj) (v i r : Nat) : (s.setObjN o v i r).raster = s.raster := (rfl)
@[simp] theorem State.setObjN_orbit (o : Obj) (v i r : Nat) : (s.setObjN o v i r).orbit = s.orbit := (rfl)
@[simp] theorem State.setObjN_streams (o : Obj) (v i r : Nat) : (s.setObjN o v i r).streams = s.streams := (rfl)
@[simp] theorem State.setObjN_link (o : Obj) (v i r : Nat) : (s.setObjN o v i r).link = s.link := (rfl)
@[simp] theorem State.setObjN_cmds (o : Obj) (v i r : Nat) : (s.setObjN o v i r).cmds = s.cmds := (rfl)
@[simp] theorem State.setObjN_stampNext (o : Obj) (v i r : Nat) : (s.setObjN o v i r).stampNext = s.stampNext := (rfl)
@[simp] theorem State.setObjN_seqWritten (o : Obj) (v i r : Nat) : (s.setObjN o v i r).seqWritten = s.seqWritten := (rfl)
@[simp] theorem State.setObjN_deferred (o : Obj) (v i r : Nat) : (s.setObjN o v i r).deferred = s.deferred := (rfl)
@[simp] theorem State.setObjN_deferNew (o : Obj) (v i r : Nat) : (s.setObjN o v i r).deferNew = s.deferNew := (rfl)
@[simp] theorem State.setObjN_versions (o : Obj) (v i r : Nat) : (s.setObjN o v i r).versions = s.versions := (rfl)
@[simp] theorem State.setObjN_nextVer (o : Obj) (v i r : Nat) : (s.setObjN o v i r).nextVer = s.nextVer := (rfl)
@[simp] theorem State.setObjN_hostCws (o : Obj) (v i r : Nat) : (s.setObjN o v i r).hostCws = s.hostCws := (rfl)
@[simp] theorem State.setObjN_origins (o : Obj) (v i r : Nat) : (s.setObjN o v i r).origins = s.origins := (rfl)
@[simp] theorem State.setObjN_sbs (o : Obj) (v i r : Nat) : (s.setObjN o v i r).sbs = s.sbs := (rfl)
@[simp] theorem State.setObjN_allocReqs (o : Obj) (v i r : Nat) : (s.setObjN o v i r).allocReqs = s.allocReqs := (rfl)
@[simp] theorem State.setObjN_walking (o : Obj) (v i r : Nat) : (s.setObjN o v i r).walking = s.walking := (rfl)
@[simp] theorem State.setObjN_running (o : Obj) (v i r : Nat) : (s.setObjN o v i r).running = s.running := (rfl)
@[simp] theorem State.setObjN_interimBlocks (o : Obj) (v i r : Nat) : (s.setObjN o v i r).interimBlocks = s.interimBlocks := (rfl)
@[simp] theorem State.setObjN_zeroFrom (o : Obj) (v i r : Nat) : (s.setObjN o v i r).zeroFrom = s.zeroFrom := (rfl)
@[simp] theorem State.setObjN_stallFrom (o : Obj) (v i r : Nat) : (s.setObjN o v i r).stallFrom = s.stallFrom := (rfl)
@[simp] theorem State.setObjN_lostDies (o : Obj) (v i r : Nat) : (s.setObjN o v i r).lostDies = s.lostDies := (rfl)
@[simp] theorem State.setObjN_tokens (o : Obj) (v i r : Nat) : (s.setObjN o v i r).tokens = s.tokens := (rfl)
@[simp] theorem State.setObjN_blockLocks (o : Obj) (v i r : Nat) : (s.setObjN o v i r).blockLocks = s.blockLocks := (rfl)
@[simp] theorem State.setObjN_pins (o : Obj) (v i r : Nat) : (s.setObjN o v i r).pins = s.pins := (rfl)
@[simp] theorem State.setObjN_ops (o : Obj) (v i r : Nat) : (s.setObjN o v i r).ops = s.ops := (rfl)
@[simp] theorem State.setObjN_nextOp (o : Obj) (v i r : Nat) : (s.setObjN o v i r).nextOp = s.nextOp := (rfl)
@[simp] theorem State.setObjN_jobs (o : Obj) (v i r : Nat) : (s.setObjN o v i r).jobs = s.jobs := (rfl)
@[simp] theorem State.setObjN_nextJob (o : Obj) (v i r : Nat) : (s.setObjN o v i r).nextJob = s.nextJob := (rfl)
@[simp] theorem State.setObjN_rebuilds (o : Obj) (v i r : Nat) : (s.setObjN o v i r).rebuilds = s.rebuilds := (rfl)
@[simp] theorem State.setObjN_comet (o : Obj) (v i r : Nat) : (s.setObjN o v i r).comet = s.comet := (rfl)
@[simp] theorem State.setObjN_cometHeld (o : Obj) (v i r : Nat) : (s.setObjN o v i r).cometHeld = s.cometHeld := (rfl)
@[simp] theorem State.setObjN_slotsUsed (o : Obj) (v i r : Nat) : (s.setObjN o v i r).slotsUsed = s.slotsUsed := (rfl)
@[simp] theorem State.setObjN_slcOkOnce (o : Obj) (v i r : Nat) : (s.setObjN o v i r).slcOkOnce = s.slcOkOnce := (rfl)
@[simp] theorem State.setObjN_codes (o : Obj) (v i r : Nat) : (s.setObjN o v i r).codes = s.codes := (rfl)
@[simp] theorem State.setObjN_codeErr (o : Obj) (v i r : Nat) : (s.setObjN o v i r).codeErr = s.codeErr := (rfl)
@[simp] theorem State.setObjN_cal (o : Obj) (v i r : Nat) : (s.setObjN o v i r).cal = s.cal := (rfl)
@[simp] theorem State.setObjN_calLast (o : Obj) (v i r : Nat) : (s.setObjN o v i r).calLast = s.calLast := (rfl)
@[simp] theorem State.setObjN_calSnapFrom (o : Obj) (v i r : Nat) : (s.setObjN o v i r).calSnapFrom = s.calSnapFrom := (rfl)
@[simp] theorem State.setObjN_prot (o : Obj) (v i r : Nat) : (s.setObjN o v i r).prot = s.prot := (rfl)
@[simp] theorem State.setObjN_chans (o : Obj) (v i r : Nat) : (s.setObjN o v i r).chans = s.chans := (rfl)
@[simp] theorem State.setObjN_dies (o : Obj) (v i r : Nat) : (s.setObjN o v i r).dies = s.dies := (rfl)
@[simp] theorem State.setObjN_clusters (o : Obj) (v i r : Nat) : (s.setObjN o v i r).clusters = s.clusters := (rfl)
@[simp] theorem State.setObjN_ctxs (o : Obj) (v i r : Nat) : (s.setObjN o v i r).ctxs = s.ctxs := (rfl)
@[simp] theorem State.setObjN_activation (o : Obj) (v i r : Nat) : (s.setObjN o v i r).activation = s.activation := (rfl)
@[simp] theorem State.setObjN_pools (o : Obj) (v i r : Nat) : (s.setObjN o v i r).pools = s.pools := (rfl)
@[simp] theorem State.setObjN_offered (o : Obj) (v i r : Nat) : (s.setObjN o v i r).offered = s.offered := (rfl)
@[simp] theorem State.setObjN_offers (o : Obj) (v i r : Nat) : (s.setObjN o v i r).offers = s.offers := (rfl)
@[simp] theorem State.setObjN_nqs (o : Obj) (v i r : Nat) : (s.setObjN o v i r).nqs = s.nqs := (rfl)
@[simp] theorem State.setObjN_ce (o : Obj) (v i r : Nat) : (s.setObjN o v i r).ce = s.ce := (rfl)
@[simp] theorem State.setObjN_ceSlots (o : Obj) (v i r : Nat) : (s.setObjN o v i r).ceSlots = s.ceSlots := (rfl)
@[simp] theorem State.setObjN_ports (o : Obj) (v i r : Nat) : (s.setObjN o v i r).ports = s.ports := (rfl)
@[simp] theorem State.setObjN_ints (o : Obj) (v i r : Nat) : (s.setObjN o v i r).ints = s.ints := (rfl)
@[simp] theorem State.setObjN_procs (o : Obj) (v i r : Nat) : (s.setObjN o v i r).procs = s.procs := (rfl)
@[simp] theorem State.setObjN_xfers (o : Obj) (v i r : Nat) : (s.setObjN o v i r).xfers = s.xfers := (rfl)
@[simp] theorem State.setObjN_cfg (o : Obj) (v i r : Nat) : (s.setObjN o v i r).cfg = s.cfg := (rfl)
@[simp] theorem State.setObjN_fn (o : Obj) (v i r : Nat) : (s.setObjN o v i r).fn = s.fn := (rfl)
@[simp] theorem State.setObjN_frozen (o : Obj) (v i r : Nat) : (s.setObjN o v i r).frozen = s.frozen := (rfl)
@[simp] theorem State.setObjN_tlog (o : Obj) (v i r : Nat) : (s.setObjN o v i r).tlog = s.tlog := (rfl)

/-! `bump` changes only: dict. -/

@[simp] theorem State.bump_pending (o : Obj) (i r n : Nat) : (s.bump o i r n).pending = s.pending := (rfl)
@[simp] theorem State.bump_build (o : Obj) (i r n : Nat) : (s.bump o i r n).build = s.build := (rfl)
@[simp] theorem State.bump_phase (o : Obj) (i r n : Nat) : (s.bump o i r n).phase = s.phase := (rfl)
@[simp] theorem State.bump_resetPor (o : Obj) (i r n : Nat) : (s.bump o i r n).resetPor = s.resetPor := (rfl)
@[simp] theorem State.bump_porLow (o : Obj) (i r n : Nat) : (s.bump o i r n).porLow = s.porLow := (rfl)
@[simp] theorem State.bump_blkLow (o : Obj) (i r n : Nat) : (s.bump o i r n).blkLow = s.blkLow := (rfl)
@[simp] theorem State.bump_lostAtReset (o : Obj) (i r n : Nat) : (s.bump o i r n).lostAtReset = s.lostAtReset := (rfl)
@[simp] theorem State.bump_trefKhz (o : Obj) (i r n : Nat) : (s.bump o i r n).trefKhz = s.trefKhz := (rfl)
@[simp] theorem State.bump_fnclkSel (o : Obj) (i r n : Nat) : (s.bump o i r n).fnclkSel = s.fnclkSel := (rfl)
@[simp] theorem State.bump_testMode (o : Obj) (i r n : Nat) : (s.bump o i r n).testMode = s.testMode := (rfl)
@[simp] theorem State.bump_mbistBusy (o : Obj) (i r n : Nat) : (s.bump o i r n).mbistBusy = s.mbistBusy := (rfl)
@[simp] theorem State.bump_mbistDone (o : Obj) (i r n : Nat) : (s.bump o i r n).mbistDone = s.mbistDone := (rfl)
@[simp] theorem State.bump_mbistFail (o : Obj) (i r n : Nat) : (s.bump o i r n).mbistFail = s.mbistFail := (rfl)
@[simp] theorem State.bump_tref (o : Obj) (i r n : Nat) : (s.bump o i r n).tref = s.tref := (rfl)
@[simp] theorem State.bump_freeN (o : Obj) (i r n : Nat) : (s.bump o i r n).freeN = s.freeN := (rfl)
@[simp] theorem State.bump_mem (o : Obj) (i r n : Nat) : (s.bump o i r n).mem = s.mem := (rfl)
@[simp] theorem State.bump_modes (o : Obj) (i r n : Nat) : (s.bump o i r n).modes = s.modes := (rfl)
@[simp] theorem State.bump_raster (o : Obj) (i r n : Nat) : (s.bump o i r n).raster = s.raster := (rfl)
@[simp] theorem State.bump_orbit (o : Obj) (i r n : Nat) : (s.bump o i r n).orbit = s.orbit := (rfl)
@[simp] theorem State.bump_streams (o : Obj) (i r n : Nat) : (s.bump o i r n).streams = s.streams := (rfl)
@[simp] theorem State.bump_link (o : Obj) (i r n : Nat) : (s.bump o i r n).link = s.link := (rfl)
@[simp] theorem State.bump_cmds (o : Obj) (i r n : Nat) : (s.bump o i r n).cmds = s.cmds := (rfl)
@[simp] theorem State.bump_stampNext (o : Obj) (i r n : Nat) : (s.bump o i r n).stampNext = s.stampNext := (rfl)
@[simp] theorem State.bump_seqWritten (o : Obj) (i r n : Nat) : (s.bump o i r n).seqWritten = s.seqWritten := (rfl)
@[simp] theorem State.bump_deferred (o : Obj) (i r n : Nat) : (s.bump o i r n).deferred = s.deferred := (rfl)
@[simp] theorem State.bump_deferNew (o : Obj) (i r n : Nat) : (s.bump o i r n).deferNew = s.deferNew := (rfl)
@[simp] theorem State.bump_versions (o : Obj) (i r n : Nat) : (s.bump o i r n).versions = s.versions := (rfl)
@[simp] theorem State.bump_nextVer (o : Obj) (i r n : Nat) : (s.bump o i r n).nextVer = s.nextVer := (rfl)
@[simp] theorem State.bump_hostCws (o : Obj) (i r n : Nat) : (s.bump o i r n).hostCws = s.hostCws := (rfl)
@[simp] theorem State.bump_origins (o : Obj) (i r n : Nat) : (s.bump o i r n).origins = s.origins := (rfl)
@[simp] theorem State.bump_sbs (o : Obj) (i r n : Nat) : (s.bump o i r n).sbs = s.sbs := (rfl)
@[simp] theorem State.bump_allocReqs (o : Obj) (i r n : Nat) : (s.bump o i r n).allocReqs = s.allocReqs := (rfl)
@[simp] theorem State.bump_walking (o : Obj) (i r n : Nat) : (s.bump o i r n).walking = s.walking := (rfl)
@[simp] theorem State.bump_running (o : Obj) (i r n : Nat) : (s.bump o i r n).running = s.running := (rfl)
@[simp] theorem State.bump_interimBlocks (o : Obj) (i r n : Nat) : (s.bump o i r n).interimBlocks = s.interimBlocks := (rfl)
@[simp] theorem State.bump_zeroFrom (o : Obj) (i r n : Nat) : (s.bump o i r n).zeroFrom = s.zeroFrom := (rfl)
@[simp] theorem State.bump_stallFrom (o : Obj) (i r n : Nat) : (s.bump o i r n).stallFrom = s.stallFrom := (rfl)
@[simp] theorem State.bump_lostDies (o : Obj) (i r n : Nat) : (s.bump o i r n).lostDies = s.lostDies := (rfl)
@[simp] theorem State.bump_tokens (o : Obj) (i r n : Nat) : (s.bump o i r n).tokens = s.tokens := (rfl)
@[simp] theorem State.bump_blockLocks (o : Obj) (i r n : Nat) : (s.bump o i r n).blockLocks = s.blockLocks := (rfl)
@[simp] theorem State.bump_pins (o : Obj) (i r n : Nat) : (s.bump o i r n).pins = s.pins := (rfl)
@[simp] theorem State.bump_ops (o : Obj) (i r n : Nat) : (s.bump o i r n).ops = s.ops := (rfl)
@[simp] theorem State.bump_nextOp (o : Obj) (i r n : Nat) : (s.bump o i r n).nextOp = s.nextOp := (rfl)
@[simp] theorem State.bump_jobs (o : Obj) (i r n : Nat) : (s.bump o i r n).jobs = s.jobs := (rfl)
@[simp] theorem State.bump_nextJob (o : Obj) (i r n : Nat) : (s.bump o i r n).nextJob = s.nextJob := (rfl)
@[simp] theorem State.bump_rebuilds (o : Obj) (i r n : Nat) : (s.bump o i r n).rebuilds = s.rebuilds := (rfl)
@[simp] theorem State.bump_comet (o : Obj) (i r n : Nat) : (s.bump o i r n).comet = s.comet := (rfl)
@[simp] theorem State.bump_cometHeld (o : Obj) (i r n : Nat) : (s.bump o i r n).cometHeld = s.cometHeld := (rfl)
@[simp] theorem State.bump_slotsUsed (o : Obj) (i r n : Nat) : (s.bump o i r n).slotsUsed = s.slotsUsed := (rfl)
@[simp] theorem State.bump_slcOkOnce (o : Obj) (i r n : Nat) : (s.bump o i r n).slcOkOnce = s.slcOkOnce := (rfl)
@[simp] theorem State.bump_codes (o : Obj) (i r n : Nat) : (s.bump o i r n).codes = s.codes := (rfl)
@[simp] theorem State.bump_codeErr (o : Obj) (i r n : Nat) : (s.bump o i r n).codeErr = s.codeErr := (rfl)
@[simp] theorem State.bump_cal (o : Obj) (i r n : Nat) : (s.bump o i r n).cal = s.cal := (rfl)
@[simp] theorem State.bump_calLast (o : Obj) (i r n : Nat) : (s.bump o i r n).calLast = s.calLast := (rfl)
@[simp] theorem State.bump_calSnapFrom (o : Obj) (i r n : Nat) : (s.bump o i r n).calSnapFrom = s.calSnapFrom := (rfl)
@[simp] theorem State.bump_prot (o : Obj) (i r n : Nat) : (s.bump o i r n).prot = s.prot := (rfl)
@[simp] theorem State.bump_chans (o : Obj) (i r n : Nat) : (s.bump o i r n).chans = s.chans := (rfl)
@[simp] theorem State.bump_dies (o : Obj) (i r n : Nat) : (s.bump o i r n).dies = s.dies := (rfl)
@[simp] theorem State.bump_clusters (o : Obj) (i r n : Nat) : (s.bump o i r n).clusters = s.clusters := (rfl)
@[simp] theorem State.bump_ctxs (o : Obj) (i r n : Nat) : (s.bump o i r n).ctxs = s.ctxs := (rfl)
@[simp] theorem State.bump_activation (o : Obj) (i r n : Nat) : (s.bump o i r n).activation = s.activation := (rfl)
@[simp] theorem State.bump_pools (o : Obj) (i r n : Nat) : (s.bump o i r n).pools = s.pools := (rfl)
@[simp] theorem State.bump_offered (o : Obj) (i r n : Nat) : (s.bump o i r n).offered = s.offered := (rfl)
@[simp] theorem State.bump_offers (o : Obj) (i r n : Nat) : (s.bump o i r n).offers = s.offers := (rfl)
@[simp] theorem State.bump_nqs (o : Obj) (i r n : Nat) : (s.bump o i r n).nqs = s.nqs := (rfl)
@[simp] theorem State.bump_ce (o : Obj) (i r n : Nat) : (s.bump o i r n).ce = s.ce := (rfl)
@[simp] theorem State.bump_ceSlots (o : Obj) (i r n : Nat) : (s.bump o i r n).ceSlots = s.ceSlots := (rfl)
@[simp] theorem State.bump_ports (o : Obj) (i r n : Nat) : (s.bump o i r n).ports = s.ports := (rfl)
@[simp] theorem State.bump_ints (o : Obj) (i r n : Nat) : (s.bump o i r n).ints = s.ints := (rfl)
@[simp] theorem State.bump_procs (o : Obj) (i r n : Nat) : (s.bump o i r n).procs = s.procs := (rfl)
@[simp] theorem State.bump_xfers (o : Obj) (i r n : Nat) : (s.bump o i r n).xfers = s.xfers := (rfl)
@[simp] theorem State.bump_cfg (o : Obj) (i r n : Nat) : (s.bump o i r n).cfg = s.cfg := (rfl)
@[simp] theorem State.bump_fn (o : Obj) (i r n : Nat) : (s.bump o i r n).fn = s.fn := (rfl)
@[simp] theorem State.bump_frozen (o : Obj) (i r n : Nat) : (s.bump o i r n).frozen = s.frozen := (rfl)
@[simp] theorem State.bump_tlog (o : Obj) (i r n : Nat) : (s.bump o i r n).tlog = s.tlog := (rfl)

/-! `bumpWrap` changes only: dict. -/

@[simp] theorem State.bumpWrap_pending (o : Obj) (i r : Nat) : (s.bumpWrap o i r).pending = s.pending := (rfl)
@[simp] theorem State.bumpWrap_build (o : Obj) (i r : Nat) : (s.bumpWrap o i r).build = s.build := (rfl)
@[simp] theorem State.bumpWrap_phase (o : Obj) (i r : Nat) : (s.bumpWrap o i r).phase = s.phase := (rfl)
@[simp] theorem State.bumpWrap_resetPor (o : Obj) (i r : Nat) : (s.bumpWrap o i r).resetPor = s.resetPor := (rfl)
@[simp] theorem State.bumpWrap_porLow (o : Obj) (i r : Nat) : (s.bumpWrap o i r).porLow = s.porLow := (rfl)
@[simp] theorem State.bumpWrap_blkLow (o : Obj) (i r : Nat) : (s.bumpWrap o i r).blkLow = s.blkLow := (rfl)
@[simp] theorem State.bumpWrap_lostAtReset (o : Obj) (i r : Nat) : (s.bumpWrap o i r).lostAtReset = s.lostAtReset := (rfl)
@[simp] theorem State.bumpWrap_trefKhz (o : Obj) (i r : Nat) : (s.bumpWrap o i r).trefKhz = s.trefKhz := (rfl)
@[simp] theorem State.bumpWrap_fnclkSel (o : Obj) (i r : Nat) : (s.bumpWrap o i r).fnclkSel = s.fnclkSel := (rfl)
@[simp] theorem State.bumpWrap_testMode (o : Obj) (i r : Nat) : (s.bumpWrap o i r).testMode = s.testMode := (rfl)
@[simp] theorem State.bumpWrap_mbistBusy (o : Obj) (i r : Nat) : (s.bumpWrap o i r).mbistBusy = s.mbistBusy := (rfl)
@[simp] theorem State.bumpWrap_mbistDone (o : Obj) (i r : Nat) : (s.bumpWrap o i r).mbistDone = s.mbistDone := (rfl)
@[simp] theorem State.bumpWrap_mbistFail (o : Obj) (i r : Nat) : (s.bumpWrap o i r).mbistFail = s.mbistFail := (rfl)
@[simp] theorem State.bumpWrap_tref (o : Obj) (i r : Nat) : (s.bumpWrap o i r).tref = s.tref := (rfl)
@[simp] theorem State.bumpWrap_freeN (o : Obj) (i r : Nat) : (s.bumpWrap o i r).freeN = s.freeN := (rfl)
@[simp] theorem State.bumpWrap_mem (o : Obj) (i r : Nat) : (s.bumpWrap o i r).mem = s.mem := (rfl)
@[simp] theorem State.bumpWrap_modes (o : Obj) (i r : Nat) : (s.bumpWrap o i r).modes = s.modes := (rfl)
@[simp] theorem State.bumpWrap_raster (o : Obj) (i r : Nat) : (s.bumpWrap o i r).raster = s.raster := (rfl)
@[simp] theorem State.bumpWrap_orbit (o : Obj) (i r : Nat) : (s.bumpWrap o i r).orbit = s.orbit := (rfl)
@[simp] theorem State.bumpWrap_streams (o : Obj) (i r : Nat) : (s.bumpWrap o i r).streams = s.streams := (rfl)
@[simp] theorem State.bumpWrap_link (o : Obj) (i r : Nat) : (s.bumpWrap o i r).link = s.link := (rfl)
@[simp] theorem State.bumpWrap_cmds (o : Obj) (i r : Nat) : (s.bumpWrap o i r).cmds = s.cmds := (rfl)
@[simp] theorem State.bumpWrap_stampNext (o : Obj) (i r : Nat) : (s.bumpWrap o i r).stampNext = s.stampNext := (rfl)
@[simp] theorem State.bumpWrap_seqWritten (o : Obj) (i r : Nat) : (s.bumpWrap o i r).seqWritten = s.seqWritten := (rfl)
@[simp] theorem State.bumpWrap_deferred (o : Obj) (i r : Nat) : (s.bumpWrap o i r).deferred = s.deferred := (rfl)
@[simp] theorem State.bumpWrap_deferNew (o : Obj) (i r : Nat) : (s.bumpWrap o i r).deferNew = s.deferNew := (rfl)
@[simp] theorem State.bumpWrap_versions (o : Obj) (i r : Nat) : (s.bumpWrap o i r).versions = s.versions := (rfl)
@[simp] theorem State.bumpWrap_nextVer (o : Obj) (i r : Nat) : (s.bumpWrap o i r).nextVer = s.nextVer := (rfl)
@[simp] theorem State.bumpWrap_hostCws (o : Obj) (i r : Nat) : (s.bumpWrap o i r).hostCws = s.hostCws := (rfl)
@[simp] theorem State.bumpWrap_origins (o : Obj) (i r : Nat) : (s.bumpWrap o i r).origins = s.origins := (rfl)
@[simp] theorem State.bumpWrap_sbs (o : Obj) (i r : Nat) : (s.bumpWrap o i r).sbs = s.sbs := (rfl)
@[simp] theorem State.bumpWrap_allocReqs (o : Obj) (i r : Nat) : (s.bumpWrap o i r).allocReqs = s.allocReqs := (rfl)
@[simp] theorem State.bumpWrap_walking (o : Obj) (i r : Nat) : (s.bumpWrap o i r).walking = s.walking := (rfl)
@[simp] theorem State.bumpWrap_running (o : Obj) (i r : Nat) : (s.bumpWrap o i r).running = s.running := (rfl)
@[simp] theorem State.bumpWrap_interimBlocks (o : Obj) (i r : Nat) : (s.bumpWrap o i r).interimBlocks = s.interimBlocks := (rfl)
@[simp] theorem State.bumpWrap_zeroFrom (o : Obj) (i r : Nat) : (s.bumpWrap o i r).zeroFrom = s.zeroFrom := (rfl)
@[simp] theorem State.bumpWrap_stallFrom (o : Obj) (i r : Nat) : (s.bumpWrap o i r).stallFrom = s.stallFrom := (rfl)
@[simp] theorem State.bumpWrap_lostDies (o : Obj) (i r : Nat) : (s.bumpWrap o i r).lostDies = s.lostDies := (rfl)
@[simp] theorem State.bumpWrap_tokens (o : Obj) (i r : Nat) : (s.bumpWrap o i r).tokens = s.tokens := (rfl)
@[simp] theorem State.bumpWrap_blockLocks (o : Obj) (i r : Nat) : (s.bumpWrap o i r).blockLocks = s.blockLocks := (rfl)
@[simp] theorem State.bumpWrap_pins (o : Obj) (i r : Nat) : (s.bumpWrap o i r).pins = s.pins := (rfl)
@[simp] theorem State.bumpWrap_ops (o : Obj) (i r : Nat) : (s.bumpWrap o i r).ops = s.ops := (rfl)
@[simp] theorem State.bumpWrap_nextOp (o : Obj) (i r : Nat) : (s.bumpWrap o i r).nextOp = s.nextOp := (rfl)
@[simp] theorem State.bumpWrap_jobs (o : Obj) (i r : Nat) : (s.bumpWrap o i r).jobs = s.jobs := (rfl)
@[simp] theorem State.bumpWrap_nextJob (o : Obj) (i r : Nat) : (s.bumpWrap o i r).nextJob = s.nextJob := (rfl)
@[simp] theorem State.bumpWrap_rebuilds (o : Obj) (i r : Nat) : (s.bumpWrap o i r).rebuilds = s.rebuilds := (rfl)
@[simp] theorem State.bumpWrap_comet (o : Obj) (i r : Nat) : (s.bumpWrap o i r).comet = s.comet := (rfl)
@[simp] theorem State.bumpWrap_cometHeld (o : Obj) (i r : Nat) : (s.bumpWrap o i r).cometHeld = s.cometHeld := (rfl)
@[simp] theorem State.bumpWrap_slotsUsed (o : Obj) (i r : Nat) : (s.bumpWrap o i r).slotsUsed = s.slotsUsed := (rfl)
@[simp] theorem State.bumpWrap_slcOkOnce (o : Obj) (i r : Nat) : (s.bumpWrap o i r).slcOkOnce = s.slcOkOnce := (rfl)
@[simp] theorem State.bumpWrap_codes (o : Obj) (i r : Nat) : (s.bumpWrap o i r).codes = s.codes := (rfl)
@[simp] theorem State.bumpWrap_codeErr (o : Obj) (i r : Nat) : (s.bumpWrap o i r).codeErr = s.codeErr := (rfl)
@[simp] theorem State.bumpWrap_cal (o : Obj) (i r : Nat) : (s.bumpWrap o i r).cal = s.cal := (rfl)
@[simp] theorem State.bumpWrap_calLast (o : Obj) (i r : Nat) : (s.bumpWrap o i r).calLast = s.calLast := (rfl)
@[simp] theorem State.bumpWrap_calSnapFrom (o : Obj) (i r : Nat) : (s.bumpWrap o i r).calSnapFrom = s.calSnapFrom := (rfl)
@[simp] theorem State.bumpWrap_prot (o : Obj) (i r : Nat) : (s.bumpWrap o i r).prot = s.prot := (rfl)
@[simp] theorem State.bumpWrap_chans (o : Obj) (i r : Nat) : (s.bumpWrap o i r).chans = s.chans := (rfl)
@[simp] theorem State.bumpWrap_dies (o : Obj) (i r : Nat) : (s.bumpWrap o i r).dies = s.dies := (rfl)
@[simp] theorem State.bumpWrap_clusters (o : Obj) (i r : Nat) : (s.bumpWrap o i r).clusters = s.clusters := (rfl)
@[simp] theorem State.bumpWrap_ctxs (o : Obj) (i r : Nat) : (s.bumpWrap o i r).ctxs = s.ctxs := (rfl)
@[simp] theorem State.bumpWrap_activation (o : Obj) (i r : Nat) : (s.bumpWrap o i r).activation = s.activation := (rfl)
@[simp] theorem State.bumpWrap_pools (o : Obj) (i r : Nat) : (s.bumpWrap o i r).pools = s.pools := (rfl)
@[simp] theorem State.bumpWrap_offered (o : Obj) (i r : Nat) : (s.bumpWrap o i r).offered = s.offered := (rfl)
@[simp] theorem State.bumpWrap_offers (o : Obj) (i r : Nat) : (s.bumpWrap o i r).offers = s.offers := (rfl)
@[simp] theorem State.bumpWrap_nqs (o : Obj) (i r : Nat) : (s.bumpWrap o i r).nqs = s.nqs := (rfl)
@[simp] theorem State.bumpWrap_ce (o : Obj) (i r : Nat) : (s.bumpWrap o i r).ce = s.ce := (rfl)
@[simp] theorem State.bumpWrap_ceSlots (o : Obj) (i r : Nat) : (s.bumpWrap o i r).ceSlots = s.ceSlots := (rfl)
@[simp] theorem State.bumpWrap_ports (o : Obj) (i r : Nat) : (s.bumpWrap o i r).ports = s.ports := (rfl)
@[simp] theorem State.bumpWrap_ints (o : Obj) (i r : Nat) : (s.bumpWrap o i r).ints = s.ints := (rfl)
@[simp] theorem State.bumpWrap_procs (o : Obj) (i r : Nat) : (s.bumpWrap o i r).procs = s.procs := (rfl)
@[simp] theorem State.bumpWrap_xfers (o : Obj) (i r : Nat) : (s.bumpWrap o i r).xfers = s.xfers := (rfl)
@[simp] theorem State.bumpWrap_cfg (o : Obj) (i r : Nat) : (s.bumpWrap o i r).cfg = s.cfg := (rfl)
@[simp] theorem State.bumpWrap_fn (o : Obj) (i r : Nat) : (s.bumpWrap o i r).fn = s.fn := (rfl)
@[simp] theorem State.bumpWrap_frozen (o : Obj) (i r : Nat) : (s.bumpWrap o i r).frozen = s.frozen := (rfl)
@[simp] theorem State.bumpWrap_tlog (o : Obj) (i r : Nat) : (s.bumpWrap o i r).tlog = s.tlog := (rfl)

/-! `raiseTo` changes only: dict. -/

@[simp] theorem State.raiseTo_pending (o : Obj) (v i r : Nat) : (s.raiseTo o v i r).pending = s.pending := by unfold State.raiseTo; split <;> rfl
@[simp] theorem State.raiseTo_build (o : Obj) (v i r : Nat) : (s.raiseTo o v i r).build = s.build := by unfold State.raiseTo; split <;> rfl
@[simp] theorem State.raiseTo_phase (o : Obj) (v i r : Nat) : (s.raiseTo o v i r).phase = s.phase := by unfold State.raiseTo; split <;> rfl
@[simp] theorem State.raiseTo_resetPor (o : Obj) (v i r : Nat) : (s.raiseTo o v i r).resetPor = s.resetPor := by unfold State.raiseTo; split <;> rfl
@[simp] theorem State.raiseTo_porLow (o : Obj) (v i r : Nat) : (s.raiseTo o v i r).porLow = s.porLow := by unfold State.raiseTo; split <;> rfl
@[simp] theorem State.raiseTo_blkLow (o : Obj) (v i r : Nat) : (s.raiseTo o v i r).blkLow = s.blkLow := by unfold State.raiseTo; split <;> rfl
@[simp] theorem State.raiseTo_lostAtReset (o : Obj) (v i r : Nat) : (s.raiseTo o v i r).lostAtReset = s.lostAtReset := by unfold State.raiseTo; split <;> rfl
@[simp] theorem State.raiseTo_trefKhz (o : Obj) (v i r : Nat) : (s.raiseTo o v i r).trefKhz = s.trefKhz := by unfold State.raiseTo; split <;> rfl
@[simp] theorem State.raiseTo_fnclkSel (o : Obj) (v i r : Nat) : (s.raiseTo o v i r).fnclkSel = s.fnclkSel := by unfold State.raiseTo; split <;> rfl
@[simp] theorem State.raiseTo_testMode (o : Obj) (v i r : Nat) : (s.raiseTo o v i r).testMode = s.testMode := by unfold State.raiseTo; split <;> rfl
@[simp] theorem State.raiseTo_mbistBusy (o : Obj) (v i r : Nat) : (s.raiseTo o v i r).mbistBusy = s.mbistBusy := by unfold State.raiseTo; split <;> rfl
@[simp] theorem State.raiseTo_mbistDone (o : Obj) (v i r : Nat) : (s.raiseTo o v i r).mbistDone = s.mbistDone := by unfold State.raiseTo; split <;> rfl
@[simp] theorem State.raiseTo_mbistFail (o : Obj) (v i r : Nat) : (s.raiseTo o v i r).mbistFail = s.mbistFail := by unfold State.raiseTo; split <;> rfl
@[simp] theorem State.raiseTo_tref (o : Obj) (v i r : Nat) : (s.raiseTo o v i r).tref = s.tref := by unfold State.raiseTo; split <;> rfl
@[simp] theorem State.raiseTo_freeN (o : Obj) (v i r : Nat) : (s.raiseTo o v i r).freeN = s.freeN := by unfold State.raiseTo; split <;> rfl
@[simp] theorem State.raiseTo_mem (o : Obj) (v i r : Nat) : (s.raiseTo o v i r).mem = s.mem := by unfold State.raiseTo; split <;> rfl
@[simp] theorem State.raiseTo_modes (o : Obj) (v i r : Nat) : (s.raiseTo o v i r).modes = s.modes := by unfold State.raiseTo; split <;> rfl
@[simp] theorem State.raiseTo_raster (o : Obj) (v i r : Nat) : (s.raiseTo o v i r).raster = s.raster := by unfold State.raiseTo; split <;> rfl
@[simp] theorem State.raiseTo_orbit (o : Obj) (v i r : Nat) : (s.raiseTo o v i r).orbit = s.orbit := by unfold State.raiseTo; split <;> rfl
@[simp] theorem State.raiseTo_streams (o : Obj) (v i r : Nat) : (s.raiseTo o v i r).streams = s.streams := by unfold State.raiseTo; split <;> rfl
@[simp] theorem State.raiseTo_link (o : Obj) (v i r : Nat) : (s.raiseTo o v i r).link = s.link := by unfold State.raiseTo; split <;> rfl
@[simp] theorem State.raiseTo_cmds (o : Obj) (v i r : Nat) : (s.raiseTo o v i r).cmds = s.cmds := by unfold State.raiseTo; split <;> rfl
@[simp] theorem State.raiseTo_stampNext (o : Obj) (v i r : Nat) : (s.raiseTo o v i r).stampNext = s.stampNext := by unfold State.raiseTo; split <;> rfl
@[simp] theorem State.raiseTo_seqWritten (o : Obj) (v i r : Nat) : (s.raiseTo o v i r).seqWritten = s.seqWritten := by unfold State.raiseTo; split <;> rfl
@[simp] theorem State.raiseTo_deferred (o : Obj) (v i r : Nat) : (s.raiseTo o v i r).deferred = s.deferred := by unfold State.raiseTo; split <;> rfl
@[simp] theorem State.raiseTo_deferNew (o : Obj) (v i r : Nat) : (s.raiseTo o v i r).deferNew = s.deferNew := by unfold State.raiseTo; split <;> rfl
@[simp] theorem State.raiseTo_versions (o : Obj) (v i r : Nat) : (s.raiseTo o v i r).versions = s.versions := by unfold State.raiseTo; split <;> rfl
@[simp] theorem State.raiseTo_nextVer (o : Obj) (v i r : Nat) : (s.raiseTo o v i r).nextVer = s.nextVer := by unfold State.raiseTo; split <;> rfl
@[simp] theorem State.raiseTo_hostCws (o : Obj) (v i r : Nat) : (s.raiseTo o v i r).hostCws = s.hostCws := by unfold State.raiseTo; split <;> rfl
@[simp] theorem State.raiseTo_origins (o : Obj) (v i r : Nat) : (s.raiseTo o v i r).origins = s.origins := by unfold State.raiseTo; split <;> rfl
@[simp] theorem State.raiseTo_sbs (o : Obj) (v i r : Nat) : (s.raiseTo o v i r).sbs = s.sbs := by unfold State.raiseTo; split <;> rfl
@[simp] theorem State.raiseTo_allocReqs (o : Obj) (v i r : Nat) : (s.raiseTo o v i r).allocReqs = s.allocReqs := by unfold State.raiseTo; split <;> rfl
@[simp] theorem State.raiseTo_walking (o : Obj) (v i r : Nat) : (s.raiseTo o v i r).walking = s.walking := by unfold State.raiseTo; split <;> rfl
@[simp] theorem State.raiseTo_running (o : Obj) (v i r : Nat) : (s.raiseTo o v i r).running = s.running := by unfold State.raiseTo; split <;> rfl
@[simp] theorem State.raiseTo_interimBlocks (o : Obj) (v i r : Nat) : (s.raiseTo o v i r).interimBlocks = s.interimBlocks := by unfold State.raiseTo; split <;> rfl
@[simp] theorem State.raiseTo_zeroFrom (o : Obj) (v i r : Nat) : (s.raiseTo o v i r).zeroFrom = s.zeroFrom := by unfold State.raiseTo; split <;> rfl
@[simp] theorem State.raiseTo_stallFrom (o : Obj) (v i r : Nat) : (s.raiseTo o v i r).stallFrom = s.stallFrom := by unfold State.raiseTo; split <;> rfl
@[simp] theorem State.raiseTo_lostDies (o : Obj) (v i r : Nat) : (s.raiseTo o v i r).lostDies = s.lostDies := by unfold State.raiseTo; split <;> rfl
@[simp] theorem State.raiseTo_tokens (o : Obj) (v i r : Nat) : (s.raiseTo o v i r).tokens = s.tokens := by unfold State.raiseTo; split <;> rfl
@[simp] theorem State.raiseTo_blockLocks (o : Obj) (v i r : Nat) : (s.raiseTo o v i r).blockLocks = s.blockLocks := by unfold State.raiseTo; split <;> rfl
@[simp] theorem State.raiseTo_pins (o : Obj) (v i r : Nat) : (s.raiseTo o v i r).pins = s.pins := by unfold State.raiseTo; split <;> rfl
@[simp] theorem State.raiseTo_ops (o : Obj) (v i r : Nat) : (s.raiseTo o v i r).ops = s.ops := by unfold State.raiseTo; split <;> rfl
@[simp] theorem State.raiseTo_nextOp (o : Obj) (v i r : Nat) : (s.raiseTo o v i r).nextOp = s.nextOp := by unfold State.raiseTo; split <;> rfl
@[simp] theorem State.raiseTo_jobs (o : Obj) (v i r : Nat) : (s.raiseTo o v i r).jobs = s.jobs := by unfold State.raiseTo; split <;> rfl
@[simp] theorem State.raiseTo_nextJob (o : Obj) (v i r : Nat) : (s.raiseTo o v i r).nextJob = s.nextJob := by unfold State.raiseTo; split <;> rfl
@[simp] theorem State.raiseTo_rebuilds (o : Obj) (v i r : Nat) : (s.raiseTo o v i r).rebuilds = s.rebuilds := by unfold State.raiseTo; split <;> rfl
@[simp] theorem State.raiseTo_comet (o : Obj) (v i r : Nat) : (s.raiseTo o v i r).comet = s.comet := by unfold State.raiseTo; split <;> rfl
@[simp] theorem State.raiseTo_cometHeld (o : Obj) (v i r : Nat) : (s.raiseTo o v i r).cometHeld = s.cometHeld := by unfold State.raiseTo; split <;> rfl
@[simp] theorem State.raiseTo_slotsUsed (o : Obj) (v i r : Nat) : (s.raiseTo o v i r).slotsUsed = s.slotsUsed := by unfold State.raiseTo; split <;> rfl
@[simp] theorem State.raiseTo_slcOkOnce (o : Obj) (v i r : Nat) : (s.raiseTo o v i r).slcOkOnce = s.slcOkOnce := by unfold State.raiseTo; split <;> rfl
@[simp] theorem State.raiseTo_codes (o : Obj) (v i r : Nat) : (s.raiseTo o v i r).codes = s.codes := by unfold State.raiseTo; split <;> rfl
@[simp] theorem State.raiseTo_codeErr (o : Obj) (v i r : Nat) : (s.raiseTo o v i r).codeErr = s.codeErr := by unfold State.raiseTo; split <;> rfl
@[simp] theorem State.raiseTo_cal (o : Obj) (v i r : Nat) : (s.raiseTo o v i r).cal = s.cal := by unfold State.raiseTo; split <;> rfl
@[simp] theorem State.raiseTo_calLast (o : Obj) (v i r : Nat) : (s.raiseTo o v i r).calLast = s.calLast := by unfold State.raiseTo; split <;> rfl
@[simp] theorem State.raiseTo_calSnapFrom (o : Obj) (v i r : Nat) : (s.raiseTo o v i r).calSnapFrom = s.calSnapFrom := by unfold State.raiseTo; split <;> rfl
@[simp] theorem State.raiseTo_prot (o : Obj) (v i r : Nat) : (s.raiseTo o v i r).prot = s.prot := by unfold State.raiseTo; split <;> rfl
@[simp] theorem State.raiseTo_chans (o : Obj) (v i r : Nat) : (s.raiseTo o v i r).chans = s.chans := by unfold State.raiseTo; split <;> rfl
@[simp] theorem State.raiseTo_dies (o : Obj) (v i r : Nat) : (s.raiseTo o v i r).dies = s.dies := by unfold State.raiseTo; split <;> rfl
@[simp] theorem State.raiseTo_clusters (o : Obj) (v i r : Nat) : (s.raiseTo o v i r).clusters = s.clusters := by unfold State.raiseTo; split <;> rfl
@[simp] theorem State.raiseTo_ctxs (o : Obj) (v i r : Nat) : (s.raiseTo o v i r).ctxs = s.ctxs := by unfold State.raiseTo; split <;> rfl
@[simp] theorem State.raiseTo_activation (o : Obj) (v i r : Nat) : (s.raiseTo o v i r).activation = s.activation := by unfold State.raiseTo; split <;> rfl
@[simp] theorem State.raiseTo_pools (o : Obj) (v i r : Nat) : (s.raiseTo o v i r).pools = s.pools := by unfold State.raiseTo; split <;> rfl
@[simp] theorem State.raiseTo_offered (o : Obj) (v i r : Nat) : (s.raiseTo o v i r).offered = s.offered := by unfold State.raiseTo; split <;> rfl
@[simp] theorem State.raiseTo_offers (o : Obj) (v i r : Nat) : (s.raiseTo o v i r).offers = s.offers := by unfold State.raiseTo; split <;> rfl
@[simp] theorem State.raiseTo_nqs (o : Obj) (v i r : Nat) : (s.raiseTo o v i r).nqs = s.nqs := by unfold State.raiseTo; split <;> rfl
@[simp] theorem State.raiseTo_ce (o : Obj) (v i r : Nat) : (s.raiseTo o v i r).ce = s.ce := by unfold State.raiseTo; split <;> rfl
@[simp] theorem State.raiseTo_ceSlots (o : Obj) (v i r : Nat) : (s.raiseTo o v i r).ceSlots = s.ceSlots := by unfold State.raiseTo; split <;> rfl
@[simp] theorem State.raiseTo_ports (o : Obj) (v i r : Nat) : (s.raiseTo o v i r).ports = s.ports := by unfold State.raiseTo; split <;> rfl
@[simp] theorem State.raiseTo_ints (o : Obj) (v i r : Nat) : (s.raiseTo o v i r).ints = s.ints := by unfold State.raiseTo; split <;> rfl
@[simp] theorem State.raiseTo_procs (o : Obj) (v i r : Nat) : (s.raiseTo o v i r).procs = s.procs := by unfold State.raiseTo; split <;> rfl
@[simp] theorem State.raiseTo_xfers (o : Obj) (v i r : Nat) : (s.raiseTo o v i r).xfers = s.xfers := by unfold State.raiseTo; split <;> rfl
@[simp] theorem State.raiseTo_cfg (o : Obj) (v i r : Nat) : (s.raiseTo o v i r).cfg = s.cfg := by unfold State.raiseTo; split <;> rfl
@[simp] theorem State.raiseTo_fn (o : Obj) (v i r : Nat) : (s.raiseTo o v i r).fn = s.fn := by unfold State.raiseTo; split <;> rfl
@[simp] theorem State.raiseTo_frozen (o : Obj) (v i r : Nat) : (s.raiseTo o v i r).frozen = s.frozen := by unfold State.raiseTo; split <;> rfl
@[simp] theorem State.raiseTo_tlog (o : Obj) (v i r : Nat) : (s.raiseTo o v i r).tlog = s.tlog := by unfold State.raiseTo; split <;> rfl

/-! `elapse` changes only: dict, tref. -/

@[simp] theorem State.elapse_pending (dt : Nat) : (s.elapse dt).pending = s.pending := (rfl)
@[simp] theorem State.elapse_build (dt : Nat) : (s.elapse dt).build = s.build := (rfl)
@[simp] theorem State.elapse_phase (dt : Nat) : (s.elapse dt).phase = s.phase := (rfl)
@[simp] theorem State.elapse_resetPor (dt : Nat) : (s.elapse dt).resetPor = s.resetPor := (rfl)
@[simp] theorem State.elapse_porLow (dt : Nat) : (s.elapse dt).porLow = s.porLow := (rfl)
@[simp] theorem State.elapse_blkLow (dt : Nat) : (s.elapse dt).blkLow = s.blkLow := (rfl)
@[simp] theorem State.elapse_lostAtReset (dt : Nat) : (s.elapse dt).lostAtReset = s.lostAtReset := (rfl)
@[simp] theorem State.elapse_trefKhz (dt : Nat) : (s.elapse dt).trefKhz = s.trefKhz := (rfl)
@[simp] theorem State.elapse_fnclkSel (dt : Nat) : (s.elapse dt).fnclkSel = s.fnclkSel := (rfl)
@[simp] theorem State.elapse_testMode (dt : Nat) : (s.elapse dt).testMode = s.testMode := (rfl)
@[simp] theorem State.elapse_mbistBusy (dt : Nat) : (s.elapse dt).mbistBusy = s.mbistBusy := (rfl)
@[simp] theorem State.elapse_mbistDone (dt : Nat) : (s.elapse dt).mbistDone = s.mbistDone := (rfl)
@[simp] theorem State.elapse_mbistFail (dt : Nat) : (s.elapse dt).mbistFail = s.mbistFail := (rfl)
@[simp] theorem State.elapse_freeN (dt : Nat) : (s.elapse dt).freeN = s.freeN := (rfl)
@[simp] theorem State.elapse_mem (dt : Nat) : (s.elapse dt).mem = s.mem := (rfl)
@[simp] theorem State.elapse_modes (dt : Nat) : (s.elapse dt).modes = s.modes := (rfl)
@[simp] theorem State.elapse_raster (dt : Nat) : (s.elapse dt).raster = s.raster := (rfl)
@[simp] theorem State.elapse_orbit (dt : Nat) : (s.elapse dt).orbit = s.orbit := (rfl)
@[simp] theorem State.elapse_streams (dt : Nat) : (s.elapse dt).streams = s.streams := (rfl)
@[simp] theorem State.elapse_link (dt : Nat) : (s.elapse dt).link = s.link := (rfl)
@[simp] theorem State.elapse_cmds (dt : Nat) : (s.elapse dt).cmds = s.cmds := (rfl)
@[simp] theorem State.elapse_stampNext (dt : Nat) : (s.elapse dt).stampNext = s.stampNext := (rfl)
@[simp] theorem State.elapse_seqWritten (dt : Nat) : (s.elapse dt).seqWritten = s.seqWritten := (rfl)
@[simp] theorem State.elapse_deferred (dt : Nat) : (s.elapse dt).deferred = s.deferred := (rfl)
@[simp] theorem State.elapse_deferNew (dt : Nat) : (s.elapse dt).deferNew = s.deferNew := (rfl)
@[simp] theorem State.elapse_versions (dt : Nat) : (s.elapse dt).versions = s.versions := (rfl)
@[simp] theorem State.elapse_nextVer (dt : Nat) : (s.elapse dt).nextVer = s.nextVer := (rfl)
@[simp] theorem State.elapse_hostCws (dt : Nat) : (s.elapse dt).hostCws = s.hostCws := (rfl)
@[simp] theorem State.elapse_origins (dt : Nat) : (s.elapse dt).origins = s.origins := (rfl)
@[simp] theorem State.elapse_sbs (dt : Nat) : (s.elapse dt).sbs = s.sbs := (rfl)
@[simp] theorem State.elapse_allocReqs (dt : Nat) : (s.elapse dt).allocReqs = s.allocReqs := (rfl)
@[simp] theorem State.elapse_walking (dt : Nat) : (s.elapse dt).walking = s.walking := (rfl)
@[simp] theorem State.elapse_running (dt : Nat) : (s.elapse dt).running = s.running := (rfl)
@[simp] theorem State.elapse_interimBlocks (dt : Nat) : (s.elapse dt).interimBlocks = s.interimBlocks := (rfl)
@[simp] theorem State.elapse_zeroFrom (dt : Nat) : (s.elapse dt).zeroFrom = s.zeroFrom := (rfl)
@[simp] theorem State.elapse_stallFrom (dt : Nat) : (s.elapse dt).stallFrom = s.stallFrom := (rfl)
@[simp] theorem State.elapse_lostDies (dt : Nat) : (s.elapse dt).lostDies = s.lostDies := (rfl)
@[simp] theorem State.elapse_tokens (dt : Nat) : (s.elapse dt).tokens = s.tokens := (rfl)
@[simp] theorem State.elapse_blockLocks (dt : Nat) : (s.elapse dt).blockLocks = s.blockLocks := (rfl)
@[simp] theorem State.elapse_pins (dt : Nat) : (s.elapse dt).pins = s.pins := (rfl)
@[simp] theorem State.elapse_ops (dt : Nat) : (s.elapse dt).ops = s.ops := (rfl)
@[simp] theorem State.elapse_nextOp (dt : Nat) : (s.elapse dt).nextOp = s.nextOp := (rfl)
@[simp] theorem State.elapse_jobs (dt : Nat) : (s.elapse dt).jobs = s.jobs := (rfl)
@[simp] theorem State.elapse_nextJob (dt : Nat) : (s.elapse dt).nextJob = s.nextJob := (rfl)
@[simp] theorem State.elapse_rebuilds (dt : Nat) : (s.elapse dt).rebuilds = s.rebuilds := (rfl)
@[simp] theorem State.elapse_comet (dt : Nat) : (s.elapse dt).comet = s.comet := (rfl)
@[simp] theorem State.elapse_cometHeld (dt : Nat) : (s.elapse dt).cometHeld = s.cometHeld := (rfl)
@[simp] theorem State.elapse_slotsUsed (dt : Nat) : (s.elapse dt).slotsUsed = s.slotsUsed := (rfl)
@[simp] theorem State.elapse_slcOkOnce (dt : Nat) : (s.elapse dt).slcOkOnce = s.slcOkOnce := (rfl)
@[simp] theorem State.elapse_codes (dt : Nat) : (s.elapse dt).codes = s.codes := (rfl)
@[simp] theorem State.elapse_codeErr (dt : Nat) : (s.elapse dt).codeErr = s.codeErr := (rfl)
@[simp] theorem State.elapse_cal (dt : Nat) : (s.elapse dt).cal = s.cal := (rfl)
@[simp] theorem State.elapse_calLast (dt : Nat) : (s.elapse dt).calLast = s.calLast := (rfl)
@[simp] theorem State.elapse_calSnapFrom (dt : Nat) : (s.elapse dt).calSnapFrom = s.calSnapFrom := (rfl)
@[simp] theorem State.elapse_prot (dt : Nat) : (s.elapse dt).prot = s.prot := (rfl)
@[simp] theorem State.elapse_chans (dt : Nat) : (s.elapse dt).chans = s.chans := (rfl)
@[simp] theorem State.elapse_dies (dt : Nat) : (s.elapse dt).dies = s.dies := (rfl)
@[simp] theorem State.elapse_clusters (dt : Nat) : (s.elapse dt).clusters = s.clusters := (rfl)
@[simp] theorem State.elapse_ctxs (dt : Nat) : (s.elapse dt).ctxs = s.ctxs := (rfl)
@[simp] theorem State.elapse_activation (dt : Nat) : (s.elapse dt).activation = s.activation := (rfl)
@[simp] theorem State.elapse_pools (dt : Nat) : (s.elapse dt).pools = s.pools := (rfl)
@[simp] theorem State.elapse_offered (dt : Nat) : (s.elapse dt).offered = s.offered := (rfl)
@[simp] theorem State.elapse_offers (dt : Nat) : (s.elapse dt).offers = s.offers := (rfl)
@[simp] theorem State.elapse_nqs (dt : Nat) : (s.elapse dt).nqs = s.nqs := (rfl)
@[simp] theorem State.elapse_ce (dt : Nat) : (s.elapse dt).ce = s.ce := (rfl)
@[simp] theorem State.elapse_ceSlots (dt : Nat) : (s.elapse dt).ceSlots = s.ceSlots := (rfl)
@[simp] theorem State.elapse_ports (dt : Nat) : (s.elapse dt).ports = s.ports := (rfl)
@[simp] theorem State.elapse_ints (dt : Nat) : (s.elapse dt).ints = s.ints := (rfl)
@[simp] theorem State.elapse_procs (dt : Nat) : (s.elapse dt).procs = s.procs := (rfl)
@[simp] theorem State.elapse_xfers (dt : Nat) : (s.elapse dt).xfers = s.xfers := (rfl)
@[simp] theorem State.elapse_cfg (dt : Nat) : (s.elapse dt).cfg = s.cfg := (rfl)
@[simp] theorem State.elapse_fn (dt : Nat) : (s.elapse dt).fn = s.fn := (rfl)
@[simp] theorem State.elapse_frozen (dt : Nat) : (s.elapse dt).frozen = s.frozen := (rfl)
@[simp] theorem State.elapse_tlog (dt : Nat) : (s.elapse dt).tlog = s.tlog := (rfl)

/-! `drawFree` changes only: freeN. -/

@[simp] theorem State.drawFree_pending : (s.drawFree).pending = s.pending := (rfl)
@[simp] theorem State.drawFree_build : (s.drawFree).build = s.build := (rfl)
@[simp] theorem State.drawFree_phase : (s.drawFree).phase = s.phase := (rfl)
@[simp] theorem State.drawFree_resetPor : (s.drawFree).resetPor = s.resetPor := (rfl)
@[simp] theorem State.drawFree_porLow : (s.drawFree).porLow = s.porLow := (rfl)
@[simp] theorem State.drawFree_blkLow : (s.drawFree).blkLow = s.blkLow := (rfl)
@[simp] theorem State.drawFree_lostAtReset : (s.drawFree).lostAtReset = s.lostAtReset := (rfl)
@[simp] theorem State.drawFree_trefKhz : (s.drawFree).trefKhz = s.trefKhz := (rfl)
@[simp] theorem State.drawFree_fnclkSel : (s.drawFree).fnclkSel = s.fnclkSel := (rfl)
@[simp] theorem State.drawFree_testMode : (s.drawFree).testMode = s.testMode := (rfl)
@[simp] theorem State.drawFree_mbistBusy : (s.drawFree).mbistBusy = s.mbistBusy := (rfl)
@[simp] theorem State.drawFree_mbistDone : (s.drawFree).mbistDone = s.mbistDone := (rfl)
@[simp] theorem State.drawFree_mbistFail : (s.drawFree).mbistFail = s.mbistFail := (rfl)
@[simp] theorem State.drawFree_tref : (s.drawFree).tref = s.tref := (rfl)
@[simp] theorem State.drawFree_dict : (s.drawFree).dict = s.dict := (rfl)
@[simp] theorem State.drawFree_mem : (s.drawFree).mem = s.mem := (rfl)
@[simp] theorem State.drawFree_modes : (s.drawFree).modes = s.modes := (rfl)
@[simp] theorem State.drawFree_raster : (s.drawFree).raster = s.raster := (rfl)
@[simp] theorem State.drawFree_orbit : (s.drawFree).orbit = s.orbit := (rfl)
@[simp] theorem State.drawFree_streams : (s.drawFree).streams = s.streams := (rfl)
@[simp] theorem State.drawFree_link : (s.drawFree).link = s.link := (rfl)
@[simp] theorem State.drawFree_cmds : (s.drawFree).cmds = s.cmds := (rfl)
@[simp] theorem State.drawFree_stampNext : (s.drawFree).stampNext = s.stampNext := (rfl)
@[simp] theorem State.drawFree_seqWritten : (s.drawFree).seqWritten = s.seqWritten := (rfl)
@[simp] theorem State.drawFree_deferred : (s.drawFree).deferred = s.deferred := (rfl)
@[simp] theorem State.drawFree_deferNew : (s.drawFree).deferNew = s.deferNew := (rfl)
@[simp] theorem State.drawFree_versions : (s.drawFree).versions = s.versions := (rfl)
@[simp] theorem State.drawFree_nextVer : (s.drawFree).nextVer = s.nextVer := (rfl)
@[simp] theorem State.drawFree_hostCws : (s.drawFree).hostCws = s.hostCws := (rfl)
@[simp] theorem State.drawFree_origins : (s.drawFree).origins = s.origins := (rfl)
@[simp] theorem State.drawFree_sbs : (s.drawFree).sbs = s.sbs := (rfl)
@[simp] theorem State.drawFree_allocReqs : (s.drawFree).allocReqs = s.allocReqs := (rfl)
@[simp] theorem State.drawFree_walking : (s.drawFree).walking = s.walking := (rfl)
@[simp] theorem State.drawFree_running : (s.drawFree).running = s.running := (rfl)
@[simp] theorem State.drawFree_interimBlocks : (s.drawFree).interimBlocks = s.interimBlocks := (rfl)
@[simp] theorem State.drawFree_zeroFrom : (s.drawFree).zeroFrom = s.zeroFrom := (rfl)
@[simp] theorem State.drawFree_stallFrom : (s.drawFree).stallFrom = s.stallFrom := (rfl)
@[simp] theorem State.drawFree_lostDies : (s.drawFree).lostDies = s.lostDies := (rfl)
@[simp] theorem State.drawFree_tokens : (s.drawFree).tokens = s.tokens := (rfl)
@[simp] theorem State.drawFree_blockLocks : (s.drawFree).blockLocks = s.blockLocks := (rfl)
@[simp] theorem State.drawFree_pins : (s.drawFree).pins = s.pins := (rfl)
@[simp] theorem State.drawFree_ops : (s.drawFree).ops = s.ops := (rfl)
@[simp] theorem State.drawFree_nextOp : (s.drawFree).nextOp = s.nextOp := (rfl)
@[simp] theorem State.drawFree_jobs : (s.drawFree).jobs = s.jobs := (rfl)
@[simp] theorem State.drawFree_nextJob : (s.drawFree).nextJob = s.nextJob := (rfl)
@[simp] theorem State.drawFree_rebuilds : (s.drawFree).rebuilds = s.rebuilds := (rfl)
@[simp] theorem State.drawFree_comet : (s.drawFree).comet = s.comet := (rfl)
@[simp] theorem State.drawFree_cometHeld : (s.drawFree).cometHeld = s.cometHeld := (rfl)
@[simp] theorem State.drawFree_slotsUsed : (s.drawFree).slotsUsed = s.slotsUsed := (rfl)
@[simp] theorem State.drawFree_slcOkOnce : (s.drawFree).slcOkOnce = s.slcOkOnce := (rfl)
@[simp] theorem State.drawFree_codes : (s.drawFree).codes = s.codes := (rfl)
@[simp] theorem State.drawFree_codeErr : (s.drawFree).codeErr = s.codeErr := (rfl)
@[simp] theorem State.drawFree_cal : (s.drawFree).cal = s.cal := (rfl)
@[simp] theorem State.drawFree_calLast : (s.drawFree).calLast = s.calLast := (rfl)
@[simp] theorem State.drawFree_calSnapFrom : (s.drawFree).calSnapFrom = s.calSnapFrom := (rfl)
@[simp] theorem State.drawFree_prot : (s.drawFree).prot = s.prot := (rfl)
@[simp] theorem State.drawFree_chans : (s.drawFree).chans = s.chans := (rfl)
@[simp] theorem State.drawFree_dies : (s.drawFree).dies = s.dies := (rfl)
@[simp] theorem State.drawFree_clusters : (s.drawFree).clusters = s.clusters := (rfl)
@[simp] theorem State.drawFree_ctxs : (s.drawFree).ctxs = s.ctxs := (rfl)
@[simp] theorem State.drawFree_activation : (s.drawFree).activation = s.activation := (rfl)
@[simp] theorem State.drawFree_pools : (s.drawFree).pools = s.pools := (rfl)
@[simp] theorem State.drawFree_offered : (s.drawFree).offered = s.offered := (rfl)
@[simp] theorem State.drawFree_offers : (s.drawFree).offers = s.offers := (rfl)
@[simp] theorem State.drawFree_nqs : (s.drawFree).nqs = s.nqs := (rfl)
@[simp] theorem State.drawFree_ce : (s.drawFree).ce = s.ce := (rfl)
@[simp] theorem State.drawFree_ceSlots : (s.drawFree).ceSlots = s.ceSlots := (rfl)
@[simp] theorem State.drawFree_ports : (s.drawFree).ports = s.ports := (rfl)
@[simp] theorem State.drawFree_ints : (s.drawFree).ints = s.ints := (rfl)
@[simp] theorem State.drawFree_procs : (s.drawFree).procs = s.procs := (rfl)
@[simp] theorem State.drawFree_xfers : (s.drawFree).xfers = s.xfers := (rfl)
@[simp] theorem State.drawFree_cfg : (s.drawFree).cfg = s.cfg := (rfl)
@[simp] theorem State.drawFree_fn : (s.drawFree).fn = s.fn := (rfl)
@[simp] theorem State.drawFree_frozen : (s.drawFree).frozen = s.frozen := (rfl)
@[simp] theorem State.drawFree_tlog : (s.drawFree).tlog = s.tlog := (rfl)

/-! `raiseEvent` changes only: tlog. -/

@[simp] theorem State.raiseEvent_pending (k c x d : Nat) (sk : SrcKind) : (s.raiseEvent k c x d sk).pending = s.pending := (rfl)
@[simp] theorem State.raiseEvent_build (k c x d : Nat) (sk : SrcKind) : (s.raiseEvent k c x d sk).build = s.build := (rfl)
@[simp] theorem State.raiseEvent_phase (k c x d : Nat) (sk : SrcKind) : (s.raiseEvent k c x d sk).phase = s.phase := (rfl)
@[simp] theorem State.raiseEvent_resetPor (k c x d : Nat) (sk : SrcKind) : (s.raiseEvent k c x d sk).resetPor = s.resetPor := (rfl)
@[simp] theorem State.raiseEvent_porLow (k c x d : Nat) (sk : SrcKind) : (s.raiseEvent k c x d sk).porLow = s.porLow := (rfl)
@[simp] theorem State.raiseEvent_blkLow (k c x d : Nat) (sk : SrcKind) : (s.raiseEvent k c x d sk).blkLow = s.blkLow := (rfl)
@[simp] theorem State.raiseEvent_lostAtReset (k c x d : Nat) (sk : SrcKind) : (s.raiseEvent k c x d sk).lostAtReset = s.lostAtReset := (rfl)
@[simp] theorem State.raiseEvent_trefKhz (k c x d : Nat) (sk : SrcKind) : (s.raiseEvent k c x d sk).trefKhz = s.trefKhz := (rfl)
@[simp] theorem State.raiseEvent_fnclkSel (k c x d : Nat) (sk : SrcKind) : (s.raiseEvent k c x d sk).fnclkSel = s.fnclkSel := (rfl)
@[simp] theorem State.raiseEvent_testMode (k c x d : Nat) (sk : SrcKind) : (s.raiseEvent k c x d sk).testMode = s.testMode := (rfl)
@[simp] theorem State.raiseEvent_mbistBusy (k c x d : Nat) (sk : SrcKind) : (s.raiseEvent k c x d sk).mbistBusy = s.mbistBusy := (rfl)
@[simp] theorem State.raiseEvent_mbistDone (k c x d : Nat) (sk : SrcKind) : (s.raiseEvent k c x d sk).mbistDone = s.mbistDone := (rfl)
@[simp] theorem State.raiseEvent_mbistFail (k c x d : Nat) (sk : SrcKind) : (s.raiseEvent k c x d sk).mbistFail = s.mbistFail := (rfl)
@[simp] theorem State.raiseEvent_tref (k c x d : Nat) (sk : SrcKind) : (s.raiseEvent k c x d sk).tref = s.tref := (rfl)
@[simp] theorem State.raiseEvent_freeN (k c x d : Nat) (sk : SrcKind) : (s.raiseEvent k c x d sk).freeN = s.freeN := (rfl)
@[simp] theorem State.raiseEvent_dict (k c x d : Nat) (sk : SrcKind) : (s.raiseEvent k c x d sk).dict = s.dict := (rfl)
@[simp] theorem State.raiseEvent_mem (k c x d : Nat) (sk : SrcKind) : (s.raiseEvent k c x d sk).mem = s.mem := (rfl)
@[simp] theorem State.raiseEvent_modes (k c x d : Nat) (sk : SrcKind) : (s.raiseEvent k c x d sk).modes = s.modes := (rfl)
@[simp] theorem State.raiseEvent_raster (k c x d : Nat) (sk : SrcKind) : (s.raiseEvent k c x d sk).raster = s.raster := (rfl)
@[simp] theorem State.raiseEvent_orbit (k c x d : Nat) (sk : SrcKind) : (s.raiseEvent k c x d sk).orbit = s.orbit := (rfl)
@[simp] theorem State.raiseEvent_streams (k c x d : Nat) (sk : SrcKind) : (s.raiseEvent k c x d sk).streams = s.streams := (rfl)
@[simp] theorem State.raiseEvent_link (k c x d : Nat) (sk : SrcKind) : (s.raiseEvent k c x d sk).link = s.link := (rfl)
@[simp] theorem State.raiseEvent_cmds (k c x d : Nat) (sk : SrcKind) : (s.raiseEvent k c x d sk).cmds = s.cmds := (rfl)
@[simp] theorem State.raiseEvent_stampNext (k c x d : Nat) (sk : SrcKind) : (s.raiseEvent k c x d sk).stampNext = s.stampNext := (rfl)
@[simp] theorem State.raiseEvent_seqWritten (k c x d : Nat) (sk : SrcKind) : (s.raiseEvent k c x d sk).seqWritten = s.seqWritten := (rfl)
@[simp] theorem State.raiseEvent_deferred (k c x d : Nat) (sk : SrcKind) : (s.raiseEvent k c x d sk).deferred = s.deferred := (rfl)
@[simp] theorem State.raiseEvent_deferNew (k c x d : Nat) (sk : SrcKind) : (s.raiseEvent k c x d sk).deferNew = s.deferNew := (rfl)
@[simp] theorem State.raiseEvent_versions (k c x d : Nat) (sk : SrcKind) : (s.raiseEvent k c x d sk).versions = s.versions := (rfl)
@[simp] theorem State.raiseEvent_nextVer (k c x d : Nat) (sk : SrcKind) : (s.raiseEvent k c x d sk).nextVer = s.nextVer := (rfl)
@[simp] theorem State.raiseEvent_hostCws (k c x d : Nat) (sk : SrcKind) : (s.raiseEvent k c x d sk).hostCws = s.hostCws := (rfl)
@[simp] theorem State.raiseEvent_origins (k c x d : Nat) (sk : SrcKind) : (s.raiseEvent k c x d sk).origins = s.origins := (rfl)
@[simp] theorem State.raiseEvent_sbs (k c x d : Nat) (sk : SrcKind) : (s.raiseEvent k c x d sk).sbs = s.sbs := (rfl)
@[simp] theorem State.raiseEvent_allocReqs (k c x d : Nat) (sk : SrcKind) : (s.raiseEvent k c x d sk).allocReqs = s.allocReqs := (rfl)
@[simp] theorem State.raiseEvent_walking (k c x d : Nat) (sk : SrcKind) : (s.raiseEvent k c x d sk).walking = s.walking := (rfl)
@[simp] theorem State.raiseEvent_running (k c x d : Nat) (sk : SrcKind) : (s.raiseEvent k c x d sk).running = s.running := (rfl)
@[simp] theorem State.raiseEvent_interimBlocks (k c x d : Nat) (sk : SrcKind) : (s.raiseEvent k c x d sk).interimBlocks = s.interimBlocks := (rfl)
@[simp] theorem State.raiseEvent_zeroFrom (k c x d : Nat) (sk : SrcKind) : (s.raiseEvent k c x d sk).zeroFrom = s.zeroFrom := (rfl)
@[simp] theorem State.raiseEvent_stallFrom (k c x d : Nat) (sk : SrcKind) : (s.raiseEvent k c x d sk).stallFrom = s.stallFrom := (rfl)
@[simp] theorem State.raiseEvent_lostDies (k c x d : Nat) (sk : SrcKind) : (s.raiseEvent k c x d sk).lostDies = s.lostDies := (rfl)
@[simp] theorem State.raiseEvent_tokens (k c x d : Nat) (sk : SrcKind) : (s.raiseEvent k c x d sk).tokens = s.tokens := (rfl)
@[simp] theorem State.raiseEvent_blockLocks (k c x d : Nat) (sk : SrcKind) : (s.raiseEvent k c x d sk).blockLocks = s.blockLocks := (rfl)
@[simp] theorem State.raiseEvent_pins (k c x d : Nat) (sk : SrcKind) : (s.raiseEvent k c x d sk).pins = s.pins := (rfl)
@[simp] theorem State.raiseEvent_ops (k c x d : Nat) (sk : SrcKind) : (s.raiseEvent k c x d sk).ops = s.ops := (rfl)
@[simp] theorem State.raiseEvent_nextOp (k c x d : Nat) (sk : SrcKind) : (s.raiseEvent k c x d sk).nextOp = s.nextOp := (rfl)
@[simp] theorem State.raiseEvent_jobs (k c x d : Nat) (sk : SrcKind) : (s.raiseEvent k c x d sk).jobs = s.jobs := (rfl)
@[simp] theorem State.raiseEvent_nextJob (k c x d : Nat) (sk : SrcKind) : (s.raiseEvent k c x d sk).nextJob = s.nextJob := (rfl)
@[simp] theorem State.raiseEvent_rebuilds (k c x d : Nat) (sk : SrcKind) : (s.raiseEvent k c x d sk).rebuilds = s.rebuilds := (rfl)
@[simp] theorem State.raiseEvent_comet (k c x d : Nat) (sk : SrcKind) : (s.raiseEvent k c x d sk).comet = s.comet := (rfl)
@[simp] theorem State.raiseEvent_cometHeld (k c x d : Nat) (sk : SrcKind) : (s.raiseEvent k c x d sk).cometHeld = s.cometHeld := (rfl)
@[simp] theorem State.raiseEvent_slotsUsed (k c x d : Nat) (sk : SrcKind) : (s.raiseEvent k c x d sk).slotsUsed = s.slotsUsed := (rfl)
@[simp] theorem State.raiseEvent_slcOkOnce (k c x d : Nat) (sk : SrcKind) : (s.raiseEvent k c x d sk).slcOkOnce = s.slcOkOnce := (rfl)
@[simp] theorem State.raiseEvent_codes (k c x d : Nat) (sk : SrcKind) : (s.raiseEvent k c x d sk).codes = s.codes := (rfl)
@[simp] theorem State.raiseEvent_codeErr (k c x d : Nat) (sk : SrcKind) : (s.raiseEvent k c x d sk).codeErr = s.codeErr := (rfl)
@[simp] theorem State.raiseEvent_cal (k c x d : Nat) (sk : SrcKind) : (s.raiseEvent k c x d sk).cal = s.cal := (rfl)
@[simp] theorem State.raiseEvent_calLast (k c x d : Nat) (sk : SrcKind) : (s.raiseEvent k c x d sk).calLast = s.calLast := (rfl)
@[simp] theorem State.raiseEvent_calSnapFrom (k c x d : Nat) (sk : SrcKind) : (s.raiseEvent k c x d sk).calSnapFrom = s.calSnapFrom := (rfl)
@[simp] theorem State.raiseEvent_prot (k c x d : Nat) (sk : SrcKind) : (s.raiseEvent k c x d sk).prot = s.prot := (rfl)
@[simp] theorem State.raiseEvent_chans (k c x d : Nat) (sk : SrcKind) : (s.raiseEvent k c x d sk).chans = s.chans := (rfl)
@[simp] theorem State.raiseEvent_dies (k c x d : Nat) (sk : SrcKind) : (s.raiseEvent k c x d sk).dies = s.dies := (rfl)
@[simp] theorem State.raiseEvent_clusters (k c x d : Nat) (sk : SrcKind) : (s.raiseEvent k c x d sk).clusters = s.clusters := (rfl)
@[simp] theorem State.raiseEvent_ctxs (k c x d : Nat) (sk : SrcKind) : (s.raiseEvent k c x d sk).ctxs = s.ctxs := (rfl)
@[simp] theorem State.raiseEvent_activation (k c x d : Nat) (sk : SrcKind) : (s.raiseEvent k c x d sk).activation = s.activation := (rfl)
@[simp] theorem State.raiseEvent_pools (k c x d : Nat) (sk : SrcKind) : (s.raiseEvent k c x d sk).pools = s.pools := (rfl)
@[simp] theorem State.raiseEvent_offered (k c x d : Nat) (sk : SrcKind) : (s.raiseEvent k c x d sk).offered = s.offered := (rfl)
@[simp] theorem State.raiseEvent_offers (k c x d : Nat) (sk : SrcKind) : (s.raiseEvent k c x d sk).offers = s.offers := (rfl)
@[simp] theorem State.raiseEvent_nqs (k c x d : Nat) (sk : SrcKind) : (s.raiseEvent k c x d sk).nqs = s.nqs := (rfl)
@[simp] theorem State.raiseEvent_ce (k c x d : Nat) (sk : SrcKind) : (s.raiseEvent k c x d sk).ce = s.ce := (rfl)
@[simp] theorem State.raiseEvent_ceSlots (k c x d : Nat) (sk : SrcKind) : (s.raiseEvent k c x d sk).ceSlots = s.ceSlots := (rfl)
@[simp] theorem State.raiseEvent_ports (k c x d : Nat) (sk : SrcKind) : (s.raiseEvent k c x d sk).ports = s.ports := (rfl)
@[simp] theorem State.raiseEvent_ints (k c x d : Nat) (sk : SrcKind) : (s.raiseEvent k c x d sk).ints = s.ints := (rfl)
@[simp] theorem State.raiseEvent_procs (k c x d : Nat) (sk : SrcKind) : (s.raiseEvent k c x d sk).procs = s.procs := (rfl)
@[simp] theorem State.raiseEvent_xfers (k c x d : Nat) (sk : SrcKind) : (s.raiseEvent k c x d sk).xfers = s.xfers := (rfl)
@[simp] theorem State.raiseEvent_cfg (k c x d : Nat) (sk : SrcKind) : (s.raiseEvent k c x d sk).cfg = s.cfg := (rfl)
@[simp] theorem State.raiseEvent_fn (k c x d : Nat) (sk : SrcKind) : (s.raiseEvent k c x d sk).fn = s.fn := (rfl)
@[simp] theorem State.raiseEvent_frozen (k c x d : Nat) (sk : SrcKind) : (s.raiseEvent k c x d sk).frozen = s.frozen := (rfl)

/-! `event` changes only: tlog. -/

@[simp] theorem State.event_pending (k x d : Nat) (sk : SrcKind) : (s.event k x d sk).pending = s.pending := (rfl)
@[simp] theorem State.event_build (k x d : Nat) (sk : SrcKind) : (s.event k x d sk).build = s.build := (rfl)
@[simp] theorem State.event_phase (k x d : Nat) (sk : SrcKind) : (s.event k x d sk).phase = s.phase := (rfl)
@[simp] theorem State.event_resetPor (k x d : Nat) (sk : SrcKind) : (s.event k x d sk).resetPor = s.resetPor := (rfl)
@[simp] theorem State.event_porLow (k x d : Nat) (sk : SrcKind) : (s.event k x d sk).porLow = s.porLow := (rfl)
@[simp] theorem State.event_blkLow (k x d : Nat) (sk : SrcKind) : (s.event k x d sk).blkLow = s.blkLow := (rfl)
@[simp] theorem State.event_lostAtReset (k x d : Nat) (sk : SrcKind) : (s.event k x d sk).lostAtReset = s.lostAtReset := (rfl)
@[simp] theorem State.event_trefKhz (k x d : Nat) (sk : SrcKind) : (s.event k x d sk).trefKhz = s.trefKhz := (rfl)
@[simp] theorem State.event_fnclkSel (k x d : Nat) (sk : SrcKind) : (s.event k x d sk).fnclkSel = s.fnclkSel := (rfl)
@[simp] theorem State.event_testMode (k x d : Nat) (sk : SrcKind) : (s.event k x d sk).testMode = s.testMode := (rfl)
@[simp] theorem State.event_mbistBusy (k x d : Nat) (sk : SrcKind) : (s.event k x d sk).mbistBusy = s.mbistBusy := (rfl)
@[simp] theorem State.event_mbistDone (k x d : Nat) (sk : SrcKind) : (s.event k x d sk).mbistDone = s.mbistDone := (rfl)
@[simp] theorem State.event_mbistFail (k x d : Nat) (sk : SrcKind) : (s.event k x d sk).mbistFail = s.mbistFail := (rfl)
@[simp] theorem State.event_tref (k x d : Nat) (sk : SrcKind) : (s.event k x d sk).tref = s.tref := (rfl)
@[simp] theorem State.event_freeN (k x d : Nat) (sk : SrcKind) : (s.event k x d sk).freeN = s.freeN := (rfl)
@[simp] theorem State.event_dict (k x d : Nat) (sk : SrcKind) : (s.event k x d sk).dict = s.dict := (rfl)
@[simp] theorem State.event_mem (k x d : Nat) (sk : SrcKind) : (s.event k x d sk).mem = s.mem := (rfl)
@[simp] theorem State.event_modes (k x d : Nat) (sk : SrcKind) : (s.event k x d sk).modes = s.modes := (rfl)
@[simp] theorem State.event_raster (k x d : Nat) (sk : SrcKind) : (s.event k x d sk).raster = s.raster := (rfl)
@[simp] theorem State.event_orbit (k x d : Nat) (sk : SrcKind) : (s.event k x d sk).orbit = s.orbit := (rfl)
@[simp] theorem State.event_streams (k x d : Nat) (sk : SrcKind) : (s.event k x d sk).streams = s.streams := (rfl)
@[simp] theorem State.event_link (k x d : Nat) (sk : SrcKind) : (s.event k x d sk).link = s.link := (rfl)
@[simp] theorem State.event_cmds (k x d : Nat) (sk : SrcKind) : (s.event k x d sk).cmds = s.cmds := (rfl)
@[simp] theorem State.event_stampNext (k x d : Nat) (sk : SrcKind) : (s.event k x d sk).stampNext = s.stampNext := (rfl)
@[simp] theorem State.event_seqWritten (k x d : Nat) (sk : SrcKind) : (s.event k x d sk).seqWritten = s.seqWritten := (rfl)
@[simp] theorem State.event_deferred (k x d : Nat) (sk : SrcKind) : (s.event k x d sk).deferred = s.deferred := (rfl)
@[simp] theorem State.event_deferNew (k x d : Nat) (sk : SrcKind) : (s.event k x d sk).deferNew = s.deferNew := (rfl)
@[simp] theorem State.event_versions (k x d : Nat) (sk : SrcKind) : (s.event k x d sk).versions = s.versions := (rfl)
@[simp] theorem State.event_nextVer (k x d : Nat) (sk : SrcKind) : (s.event k x d sk).nextVer = s.nextVer := (rfl)
@[simp] theorem State.event_hostCws (k x d : Nat) (sk : SrcKind) : (s.event k x d sk).hostCws = s.hostCws := (rfl)
@[simp] theorem State.event_origins (k x d : Nat) (sk : SrcKind) : (s.event k x d sk).origins = s.origins := (rfl)
@[simp] theorem State.event_sbs (k x d : Nat) (sk : SrcKind) : (s.event k x d sk).sbs = s.sbs := (rfl)
@[simp] theorem State.event_allocReqs (k x d : Nat) (sk : SrcKind) : (s.event k x d sk).allocReqs = s.allocReqs := (rfl)
@[simp] theorem State.event_walking (k x d : Nat) (sk : SrcKind) : (s.event k x d sk).walking = s.walking := (rfl)
@[simp] theorem State.event_running (k x d : Nat) (sk : SrcKind) : (s.event k x d sk).running = s.running := (rfl)
@[simp] theorem State.event_interimBlocks (k x d : Nat) (sk : SrcKind) : (s.event k x d sk).interimBlocks = s.interimBlocks := (rfl)
@[simp] theorem State.event_zeroFrom (k x d : Nat) (sk : SrcKind) : (s.event k x d sk).zeroFrom = s.zeroFrom := (rfl)
@[simp] theorem State.event_stallFrom (k x d : Nat) (sk : SrcKind) : (s.event k x d sk).stallFrom = s.stallFrom := (rfl)
@[simp] theorem State.event_lostDies (k x d : Nat) (sk : SrcKind) : (s.event k x d sk).lostDies = s.lostDies := (rfl)
@[simp] theorem State.event_tokens (k x d : Nat) (sk : SrcKind) : (s.event k x d sk).tokens = s.tokens := (rfl)
@[simp] theorem State.event_blockLocks (k x d : Nat) (sk : SrcKind) : (s.event k x d sk).blockLocks = s.blockLocks := (rfl)
@[simp] theorem State.event_pins (k x d : Nat) (sk : SrcKind) : (s.event k x d sk).pins = s.pins := (rfl)
@[simp] theorem State.event_ops (k x d : Nat) (sk : SrcKind) : (s.event k x d sk).ops = s.ops := (rfl)
@[simp] theorem State.event_nextOp (k x d : Nat) (sk : SrcKind) : (s.event k x d sk).nextOp = s.nextOp := (rfl)
@[simp] theorem State.event_jobs (k x d : Nat) (sk : SrcKind) : (s.event k x d sk).jobs = s.jobs := (rfl)
@[simp] theorem State.event_nextJob (k x d : Nat) (sk : SrcKind) : (s.event k x d sk).nextJob = s.nextJob := (rfl)
@[simp] theorem State.event_rebuilds (k x d : Nat) (sk : SrcKind) : (s.event k x d sk).rebuilds = s.rebuilds := (rfl)
@[simp] theorem State.event_comet (k x d : Nat) (sk : SrcKind) : (s.event k x d sk).comet = s.comet := (rfl)
@[simp] theorem State.event_cometHeld (k x d : Nat) (sk : SrcKind) : (s.event k x d sk).cometHeld = s.cometHeld := (rfl)
@[simp] theorem State.event_slotsUsed (k x d : Nat) (sk : SrcKind) : (s.event k x d sk).slotsUsed = s.slotsUsed := (rfl)
@[simp] theorem State.event_slcOkOnce (k x d : Nat) (sk : SrcKind) : (s.event k x d sk).slcOkOnce = s.slcOkOnce := (rfl)
@[simp] theorem State.event_codes (k x d : Nat) (sk : SrcKind) : (s.event k x d sk).codes = s.codes := (rfl)
@[simp] theorem State.event_codeErr (k x d : Nat) (sk : SrcKind) : (s.event k x d sk).codeErr = s.codeErr := (rfl)
@[simp] theorem State.event_cal (k x d : Nat) (sk : SrcKind) : (s.event k x d sk).cal = s.cal := (rfl)
@[simp] theorem State.event_calLast (k x d : Nat) (sk : SrcKind) : (s.event k x d sk).calLast = s.calLast := (rfl)
@[simp] theorem State.event_calSnapFrom (k x d : Nat) (sk : SrcKind) : (s.event k x d sk).calSnapFrom = s.calSnapFrom := (rfl)
@[simp] theorem State.event_prot (k x d : Nat) (sk : SrcKind) : (s.event k x d sk).prot = s.prot := (rfl)
@[simp] theorem State.event_chans (k x d : Nat) (sk : SrcKind) : (s.event k x d sk).chans = s.chans := (rfl)
@[simp] theorem State.event_dies (k x d : Nat) (sk : SrcKind) : (s.event k x d sk).dies = s.dies := (rfl)
@[simp] theorem State.event_clusters (k x d : Nat) (sk : SrcKind) : (s.event k x d sk).clusters = s.clusters := (rfl)
@[simp] theorem State.event_ctxs (k x d : Nat) (sk : SrcKind) : (s.event k x d sk).ctxs = s.ctxs := (rfl)
@[simp] theorem State.event_activation (k x d : Nat) (sk : SrcKind) : (s.event k x d sk).activation = s.activation := (rfl)
@[simp] theorem State.event_pools (k x d : Nat) (sk : SrcKind) : (s.event k x d sk).pools = s.pools := (rfl)
@[simp] theorem State.event_offered (k x d : Nat) (sk : SrcKind) : (s.event k x d sk).offered = s.offered := (rfl)
@[simp] theorem State.event_offers (k x d : Nat) (sk : SrcKind) : (s.event k x d sk).offers = s.offers := (rfl)
@[simp] theorem State.event_nqs (k x d : Nat) (sk : SrcKind) : (s.event k x d sk).nqs = s.nqs := (rfl)
@[simp] theorem State.event_ce (k x d : Nat) (sk : SrcKind) : (s.event k x d sk).ce = s.ce := (rfl)
@[simp] theorem State.event_ceSlots (k x d : Nat) (sk : SrcKind) : (s.event k x d sk).ceSlots = s.ceSlots := (rfl)
@[simp] theorem State.event_ports (k x d : Nat) (sk : SrcKind) : (s.event k x d sk).ports = s.ports := (rfl)
@[simp] theorem State.event_ints (k x d : Nat) (sk : SrcKind) : (s.event k x d sk).ints = s.ints := (rfl)
@[simp] theorem State.event_procs (k x d : Nat) (sk : SrcKind) : (s.event k x d sk).procs = s.procs := (rfl)
@[simp] theorem State.event_xfers (k x d : Nat) (sk : SrcKind) : (s.event k x d sk).xfers = s.xfers := (rfl)
@[simp] theorem State.event_cfg (k x d : Nat) (sk : SrcKind) : (s.event k x d sk).cfg = s.cfg := (rfl)
@[simp] theorem State.event_fn (k x d : Nat) (sk : SrcKind) : (s.event k x d sk).fn = s.fn := (rfl)
@[simp] theorem State.event_frozen (k x d : Nat) (sk : SrcKind) : (s.event k x d sk).frozen = s.frozen := (rfl)

/-! `offer` changes only: offered. -/

@[simp] theorem State.offer_pending (k q c x : Nat) (b : List Byte) (h : Bool) (cmd : Option Nat) : (s.offer k q c x b h cmd).pending = s.pending := (rfl)
@[simp] theorem State.offer_build (k q c x : Nat) (b : List Byte) (h : Bool) (cmd : Option Nat) : (s.offer k q c x b h cmd).build = s.build := (rfl)
@[simp] theorem State.offer_phase (k q c x : Nat) (b : List Byte) (h : Bool) (cmd : Option Nat) : (s.offer k q c x b h cmd).phase = s.phase := (rfl)
@[simp] theorem State.offer_resetPor (k q c x : Nat) (b : List Byte) (h : Bool) (cmd : Option Nat) : (s.offer k q c x b h cmd).resetPor = s.resetPor := (rfl)
@[simp] theorem State.offer_porLow (k q c x : Nat) (b : List Byte) (h : Bool) (cmd : Option Nat) : (s.offer k q c x b h cmd).porLow = s.porLow := (rfl)
@[simp] theorem State.offer_blkLow (k q c x : Nat) (b : List Byte) (h : Bool) (cmd : Option Nat) : (s.offer k q c x b h cmd).blkLow = s.blkLow := (rfl)
@[simp] theorem State.offer_lostAtReset (k q c x : Nat) (b : List Byte) (h : Bool) (cmd : Option Nat) : (s.offer k q c x b h cmd).lostAtReset = s.lostAtReset := (rfl)
@[simp] theorem State.offer_trefKhz (k q c x : Nat) (b : List Byte) (h : Bool) (cmd : Option Nat) : (s.offer k q c x b h cmd).trefKhz = s.trefKhz := (rfl)
@[simp] theorem State.offer_fnclkSel (k q c x : Nat) (b : List Byte) (h : Bool) (cmd : Option Nat) : (s.offer k q c x b h cmd).fnclkSel = s.fnclkSel := (rfl)
@[simp] theorem State.offer_testMode (k q c x : Nat) (b : List Byte) (h : Bool) (cmd : Option Nat) : (s.offer k q c x b h cmd).testMode = s.testMode := (rfl)
@[simp] theorem State.offer_mbistBusy (k q c x : Nat) (b : List Byte) (h : Bool) (cmd : Option Nat) : (s.offer k q c x b h cmd).mbistBusy = s.mbistBusy := (rfl)
@[simp] theorem State.offer_mbistDone (k q c x : Nat) (b : List Byte) (h : Bool) (cmd : Option Nat) : (s.offer k q c x b h cmd).mbistDone = s.mbistDone := (rfl)
@[simp] theorem State.offer_mbistFail (k q c x : Nat) (b : List Byte) (h : Bool) (cmd : Option Nat) : (s.offer k q c x b h cmd).mbistFail = s.mbistFail := (rfl)
@[simp] theorem State.offer_tref (k q c x : Nat) (b : List Byte) (h : Bool) (cmd : Option Nat) : (s.offer k q c x b h cmd).tref = s.tref := (rfl)
@[simp] theorem State.offer_freeN (k q c x : Nat) (b : List Byte) (h : Bool) (cmd : Option Nat) : (s.offer k q c x b h cmd).freeN = s.freeN := (rfl)
@[simp] theorem State.offer_dict (k q c x : Nat) (b : List Byte) (h : Bool) (cmd : Option Nat) : (s.offer k q c x b h cmd).dict = s.dict := (rfl)
@[simp] theorem State.offer_mem (k q c x : Nat) (b : List Byte) (h : Bool) (cmd : Option Nat) : (s.offer k q c x b h cmd).mem = s.mem := (rfl)
@[simp] theorem State.offer_modes (k q c x : Nat) (b : List Byte) (h : Bool) (cmd : Option Nat) : (s.offer k q c x b h cmd).modes = s.modes := (rfl)
@[simp] theorem State.offer_raster (k q c x : Nat) (b : List Byte) (h : Bool) (cmd : Option Nat) : (s.offer k q c x b h cmd).raster = s.raster := (rfl)
@[simp] theorem State.offer_orbit (k q c x : Nat) (b : List Byte) (h : Bool) (cmd : Option Nat) : (s.offer k q c x b h cmd).orbit = s.orbit := (rfl)
@[simp] theorem State.offer_streams (k q c x : Nat) (b : List Byte) (h : Bool) (cmd : Option Nat) : (s.offer k q c x b h cmd).streams = s.streams := (rfl)
@[simp] theorem State.offer_link (k q c x : Nat) (b : List Byte) (h : Bool) (cmd : Option Nat) : (s.offer k q c x b h cmd).link = s.link := (rfl)
@[simp] theorem State.offer_cmds (k q c x : Nat) (b : List Byte) (h : Bool) (cmd : Option Nat) : (s.offer k q c x b h cmd).cmds = s.cmds := (rfl)
@[simp] theorem State.offer_stampNext (k q c x : Nat) (b : List Byte) (h : Bool) (cmd : Option Nat) : (s.offer k q c x b h cmd).stampNext = s.stampNext := (rfl)
@[simp] theorem State.offer_seqWritten (k q c x : Nat) (b : List Byte) (h : Bool) (cmd : Option Nat) : (s.offer k q c x b h cmd).seqWritten = s.seqWritten := (rfl)
@[simp] theorem State.offer_deferred (k q c x : Nat) (b : List Byte) (h : Bool) (cmd : Option Nat) : (s.offer k q c x b h cmd).deferred = s.deferred := (rfl)
@[simp] theorem State.offer_deferNew (k q c x : Nat) (b : List Byte) (h : Bool) (cmd : Option Nat) : (s.offer k q c x b h cmd).deferNew = s.deferNew := (rfl)
@[simp] theorem State.offer_versions (k q c x : Nat) (b : List Byte) (h : Bool) (cmd : Option Nat) : (s.offer k q c x b h cmd).versions = s.versions := (rfl)
@[simp] theorem State.offer_nextVer (k q c x : Nat) (b : List Byte) (h : Bool) (cmd : Option Nat) : (s.offer k q c x b h cmd).nextVer = s.nextVer := (rfl)
@[simp] theorem State.offer_hostCws (k q c x : Nat) (b : List Byte) (h : Bool) (cmd : Option Nat) : (s.offer k q c x b h cmd).hostCws = s.hostCws := (rfl)
@[simp] theorem State.offer_origins (k q c x : Nat) (b : List Byte) (h : Bool) (cmd : Option Nat) : (s.offer k q c x b h cmd).origins = s.origins := (rfl)
@[simp] theorem State.offer_sbs (k q c x : Nat) (b : List Byte) (h : Bool) (cmd : Option Nat) : (s.offer k q c x b h cmd).sbs = s.sbs := (rfl)
@[simp] theorem State.offer_allocReqs (k q c x : Nat) (b : List Byte) (h : Bool) (cmd : Option Nat) : (s.offer k q c x b h cmd).allocReqs = s.allocReqs := (rfl)
@[simp] theorem State.offer_walking (k q c x : Nat) (b : List Byte) (h : Bool) (cmd : Option Nat) : (s.offer k q c x b h cmd).walking = s.walking := (rfl)
@[simp] theorem State.offer_running (k q c x : Nat) (b : List Byte) (h : Bool) (cmd : Option Nat) : (s.offer k q c x b h cmd).running = s.running := (rfl)
@[simp] theorem State.offer_interimBlocks (k q c x : Nat) (b : List Byte) (h : Bool) (cmd : Option Nat) : (s.offer k q c x b h cmd).interimBlocks = s.interimBlocks := (rfl)
@[simp] theorem State.offer_zeroFrom (k q c x : Nat) (b : List Byte) (h : Bool) (cmd : Option Nat) : (s.offer k q c x b h cmd).zeroFrom = s.zeroFrom := (rfl)
@[simp] theorem State.offer_stallFrom (k q c x : Nat) (b : List Byte) (h : Bool) (cmd : Option Nat) : (s.offer k q c x b h cmd).stallFrom = s.stallFrom := (rfl)
@[simp] theorem State.offer_lostDies (k q c x : Nat) (b : List Byte) (h : Bool) (cmd : Option Nat) : (s.offer k q c x b h cmd).lostDies = s.lostDies := (rfl)
@[simp] theorem State.offer_tokens (k q c x : Nat) (b : List Byte) (h : Bool) (cmd : Option Nat) : (s.offer k q c x b h cmd).tokens = s.tokens := (rfl)
@[simp] theorem State.offer_blockLocks (k q c x : Nat) (b : List Byte) (h : Bool) (cmd : Option Nat) : (s.offer k q c x b h cmd).blockLocks = s.blockLocks := (rfl)
@[simp] theorem State.offer_pins (k q c x : Nat) (b : List Byte) (h : Bool) (cmd : Option Nat) : (s.offer k q c x b h cmd).pins = s.pins := (rfl)
@[simp] theorem State.offer_ops (k q c x : Nat) (b : List Byte) (h : Bool) (cmd : Option Nat) : (s.offer k q c x b h cmd).ops = s.ops := (rfl)
@[simp] theorem State.offer_nextOp (k q c x : Nat) (b : List Byte) (h : Bool) (cmd : Option Nat) : (s.offer k q c x b h cmd).nextOp = s.nextOp := (rfl)
@[simp] theorem State.offer_jobs (k q c x : Nat) (b : List Byte) (h : Bool) (cmd : Option Nat) : (s.offer k q c x b h cmd).jobs = s.jobs := (rfl)
@[simp] theorem State.offer_nextJob (k q c x : Nat) (b : List Byte) (h : Bool) (cmd : Option Nat) : (s.offer k q c x b h cmd).nextJob = s.nextJob := (rfl)
@[simp] theorem State.offer_rebuilds (k q c x : Nat) (b : List Byte) (h : Bool) (cmd : Option Nat) : (s.offer k q c x b h cmd).rebuilds = s.rebuilds := (rfl)
@[simp] theorem State.offer_comet (k q c x : Nat) (b : List Byte) (h : Bool) (cmd : Option Nat) : (s.offer k q c x b h cmd).comet = s.comet := (rfl)
@[simp] theorem State.offer_cometHeld (k q c x : Nat) (b : List Byte) (h : Bool) (cmd : Option Nat) : (s.offer k q c x b h cmd).cometHeld = s.cometHeld := (rfl)
@[simp] theorem State.offer_slotsUsed (k q c x : Nat) (b : List Byte) (h : Bool) (cmd : Option Nat) : (s.offer k q c x b h cmd).slotsUsed = s.slotsUsed := (rfl)
@[simp] theorem State.offer_slcOkOnce (k q c x : Nat) (b : List Byte) (h : Bool) (cmd : Option Nat) : (s.offer k q c x b h cmd).slcOkOnce = s.slcOkOnce := (rfl)
@[simp] theorem State.offer_codes (k q c x : Nat) (b : List Byte) (h : Bool) (cmd : Option Nat) : (s.offer k q c x b h cmd).codes = s.codes := (rfl)
@[simp] theorem State.offer_codeErr (k q c x : Nat) (b : List Byte) (h : Bool) (cmd : Option Nat) : (s.offer k q c x b h cmd).codeErr = s.codeErr := (rfl)
@[simp] theorem State.offer_cal (k q c x : Nat) (b : List Byte) (h : Bool) (cmd : Option Nat) : (s.offer k q c x b h cmd).cal = s.cal := (rfl)
@[simp] theorem State.offer_calLast (k q c x : Nat) (b : List Byte) (h : Bool) (cmd : Option Nat) : (s.offer k q c x b h cmd).calLast = s.calLast := (rfl)
@[simp] theorem State.offer_calSnapFrom (k q c x : Nat) (b : List Byte) (h : Bool) (cmd : Option Nat) : (s.offer k q c x b h cmd).calSnapFrom = s.calSnapFrom := (rfl)
@[simp] theorem State.offer_prot (k q c x : Nat) (b : List Byte) (h : Bool) (cmd : Option Nat) : (s.offer k q c x b h cmd).prot = s.prot := (rfl)
@[simp] theorem State.offer_chans (k q c x : Nat) (b : List Byte) (h : Bool) (cmd : Option Nat) : (s.offer k q c x b h cmd).chans = s.chans := (rfl)
@[simp] theorem State.offer_dies (k q c x : Nat) (b : List Byte) (h : Bool) (cmd : Option Nat) : (s.offer k q c x b h cmd).dies = s.dies := (rfl)
@[simp] theorem State.offer_clusters (k q c x : Nat) (b : List Byte) (h : Bool) (cmd : Option Nat) : (s.offer k q c x b h cmd).clusters = s.clusters := (rfl)
@[simp] theorem State.offer_ctxs (k q c x : Nat) (b : List Byte) (h : Bool) (cmd : Option Nat) : (s.offer k q c x b h cmd).ctxs = s.ctxs := (rfl)
@[simp] theorem State.offer_activation (k q c x : Nat) (b : List Byte) (h : Bool) (cmd : Option Nat) : (s.offer k q c x b h cmd).activation = s.activation := (rfl)
@[simp] theorem State.offer_pools (k q c x : Nat) (b : List Byte) (h : Bool) (cmd : Option Nat) : (s.offer k q c x b h cmd).pools = s.pools := (rfl)
@[simp] theorem State.offer_offers (k q c x : Nat) (b : List Byte) (h : Bool) (cmd : Option Nat) : (s.offer k q c x b h cmd).offers = s.offers := (rfl)
@[simp] theorem State.offer_nqs (k q c x : Nat) (b : List Byte) (h : Bool) (cmd : Option Nat) : (s.offer k q c x b h cmd).nqs = s.nqs := (rfl)
@[simp] theorem State.offer_ce (k q c x : Nat) (b : List Byte) (h : Bool) (cmd : Option Nat) : (s.offer k q c x b h cmd).ce = s.ce := (rfl)
@[simp] theorem State.offer_ceSlots (k q c x : Nat) (b : List Byte) (h : Bool) (cmd : Option Nat) : (s.offer k q c x b h cmd).ceSlots = s.ceSlots := (rfl)
@[simp] theorem State.offer_ports (k q c x : Nat) (b : List Byte) (h : Bool) (cmd : Option Nat) : (s.offer k q c x b h cmd).ports = s.ports := (rfl)
@[simp] theorem State.offer_ints (k q c x : Nat) (b : List Byte) (h : Bool) (cmd : Option Nat) : (s.offer k q c x b h cmd).ints = s.ints := (rfl)
@[simp] theorem State.offer_procs (k q c x : Nat) (b : List Byte) (h : Bool) (cmd : Option Nat) : (s.offer k q c x b h cmd).procs = s.procs := (rfl)
@[simp] theorem State.offer_xfers (k q c x : Nat) (b : List Byte) (h : Bool) (cmd : Option Nat) : (s.offer k q c x b h cmd).xfers = s.xfers := (rfl)
@[simp] theorem State.offer_cfg (k q c x : Nat) (b : List Byte) (h : Bool) (cmd : Option Nat) : (s.offer k q c x b h cmd).cfg = s.cfg := (rfl)
@[simp] theorem State.offer_fn (k q c x : Nat) (b : List Byte) (h : Bool) (cmd : Option Nat) : (s.offer k q c x b h cmd).fn = s.fn := (rfl)
@[simp] theorem State.offer_frozen (k q c x : Nat) (b : List Byte) (h : Bool) (cmd : Option Nat) : (s.offer k q c x b h cmd).frozen = s.frozen := (rfl)
@[simp] theorem State.offer_tlog (k q c x : Nat) (b : List Byte) (h : Bool) (cmd : Option Nat) : (s.offer k q c x b h cmd).tlog = s.tlog := (rfl)

/-! `classNotice` changes only: offered. -/

@[simp] theorem State.classNotice_pending (k c x : Nat) (fs : List (Nat × Nat)) : (s.classNotice k c x fs).pending = s.pending := (rfl)
@[simp] theorem State.classNotice_build (k c x : Nat) (fs : List (Nat × Nat)) : (s.classNotice k c x fs).build = s.build := (rfl)
@[simp] theorem State.classNotice_phase (k c x : Nat) (fs : List (Nat × Nat)) : (s.classNotice k c x fs).phase = s.phase := (rfl)
@[simp] theorem State.classNotice_resetPor (k c x : Nat) (fs : List (Nat × Nat)) : (s.classNotice k c x fs).resetPor = s.resetPor := (rfl)
@[simp] theorem State.classNotice_porLow (k c x : Nat) (fs : List (Nat × Nat)) : (s.classNotice k c x fs).porLow = s.porLow := (rfl)
@[simp] theorem State.classNotice_blkLow (k c x : Nat) (fs : List (Nat × Nat)) : (s.classNotice k c x fs).blkLow = s.blkLow := (rfl)
@[simp] theorem State.classNotice_lostAtReset (k c x : Nat) (fs : List (Nat × Nat)) : (s.classNotice k c x fs).lostAtReset = s.lostAtReset := (rfl)
@[simp] theorem State.classNotice_trefKhz (k c x : Nat) (fs : List (Nat × Nat)) : (s.classNotice k c x fs).trefKhz = s.trefKhz := (rfl)
@[simp] theorem State.classNotice_fnclkSel (k c x : Nat) (fs : List (Nat × Nat)) : (s.classNotice k c x fs).fnclkSel = s.fnclkSel := (rfl)
@[simp] theorem State.classNotice_testMode (k c x : Nat) (fs : List (Nat × Nat)) : (s.classNotice k c x fs).testMode = s.testMode := (rfl)
@[simp] theorem State.classNotice_mbistBusy (k c x : Nat) (fs : List (Nat × Nat)) : (s.classNotice k c x fs).mbistBusy = s.mbistBusy := (rfl)
@[simp] theorem State.classNotice_mbistDone (k c x : Nat) (fs : List (Nat × Nat)) : (s.classNotice k c x fs).mbistDone = s.mbistDone := (rfl)
@[simp] theorem State.classNotice_mbistFail (k c x : Nat) (fs : List (Nat × Nat)) : (s.classNotice k c x fs).mbistFail = s.mbistFail := (rfl)
@[simp] theorem State.classNotice_tref (k c x : Nat) (fs : List (Nat × Nat)) : (s.classNotice k c x fs).tref = s.tref := (rfl)
@[simp] theorem State.classNotice_freeN (k c x : Nat) (fs : List (Nat × Nat)) : (s.classNotice k c x fs).freeN = s.freeN := (rfl)
@[simp] theorem State.classNotice_dict (k c x : Nat) (fs : List (Nat × Nat)) : (s.classNotice k c x fs).dict = s.dict := (rfl)
@[simp] theorem State.classNotice_mem (k c x : Nat) (fs : List (Nat × Nat)) : (s.classNotice k c x fs).mem = s.mem := (rfl)
@[simp] theorem State.classNotice_modes (k c x : Nat) (fs : List (Nat × Nat)) : (s.classNotice k c x fs).modes = s.modes := (rfl)
@[simp] theorem State.classNotice_raster (k c x : Nat) (fs : List (Nat × Nat)) : (s.classNotice k c x fs).raster = s.raster := (rfl)
@[simp] theorem State.classNotice_orbit (k c x : Nat) (fs : List (Nat × Nat)) : (s.classNotice k c x fs).orbit = s.orbit := (rfl)
@[simp] theorem State.classNotice_streams (k c x : Nat) (fs : List (Nat × Nat)) : (s.classNotice k c x fs).streams = s.streams := (rfl)
@[simp] theorem State.classNotice_link (k c x : Nat) (fs : List (Nat × Nat)) : (s.classNotice k c x fs).link = s.link := (rfl)
@[simp] theorem State.classNotice_cmds (k c x : Nat) (fs : List (Nat × Nat)) : (s.classNotice k c x fs).cmds = s.cmds := (rfl)
@[simp] theorem State.classNotice_stampNext (k c x : Nat) (fs : List (Nat × Nat)) : (s.classNotice k c x fs).stampNext = s.stampNext := (rfl)
@[simp] theorem State.classNotice_seqWritten (k c x : Nat) (fs : List (Nat × Nat)) : (s.classNotice k c x fs).seqWritten = s.seqWritten := (rfl)
@[simp] theorem State.classNotice_deferred (k c x : Nat) (fs : List (Nat × Nat)) : (s.classNotice k c x fs).deferred = s.deferred := (rfl)
@[simp] theorem State.classNotice_deferNew (k c x : Nat) (fs : List (Nat × Nat)) : (s.classNotice k c x fs).deferNew = s.deferNew := (rfl)
@[simp] theorem State.classNotice_versions (k c x : Nat) (fs : List (Nat × Nat)) : (s.classNotice k c x fs).versions = s.versions := (rfl)
@[simp] theorem State.classNotice_nextVer (k c x : Nat) (fs : List (Nat × Nat)) : (s.classNotice k c x fs).nextVer = s.nextVer := (rfl)
@[simp] theorem State.classNotice_hostCws (k c x : Nat) (fs : List (Nat × Nat)) : (s.classNotice k c x fs).hostCws = s.hostCws := (rfl)
@[simp] theorem State.classNotice_origins (k c x : Nat) (fs : List (Nat × Nat)) : (s.classNotice k c x fs).origins = s.origins := (rfl)
@[simp] theorem State.classNotice_sbs (k c x : Nat) (fs : List (Nat × Nat)) : (s.classNotice k c x fs).sbs = s.sbs := (rfl)
@[simp] theorem State.classNotice_allocReqs (k c x : Nat) (fs : List (Nat × Nat)) : (s.classNotice k c x fs).allocReqs = s.allocReqs := (rfl)
@[simp] theorem State.classNotice_walking (k c x : Nat) (fs : List (Nat × Nat)) : (s.classNotice k c x fs).walking = s.walking := (rfl)
@[simp] theorem State.classNotice_running (k c x : Nat) (fs : List (Nat × Nat)) : (s.classNotice k c x fs).running = s.running := (rfl)
@[simp] theorem State.classNotice_interimBlocks (k c x : Nat) (fs : List (Nat × Nat)) : (s.classNotice k c x fs).interimBlocks = s.interimBlocks := (rfl)
@[simp] theorem State.classNotice_zeroFrom (k c x : Nat) (fs : List (Nat × Nat)) : (s.classNotice k c x fs).zeroFrom = s.zeroFrom := (rfl)
@[simp] theorem State.classNotice_stallFrom (k c x : Nat) (fs : List (Nat × Nat)) : (s.classNotice k c x fs).stallFrom = s.stallFrom := (rfl)
@[simp] theorem State.classNotice_lostDies (k c x : Nat) (fs : List (Nat × Nat)) : (s.classNotice k c x fs).lostDies = s.lostDies := (rfl)
@[simp] theorem State.classNotice_tokens (k c x : Nat) (fs : List (Nat × Nat)) : (s.classNotice k c x fs).tokens = s.tokens := (rfl)
@[simp] theorem State.classNotice_blockLocks (k c x : Nat) (fs : List (Nat × Nat)) : (s.classNotice k c x fs).blockLocks = s.blockLocks := (rfl)
@[simp] theorem State.classNotice_pins (k c x : Nat) (fs : List (Nat × Nat)) : (s.classNotice k c x fs).pins = s.pins := (rfl)
@[simp] theorem State.classNotice_ops (k c x : Nat) (fs : List (Nat × Nat)) : (s.classNotice k c x fs).ops = s.ops := (rfl)
@[simp] theorem State.classNotice_nextOp (k c x : Nat) (fs : List (Nat × Nat)) : (s.classNotice k c x fs).nextOp = s.nextOp := (rfl)
@[simp] theorem State.classNotice_jobs (k c x : Nat) (fs : List (Nat × Nat)) : (s.classNotice k c x fs).jobs = s.jobs := (rfl)
@[simp] theorem State.classNotice_nextJob (k c x : Nat) (fs : List (Nat × Nat)) : (s.classNotice k c x fs).nextJob = s.nextJob := (rfl)
@[simp] theorem State.classNotice_rebuilds (k c x : Nat) (fs : List (Nat × Nat)) : (s.classNotice k c x fs).rebuilds = s.rebuilds := (rfl)
@[simp] theorem State.classNotice_comet (k c x : Nat) (fs : List (Nat × Nat)) : (s.classNotice k c x fs).comet = s.comet := (rfl)
@[simp] theorem State.classNotice_cometHeld (k c x : Nat) (fs : List (Nat × Nat)) : (s.classNotice k c x fs).cometHeld = s.cometHeld := (rfl)
@[simp] theorem State.classNotice_slotsUsed (k c x : Nat) (fs : List (Nat × Nat)) : (s.classNotice k c x fs).slotsUsed = s.slotsUsed := (rfl)
@[simp] theorem State.classNotice_slcOkOnce (k c x : Nat) (fs : List (Nat × Nat)) : (s.classNotice k c x fs).slcOkOnce = s.slcOkOnce := (rfl)
@[simp] theorem State.classNotice_codes (k c x : Nat) (fs : List (Nat × Nat)) : (s.classNotice k c x fs).codes = s.codes := (rfl)
@[simp] theorem State.classNotice_codeErr (k c x : Nat) (fs : List (Nat × Nat)) : (s.classNotice k c x fs).codeErr = s.codeErr := (rfl)
@[simp] theorem State.classNotice_cal (k c x : Nat) (fs : List (Nat × Nat)) : (s.classNotice k c x fs).cal = s.cal := (rfl)
@[simp] theorem State.classNotice_calLast (k c x : Nat) (fs : List (Nat × Nat)) : (s.classNotice k c x fs).calLast = s.calLast := (rfl)
@[simp] theorem State.classNotice_calSnapFrom (k c x : Nat) (fs : List (Nat × Nat)) : (s.classNotice k c x fs).calSnapFrom = s.calSnapFrom := (rfl)
@[simp] theorem State.classNotice_prot (k c x : Nat) (fs : List (Nat × Nat)) : (s.classNotice k c x fs).prot = s.prot := (rfl)
@[simp] theorem State.classNotice_chans (k c x : Nat) (fs : List (Nat × Nat)) : (s.classNotice k c x fs).chans = s.chans := (rfl)
@[simp] theorem State.classNotice_dies (k c x : Nat) (fs : List (Nat × Nat)) : (s.classNotice k c x fs).dies = s.dies := (rfl)
@[simp] theorem State.classNotice_clusters (k c x : Nat) (fs : List (Nat × Nat)) : (s.classNotice k c x fs).clusters = s.clusters := (rfl)
@[simp] theorem State.classNotice_ctxs (k c x : Nat) (fs : List (Nat × Nat)) : (s.classNotice k c x fs).ctxs = s.ctxs := (rfl)
@[simp] theorem State.classNotice_activation (k c x : Nat) (fs : List (Nat × Nat)) : (s.classNotice k c x fs).activation = s.activation := (rfl)
@[simp] theorem State.classNotice_pools (k c x : Nat) (fs : List (Nat × Nat)) : (s.classNotice k c x fs).pools = s.pools := (rfl)
@[simp] theorem State.classNotice_offers (k c x : Nat) (fs : List (Nat × Nat)) : (s.classNotice k c x fs).offers = s.offers := (rfl)
@[simp] theorem State.classNotice_nqs (k c x : Nat) (fs : List (Nat × Nat)) : (s.classNotice k c x fs).nqs = s.nqs := (rfl)
@[simp] theorem State.classNotice_ce (k c x : Nat) (fs : List (Nat × Nat)) : (s.classNotice k c x fs).ce = s.ce := (rfl)
@[simp] theorem State.classNotice_ceSlots (k c x : Nat) (fs : List (Nat × Nat)) : (s.classNotice k c x fs).ceSlots = s.ceSlots := (rfl)
@[simp] theorem State.classNotice_ports (k c x : Nat) (fs : List (Nat × Nat)) : (s.classNotice k c x fs).ports = s.ports := (rfl)
@[simp] theorem State.classNotice_ints (k c x : Nat) (fs : List (Nat × Nat)) : (s.classNotice k c x fs).ints = s.ints := (rfl)
@[simp] theorem State.classNotice_procs (k c x : Nat) (fs : List (Nat × Nat)) : (s.classNotice k c x fs).procs = s.procs := (rfl)
@[simp] theorem State.classNotice_xfers (k c x : Nat) (fs : List (Nat × Nat)) : (s.classNotice k c x fs).xfers = s.xfers := (rfl)
@[simp] theorem State.classNotice_cfg (k c x : Nat) (fs : List (Nat × Nat)) : (s.classNotice k c x fs).cfg = s.cfg := (rfl)
@[simp] theorem State.classNotice_fn (k c x : Nat) (fs : List (Nat × Nat)) : (s.classNotice k c x fs).fn = s.fn := (rfl)
@[simp] theorem State.classNotice_frozen (k c x : Nat) (fs : List (Nat × Nat)) : (s.classNotice k c x fs).frozen = s.frozen := (rfl)
@[simp] theorem State.classNotice_tlog (k c x : Nat) (fs : List (Nat × Nat)) : (s.classNotice k c x fs).tlog = s.tlog := (rfl)

/-! `unitNotice` changes only: offered. -/

@[simp] theorem State.unitNotice_pending (k : Nat) (u : Option Nat) (fs : List (Nat × Nat)) (h : Bool) (cmd : Option Nat) : (s.unitNotice k u fs h cmd).pending = s.pending := by cases u <;> rfl
@[simp] theorem State.unitNotice_build (k : Nat) (u : Option Nat) (fs : List (Nat × Nat)) (h : Bool) (cmd : Option Nat) : (s.unitNotice k u fs h cmd).build = s.build := by cases u <;> rfl
@[simp] theorem State.unitNotice_phase (k : Nat) (u : Option Nat) (fs : List (Nat × Nat)) (h : Bool) (cmd : Option Nat) : (s.unitNotice k u fs h cmd).phase = s.phase := by cases u <;> rfl
@[simp] theorem State.unitNotice_resetPor (k : Nat) (u : Option Nat) (fs : List (Nat × Nat)) (h : Bool) (cmd : Option Nat) : (s.unitNotice k u fs h cmd).resetPor = s.resetPor := by cases u <;> rfl
@[simp] theorem State.unitNotice_porLow (k : Nat) (u : Option Nat) (fs : List (Nat × Nat)) (h : Bool) (cmd : Option Nat) : (s.unitNotice k u fs h cmd).porLow = s.porLow := by cases u <;> rfl
@[simp] theorem State.unitNotice_blkLow (k : Nat) (u : Option Nat) (fs : List (Nat × Nat)) (h : Bool) (cmd : Option Nat) : (s.unitNotice k u fs h cmd).blkLow = s.blkLow := by cases u <;> rfl
@[simp] theorem State.unitNotice_lostAtReset (k : Nat) (u : Option Nat) (fs : List (Nat × Nat)) (h : Bool) (cmd : Option Nat) : (s.unitNotice k u fs h cmd).lostAtReset = s.lostAtReset := by cases u <;> rfl
@[simp] theorem State.unitNotice_trefKhz (k : Nat) (u : Option Nat) (fs : List (Nat × Nat)) (h : Bool) (cmd : Option Nat) : (s.unitNotice k u fs h cmd).trefKhz = s.trefKhz := by cases u <;> rfl
@[simp] theorem State.unitNotice_fnclkSel (k : Nat) (u : Option Nat) (fs : List (Nat × Nat)) (h : Bool) (cmd : Option Nat) : (s.unitNotice k u fs h cmd).fnclkSel = s.fnclkSel := by cases u <;> rfl
@[simp] theorem State.unitNotice_testMode (k : Nat) (u : Option Nat) (fs : List (Nat × Nat)) (h : Bool) (cmd : Option Nat) : (s.unitNotice k u fs h cmd).testMode = s.testMode := by cases u <;> rfl
@[simp] theorem State.unitNotice_mbistBusy (k : Nat) (u : Option Nat) (fs : List (Nat × Nat)) (h : Bool) (cmd : Option Nat) : (s.unitNotice k u fs h cmd).mbistBusy = s.mbistBusy := by cases u <;> rfl
@[simp] theorem State.unitNotice_mbistDone (k : Nat) (u : Option Nat) (fs : List (Nat × Nat)) (h : Bool) (cmd : Option Nat) : (s.unitNotice k u fs h cmd).mbistDone = s.mbistDone := by cases u <;> rfl
@[simp] theorem State.unitNotice_mbistFail (k : Nat) (u : Option Nat) (fs : List (Nat × Nat)) (h : Bool) (cmd : Option Nat) : (s.unitNotice k u fs h cmd).mbistFail = s.mbistFail := by cases u <;> rfl
@[simp] theorem State.unitNotice_tref (k : Nat) (u : Option Nat) (fs : List (Nat × Nat)) (h : Bool) (cmd : Option Nat) : (s.unitNotice k u fs h cmd).tref = s.tref := by cases u <;> rfl
@[simp] theorem State.unitNotice_freeN (k : Nat) (u : Option Nat) (fs : List (Nat × Nat)) (h : Bool) (cmd : Option Nat) : (s.unitNotice k u fs h cmd).freeN = s.freeN := by cases u <;> rfl
@[simp] theorem State.unitNotice_dict (k : Nat) (u : Option Nat) (fs : List (Nat × Nat)) (h : Bool) (cmd : Option Nat) : (s.unitNotice k u fs h cmd).dict = s.dict := by cases u <;> rfl
@[simp] theorem State.unitNotice_mem (k : Nat) (u : Option Nat) (fs : List (Nat × Nat)) (h : Bool) (cmd : Option Nat) : (s.unitNotice k u fs h cmd).mem = s.mem := by cases u <;> rfl
@[simp] theorem State.unitNotice_modes (k : Nat) (u : Option Nat) (fs : List (Nat × Nat)) (h : Bool) (cmd : Option Nat) : (s.unitNotice k u fs h cmd).modes = s.modes := by cases u <;> rfl
@[simp] theorem State.unitNotice_raster (k : Nat) (u : Option Nat) (fs : List (Nat × Nat)) (h : Bool) (cmd : Option Nat) : (s.unitNotice k u fs h cmd).raster = s.raster := by cases u <;> rfl
@[simp] theorem State.unitNotice_orbit (k : Nat) (u : Option Nat) (fs : List (Nat × Nat)) (h : Bool) (cmd : Option Nat) : (s.unitNotice k u fs h cmd).orbit = s.orbit := by cases u <;> rfl
@[simp] theorem State.unitNotice_streams (k : Nat) (u : Option Nat) (fs : List (Nat × Nat)) (h : Bool) (cmd : Option Nat) : (s.unitNotice k u fs h cmd).streams = s.streams := by cases u <;> rfl
@[simp] theorem State.unitNotice_link (k : Nat) (u : Option Nat) (fs : List (Nat × Nat)) (h : Bool) (cmd : Option Nat) : (s.unitNotice k u fs h cmd).link = s.link := by cases u <;> rfl
@[simp] theorem State.unitNotice_cmds (k : Nat) (u : Option Nat) (fs : List (Nat × Nat)) (h : Bool) (cmd : Option Nat) : (s.unitNotice k u fs h cmd).cmds = s.cmds := by cases u <;> rfl
@[simp] theorem State.unitNotice_stampNext (k : Nat) (u : Option Nat) (fs : List (Nat × Nat)) (h : Bool) (cmd : Option Nat) : (s.unitNotice k u fs h cmd).stampNext = s.stampNext := by cases u <;> rfl
@[simp] theorem State.unitNotice_seqWritten (k : Nat) (u : Option Nat) (fs : List (Nat × Nat)) (h : Bool) (cmd : Option Nat) : (s.unitNotice k u fs h cmd).seqWritten = s.seqWritten := by cases u <;> rfl
@[simp] theorem State.unitNotice_deferred (k : Nat) (u : Option Nat) (fs : List (Nat × Nat)) (h : Bool) (cmd : Option Nat) : (s.unitNotice k u fs h cmd).deferred = s.deferred := by cases u <;> rfl
@[simp] theorem State.unitNotice_deferNew (k : Nat) (u : Option Nat) (fs : List (Nat × Nat)) (h : Bool) (cmd : Option Nat) : (s.unitNotice k u fs h cmd).deferNew = s.deferNew := by cases u <;> rfl
@[simp] theorem State.unitNotice_versions (k : Nat) (u : Option Nat) (fs : List (Nat × Nat)) (h : Bool) (cmd : Option Nat) : (s.unitNotice k u fs h cmd).versions = s.versions := by cases u <;> rfl
@[simp] theorem State.unitNotice_nextVer (k : Nat) (u : Option Nat) (fs : List (Nat × Nat)) (h : Bool) (cmd : Option Nat) : (s.unitNotice k u fs h cmd).nextVer = s.nextVer := by cases u <;> rfl
@[simp] theorem State.unitNotice_hostCws (k : Nat) (u : Option Nat) (fs : List (Nat × Nat)) (h : Bool) (cmd : Option Nat) : (s.unitNotice k u fs h cmd).hostCws = s.hostCws := by cases u <;> rfl
@[simp] theorem State.unitNotice_origins (k : Nat) (u : Option Nat) (fs : List (Nat × Nat)) (h : Bool) (cmd : Option Nat) : (s.unitNotice k u fs h cmd).origins = s.origins := by cases u <;> rfl
@[simp] theorem State.unitNotice_sbs (k : Nat) (u : Option Nat) (fs : List (Nat × Nat)) (h : Bool) (cmd : Option Nat) : (s.unitNotice k u fs h cmd).sbs = s.sbs := by cases u <;> rfl
@[simp] theorem State.unitNotice_allocReqs (k : Nat) (u : Option Nat) (fs : List (Nat × Nat)) (h : Bool) (cmd : Option Nat) : (s.unitNotice k u fs h cmd).allocReqs = s.allocReqs := by cases u <;> rfl
@[simp] theorem State.unitNotice_walking (k : Nat) (u : Option Nat) (fs : List (Nat × Nat)) (h : Bool) (cmd : Option Nat) : (s.unitNotice k u fs h cmd).walking = s.walking := by cases u <;> rfl
@[simp] theorem State.unitNotice_running (k : Nat) (u : Option Nat) (fs : List (Nat × Nat)) (h : Bool) (cmd : Option Nat) : (s.unitNotice k u fs h cmd).running = s.running := by cases u <;> rfl
@[simp] theorem State.unitNotice_interimBlocks (k : Nat) (u : Option Nat) (fs : List (Nat × Nat)) (h : Bool) (cmd : Option Nat) : (s.unitNotice k u fs h cmd).interimBlocks = s.interimBlocks := by cases u <;> rfl
@[simp] theorem State.unitNotice_zeroFrom (k : Nat) (u : Option Nat) (fs : List (Nat × Nat)) (h : Bool) (cmd : Option Nat) : (s.unitNotice k u fs h cmd).zeroFrom = s.zeroFrom := by cases u <;> rfl
@[simp] theorem State.unitNotice_stallFrom (k : Nat) (u : Option Nat) (fs : List (Nat × Nat)) (h : Bool) (cmd : Option Nat) : (s.unitNotice k u fs h cmd).stallFrom = s.stallFrom := by cases u <;> rfl
@[simp] theorem State.unitNotice_lostDies (k : Nat) (u : Option Nat) (fs : List (Nat × Nat)) (h : Bool) (cmd : Option Nat) : (s.unitNotice k u fs h cmd).lostDies = s.lostDies := by cases u <;> rfl
@[simp] theorem State.unitNotice_tokens (k : Nat) (u : Option Nat) (fs : List (Nat × Nat)) (h : Bool) (cmd : Option Nat) : (s.unitNotice k u fs h cmd).tokens = s.tokens := by cases u <;> rfl
@[simp] theorem State.unitNotice_blockLocks (k : Nat) (u : Option Nat) (fs : List (Nat × Nat)) (h : Bool) (cmd : Option Nat) : (s.unitNotice k u fs h cmd).blockLocks = s.blockLocks := by cases u <;> rfl
@[simp] theorem State.unitNotice_pins (k : Nat) (u : Option Nat) (fs : List (Nat × Nat)) (h : Bool) (cmd : Option Nat) : (s.unitNotice k u fs h cmd).pins = s.pins := by cases u <;> rfl
@[simp] theorem State.unitNotice_ops (k : Nat) (u : Option Nat) (fs : List (Nat × Nat)) (h : Bool) (cmd : Option Nat) : (s.unitNotice k u fs h cmd).ops = s.ops := by cases u <;> rfl
@[simp] theorem State.unitNotice_nextOp (k : Nat) (u : Option Nat) (fs : List (Nat × Nat)) (h : Bool) (cmd : Option Nat) : (s.unitNotice k u fs h cmd).nextOp = s.nextOp := by cases u <;> rfl
@[simp] theorem State.unitNotice_jobs (k : Nat) (u : Option Nat) (fs : List (Nat × Nat)) (h : Bool) (cmd : Option Nat) : (s.unitNotice k u fs h cmd).jobs = s.jobs := by cases u <;> rfl
@[simp] theorem State.unitNotice_nextJob (k : Nat) (u : Option Nat) (fs : List (Nat × Nat)) (h : Bool) (cmd : Option Nat) : (s.unitNotice k u fs h cmd).nextJob = s.nextJob := by cases u <;> rfl
@[simp] theorem State.unitNotice_rebuilds (k : Nat) (u : Option Nat) (fs : List (Nat × Nat)) (h : Bool) (cmd : Option Nat) : (s.unitNotice k u fs h cmd).rebuilds = s.rebuilds := by cases u <;> rfl
@[simp] theorem State.unitNotice_comet (k : Nat) (u : Option Nat) (fs : List (Nat × Nat)) (h : Bool) (cmd : Option Nat) : (s.unitNotice k u fs h cmd).comet = s.comet := by cases u <;> rfl
@[simp] theorem State.unitNotice_cometHeld (k : Nat) (u : Option Nat) (fs : List (Nat × Nat)) (h : Bool) (cmd : Option Nat) : (s.unitNotice k u fs h cmd).cometHeld = s.cometHeld := by cases u <;> rfl
@[simp] theorem State.unitNotice_slotsUsed (k : Nat) (u : Option Nat) (fs : List (Nat × Nat)) (h : Bool) (cmd : Option Nat) : (s.unitNotice k u fs h cmd).slotsUsed = s.slotsUsed := by cases u <;> rfl
@[simp] theorem State.unitNotice_slcOkOnce (k : Nat) (u : Option Nat) (fs : List (Nat × Nat)) (h : Bool) (cmd : Option Nat) : (s.unitNotice k u fs h cmd).slcOkOnce = s.slcOkOnce := by cases u <;> rfl
@[simp] theorem State.unitNotice_codes (k : Nat) (u : Option Nat) (fs : List (Nat × Nat)) (h : Bool) (cmd : Option Nat) : (s.unitNotice k u fs h cmd).codes = s.codes := by cases u <;> rfl
@[simp] theorem State.unitNotice_codeErr (k : Nat) (u : Option Nat) (fs : List (Nat × Nat)) (h : Bool) (cmd : Option Nat) : (s.unitNotice k u fs h cmd).codeErr = s.codeErr := by cases u <;> rfl
@[simp] theorem State.unitNotice_cal (k : Nat) (u : Option Nat) (fs : List (Nat × Nat)) (h : Bool) (cmd : Option Nat) : (s.unitNotice k u fs h cmd).cal = s.cal := by cases u <;> rfl
@[simp] theorem State.unitNotice_calLast (k : Nat) (u : Option Nat) (fs : List (Nat × Nat)) (h : Bool) (cmd : Option Nat) : (s.unitNotice k u fs h cmd).calLast = s.calLast := by cases u <;> rfl
@[simp] theorem State.unitNotice_calSnapFrom (k : Nat) (u : Option Nat) (fs : List (Nat × Nat)) (h : Bool) (cmd : Option Nat) : (s.unitNotice k u fs h cmd).calSnapFrom = s.calSnapFrom := by cases u <;> rfl
@[simp] theorem State.unitNotice_prot (k : Nat) (u : Option Nat) (fs : List (Nat × Nat)) (h : Bool) (cmd : Option Nat) : (s.unitNotice k u fs h cmd).prot = s.prot := by cases u <;> rfl
@[simp] theorem State.unitNotice_chans (k : Nat) (u : Option Nat) (fs : List (Nat × Nat)) (h : Bool) (cmd : Option Nat) : (s.unitNotice k u fs h cmd).chans = s.chans := by cases u <;> rfl
@[simp] theorem State.unitNotice_dies (k : Nat) (u : Option Nat) (fs : List (Nat × Nat)) (h : Bool) (cmd : Option Nat) : (s.unitNotice k u fs h cmd).dies = s.dies := by cases u <;> rfl
@[simp] theorem State.unitNotice_clusters (k : Nat) (u : Option Nat) (fs : List (Nat × Nat)) (h : Bool) (cmd : Option Nat) : (s.unitNotice k u fs h cmd).clusters = s.clusters := by cases u <;> rfl
@[simp] theorem State.unitNotice_ctxs (k : Nat) (u : Option Nat) (fs : List (Nat × Nat)) (h : Bool) (cmd : Option Nat) : (s.unitNotice k u fs h cmd).ctxs = s.ctxs := by cases u <;> rfl
@[simp] theorem State.unitNotice_activation (k : Nat) (u : Option Nat) (fs : List (Nat × Nat)) (h : Bool) (cmd : Option Nat) : (s.unitNotice k u fs h cmd).activation = s.activation := by cases u <;> rfl
@[simp] theorem State.unitNotice_pools (k : Nat) (u : Option Nat) (fs : List (Nat × Nat)) (h : Bool) (cmd : Option Nat) : (s.unitNotice k u fs h cmd).pools = s.pools := by cases u <;> rfl
@[simp] theorem State.unitNotice_offers (k : Nat) (u : Option Nat) (fs : List (Nat × Nat)) (h : Bool) (cmd : Option Nat) : (s.unitNotice k u fs h cmd).offers = s.offers := by cases u <;> rfl
@[simp] theorem State.unitNotice_nqs (k : Nat) (u : Option Nat) (fs : List (Nat × Nat)) (h : Bool) (cmd : Option Nat) : (s.unitNotice k u fs h cmd).nqs = s.nqs := by cases u <;> rfl
@[simp] theorem State.unitNotice_ce (k : Nat) (u : Option Nat) (fs : List (Nat × Nat)) (h : Bool) (cmd : Option Nat) : (s.unitNotice k u fs h cmd).ce = s.ce := by cases u <;> rfl
@[simp] theorem State.unitNotice_ceSlots (k : Nat) (u : Option Nat) (fs : List (Nat × Nat)) (h : Bool) (cmd : Option Nat) : (s.unitNotice k u fs h cmd).ceSlots = s.ceSlots := by cases u <;> rfl
@[simp] theorem State.unitNotice_ports (k : Nat) (u : Option Nat) (fs : List (Nat × Nat)) (h : Bool) (cmd : Option Nat) : (s.unitNotice k u fs h cmd).ports = s.ports := by cases u <;> rfl
@[simp] theorem State.unitNotice_ints (k : Nat) (u : Option Nat) (fs : List (Nat × Nat)) (h : Bool) (cmd : Option Nat) : (s.unitNotice k u fs h cmd).ints = s.ints := by cases u <;> rfl
@[simp] theorem State.unitNotice_procs (k : Nat) (u : Option Nat) (fs : List (Nat × Nat)) (h : Bool) (cmd : Option Nat) : (s.unitNotice k u fs h cmd).procs = s.procs := by cases u <;> rfl
@[simp] theorem State.unitNotice_xfers (k : Nat) (u : Option Nat) (fs : List (Nat × Nat)) (h : Bool) (cmd : Option Nat) : (s.unitNotice k u fs h cmd).xfers = s.xfers := by cases u <;> rfl
@[simp] theorem State.unitNotice_cfg (k : Nat) (u : Option Nat) (fs : List (Nat × Nat)) (h : Bool) (cmd : Option Nat) : (s.unitNotice k u fs h cmd).cfg = s.cfg := by cases u <;> rfl
@[simp] theorem State.unitNotice_fn (k : Nat) (u : Option Nat) (fs : List (Nat × Nat)) (h : Bool) (cmd : Option Nat) : (s.unitNotice k u fs h cmd).fn = s.fn := by cases u <;> rfl
@[simp] theorem State.unitNotice_frozen (k : Nat) (u : Option Nat) (fs : List (Nat × Nat)) (h : Bool) (cmd : Option Nat) : (s.unitNotice k u fs h cmd).frozen = s.frozen := by cases u <;> rfl
@[simp] theorem State.unitNotice_tlog (k : Nat) (u : Option Nat) (fs : List (Nat × Nat)) (h : Bool) (cmd : Option Nat) : (s.unitNotice k u fs h cmd).tlog = s.tlog := by cases u <;> rfl

/-! `memWrite` changes only: mem. -/

@[simp] theorem State.memWrite_pending (a : Nat) (bs : List Byte) : (s.memWrite a bs).pending = s.pending := (rfl)
@[simp] theorem State.memWrite_build (a : Nat) (bs : List Byte) : (s.memWrite a bs).build = s.build := (rfl)
@[simp] theorem State.memWrite_phase (a : Nat) (bs : List Byte) : (s.memWrite a bs).phase = s.phase := (rfl)
@[simp] theorem State.memWrite_resetPor (a : Nat) (bs : List Byte) : (s.memWrite a bs).resetPor = s.resetPor := (rfl)
@[simp] theorem State.memWrite_porLow (a : Nat) (bs : List Byte) : (s.memWrite a bs).porLow = s.porLow := (rfl)
@[simp] theorem State.memWrite_blkLow (a : Nat) (bs : List Byte) : (s.memWrite a bs).blkLow = s.blkLow := (rfl)
@[simp] theorem State.memWrite_lostAtReset (a : Nat) (bs : List Byte) : (s.memWrite a bs).lostAtReset = s.lostAtReset := (rfl)
@[simp] theorem State.memWrite_trefKhz (a : Nat) (bs : List Byte) : (s.memWrite a bs).trefKhz = s.trefKhz := (rfl)
@[simp] theorem State.memWrite_fnclkSel (a : Nat) (bs : List Byte) : (s.memWrite a bs).fnclkSel = s.fnclkSel := (rfl)
@[simp] theorem State.memWrite_testMode (a : Nat) (bs : List Byte) : (s.memWrite a bs).testMode = s.testMode := (rfl)
@[simp] theorem State.memWrite_mbistBusy (a : Nat) (bs : List Byte) : (s.memWrite a bs).mbistBusy = s.mbistBusy := (rfl)
@[simp] theorem State.memWrite_mbistDone (a : Nat) (bs : List Byte) : (s.memWrite a bs).mbistDone = s.mbistDone := (rfl)
@[simp] theorem State.memWrite_mbistFail (a : Nat) (bs : List Byte) : (s.memWrite a bs).mbistFail = s.mbistFail := (rfl)
@[simp] theorem State.memWrite_tref (a : Nat) (bs : List Byte) : (s.memWrite a bs).tref = s.tref := (rfl)
@[simp] theorem State.memWrite_freeN (a : Nat) (bs : List Byte) : (s.memWrite a bs).freeN = s.freeN := (rfl)
@[simp] theorem State.memWrite_dict (a : Nat) (bs : List Byte) : (s.memWrite a bs).dict = s.dict := (rfl)
@[simp] theorem State.memWrite_modes (a : Nat) (bs : List Byte) : (s.memWrite a bs).modes = s.modes := (rfl)
@[simp] theorem State.memWrite_raster (a : Nat) (bs : List Byte) : (s.memWrite a bs).raster = s.raster := (rfl)
@[simp] theorem State.memWrite_orbit (a : Nat) (bs : List Byte) : (s.memWrite a bs).orbit = s.orbit := (rfl)
@[simp] theorem State.memWrite_streams (a : Nat) (bs : List Byte) : (s.memWrite a bs).streams = s.streams := (rfl)
@[simp] theorem State.memWrite_link (a : Nat) (bs : List Byte) : (s.memWrite a bs).link = s.link := (rfl)
@[simp] theorem State.memWrite_cmds (a : Nat) (bs : List Byte) : (s.memWrite a bs).cmds = s.cmds := (rfl)
@[simp] theorem State.memWrite_stampNext (a : Nat) (bs : List Byte) : (s.memWrite a bs).stampNext = s.stampNext := (rfl)
@[simp] theorem State.memWrite_seqWritten (a : Nat) (bs : List Byte) : (s.memWrite a bs).seqWritten = s.seqWritten := (rfl)
@[simp] theorem State.memWrite_deferred (a : Nat) (bs : List Byte) : (s.memWrite a bs).deferred = s.deferred := (rfl)
@[simp] theorem State.memWrite_deferNew (a : Nat) (bs : List Byte) : (s.memWrite a bs).deferNew = s.deferNew := (rfl)
@[simp] theorem State.memWrite_versions (a : Nat) (bs : List Byte) : (s.memWrite a bs).versions = s.versions := (rfl)
@[simp] theorem State.memWrite_nextVer (a : Nat) (bs : List Byte) : (s.memWrite a bs).nextVer = s.nextVer := (rfl)
@[simp] theorem State.memWrite_hostCws (a : Nat) (bs : List Byte) : (s.memWrite a bs).hostCws = s.hostCws := (rfl)
@[simp] theorem State.memWrite_origins (a : Nat) (bs : List Byte) : (s.memWrite a bs).origins = s.origins := (rfl)
@[simp] theorem State.memWrite_sbs (a : Nat) (bs : List Byte) : (s.memWrite a bs).sbs = s.sbs := (rfl)
@[simp] theorem State.memWrite_allocReqs (a : Nat) (bs : List Byte) : (s.memWrite a bs).allocReqs = s.allocReqs := (rfl)
@[simp] theorem State.memWrite_walking (a : Nat) (bs : List Byte) : (s.memWrite a bs).walking = s.walking := (rfl)
@[simp] theorem State.memWrite_running (a : Nat) (bs : List Byte) : (s.memWrite a bs).running = s.running := (rfl)
@[simp] theorem State.memWrite_interimBlocks (a : Nat) (bs : List Byte) : (s.memWrite a bs).interimBlocks = s.interimBlocks := (rfl)
@[simp] theorem State.memWrite_zeroFrom (a : Nat) (bs : List Byte) : (s.memWrite a bs).zeroFrom = s.zeroFrom := (rfl)
@[simp] theorem State.memWrite_stallFrom (a : Nat) (bs : List Byte) : (s.memWrite a bs).stallFrom = s.stallFrom := (rfl)
@[simp] theorem State.memWrite_lostDies (a : Nat) (bs : List Byte) : (s.memWrite a bs).lostDies = s.lostDies := (rfl)
@[simp] theorem State.memWrite_tokens (a : Nat) (bs : List Byte) : (s.memWrite a bs).tokens = s.tokens := (rfl)
@[simp] theorem State.memWrite_blockLocks (a : Nat) (bs : List Byte) : (s.memWrite a bs).blockLocks = s.blockLocks := (rfl)
@[simp] theorem State.memWrite_pins (a : Nat) (bs : List Byte) : (s.memWrite a bs).pins = s.pins := (rfl)
@[simp] theorem State.memWrite_ops (a : Nat) (bs : List Byte) : (s.memWrite a bs).ops = s.ops := (rfl)
@[simp] theorem State.memWrite_nextOp (a : Nat) (bs : List Byte) : (s.memWrite a bs).nextOp = s.nextOp := (rfl)
@[simp] theorem State.memWrite_jobs (a : Nat) (bs : List Byte) : (s.memWrite a bs).jobs = s.jobs := (rfl)
@[simp] theorem State.memWrite_nextJob (a : Nat) (bs : List Byte) : (s.memWrite a bs).nextJob = s.nextJob := (rfl)
@[simp] theorem State.memWrite_rebuilds (a : Nat) (bs : List Byte) : (s.memWrite a bs).rebuilds = s.rebuilds := (rfl)
@[simp] theorem State.memWrite_comet (a : Nat) (bs : List Byte) : (s.memWrite a bs).comet = s.comet := (rfl)
@[simp] theorem State.memWrite_cometHeld (a : Nat) (bs : List Byte) : (s.memWrite a bs).cometHeld = s.cometHeld := (rfl)
@[simp] theorem State.memWrite_slotsUsed (a : Nat) (bs : List Byte) : (s.memWrite a bs).slotsUsed = s.slotsUsed := (rfl)
@[simp] theorem State.memWrite_slcOkOnce (a : Nat) (bs : List Byte) : (s.memWrite a bs).slcOkOnce = s.slcOkOnce := (rfl)
@[simp] theorem State.memWrite_codes (a : Nat) (bs : List Byte) : (s.memWrite a bs).codes = s.codes := (rfl)
@[simp] theorem State.memWrite_codeErr (a : Nat) (bs : List Byte) : (s.memWrite a bs).codeErr = s.codeErr := (rfl)
@[simp] theorem State.memWrite_cal (a : Nat) (bs : List Byte) : (s.memWrite a bs).cal = s.cal := (rfl)
@[simp] theorem State.memWrite_calLast (a : Nat) (bs : List Byte) : (s.memWrite a bs).calLast = s.calLast := (rfl)
@[simp] theorem State.memWrite_calSnapFrom (a : Nat) (bs : List Byte) : (s.memWrite a bs).calSnapFrom = s.calSnapFrom := (rfl)
@[simp] theorem State.memWrite_prot (a : Nat) (bs : List Byte) : (s.memWrite a bs).prot = s.prot := (rfl)
@[simp] theorem State.memWrite_chans (a : Nat) (bs : List Byte) : (s.memWrite a bs).chans = s.chans := (rfl)
@[simp] theorem State.memWrite_dies (a : Nat) (bs : List Byte) : (s.memWrite a bs).dies = s.dies := (rfl)
@[simp] theorem State.memWrite_clusters (a : Nat) (bs : List Byte) : (s.memWrite a bs).clusters = s.clusters := (rfl)
@[simp] theorem State.memWrite_ctxs (a : Nat) (bs : List Byte) : (s.memWrite a bs).ctxs = s.ctxs := (rfl)
@[simp] theorem State.memWrite_activation (a : Nat) (bs : List Byte) : (s.memWrite a bs).activation = s.activation := (rfl)
@[simp] theorem State.memWrite_pools (a : Nat) (bs : List Byte) : (s.memWrite a bs).pools = s.pools := (rfl)
@[simp] theorem State.memWrite_offered (a : Nat) (bs : List Byte) : (s.memWrite a bs).offered = s.offered := (rfl)
@[simp] theorem State.memWrite_offers (a : Nat) (bs : List Byte) : (s.memWrite a bs).offers = s.offers := (rfl)
@[simp] theorem State.memWrite_nqs (a : Nat) (bs : List Byte) : (s.memWrite a bs).nqs = s.nqs := (rfl)
@[simp] theorem State.memWrite_ce (a : Nat) (bs : List Byte) : (s.memWrite a bs).ce = s.ce := (rfl)
@[simp] theorem State.memWrite_ceSlots (a : Nat) (bs : List Byte) : (s.memWrite a bs).ceSlots = s.ceSlots := (rfl)
@[simp] theorem State.memWrite_ports (a : Nat) (bs : List Byte) : (s.memWrite a bs).ports = s.ports := (rfl)
@[simp] theorem State.memWrite_ints (a : Nat) (bs : List Byte) : (s.memWrite a bs).ints = s.ints := (rfl)
@[simp] theorem State.memWrite_procs (a : Nat) (bs : List Byte) : (s.memWrite a bs).procs = s.procs := (rfl)
@[simp] theorem State.memWrite_xfers (a : Nat) (bs : List Byte) : (s.memWrite a bs).xfers = s.xfers := (rfl)
@[simp] theorem State.memWrite_cfg (a : Nat) (bs : List Byte) : (s.memWrite a bs).cfg = s.cfg := (rfl)
@[simp] theorem State.memWrite_fn (a : Nat) (bs : List Byte) : (s.memWrite a bs).fn = s.fn := (rfl)
@[simp] theorem State.memWrite_frozen (a : Nat) (bs : List Byte) : (s.memWrite a bs).frozen = s.frozen := (rfl)
@[simp] theorem State.memWrite_tlog (a : Nat) (bs : List Byte) : (s.memWrite a bs).tlog = s.tlog := (rfl)

/-! `memSetNum` changes only: mem. -/

@[simp] theorem State.memSetNum_pending (a n v : Nat) : (s.memSetNum a n v).pending = s.pending := (rfl)
@[simp] theorem State.memSetNum_build (a n v : Nat) : (s.memSetNum a n v).build = s.build := (rfl)
@[simp] theorem State.memSetNum_phase (a n v : Nat) : (s.memSetNum a n v).phase = s.phase := (rfl)
@[simp] theorem State.memSetNum_resetPor (a n v : Nat) : (s.memSetNum a n v).resetPor = s.resetPor := (rfl)
@[simp] theorem State.memSetNum_porLow (a n v : Nat) : (s.memSetNum a n v).porLow = s.porLow := (rfl)
@[simp] theorem State.memSetNum_blkLow (a n v : Nat) : (s.memSetNum a n v).blkLow = s.blkLow := (rfl)
@[simp] theorem State.memSetNum_lostAtReset (a n v : Nat) : (s.memSetNum a n v).lostAtReset = s.lostAtReset := (rfl)
@[simp] theorem State.memSetNum_trefKhz (a n v : Nat) : (s.memSetNum a n v).trefKhz = s.trefKhz := (rfl)
@[simp] theorem State.memSetNum_fnclkSel (a n v : Nat) : (s.memSetNum a n v).fnclkSel = s.fnclkSel := (rfl)
@[simp] theorem State.memSetNum_testMode (a n v : Nat) : (s.memSetNum a n v).testMode = s.testMode := (rfl)
@[simp] theorem State.memSetNum_mbistBusy (a n v : Nat) : (s.memSetNum a n v).mbistBusy = s.mbistBusy := (rfl)
@[simp] theorem State.memSetNum_mbistDone (a n v : Nat) : (s.memSetNum a n v).mbistDone = s.mbistDone := (rfl)
@[simp] theorem State.memSetNum_mbistFail (a n v : Nat) : (s.memSetNum a n v).mbistFail = s.mbistFail := (rfl)
@[simp] theorem State.memSetNum_tref (a n v : Nat) : (s.memSetNum a n v).tref = s.tref := (rfl)
@[simp] theorem State.memSetNum_freeN (a n v : Nat) : (s.memSetNum a n v).freeN = s.freeN := (rfl)
@[simp] theorem State.memSetNum_dict (a n v : Nat) : (s.memSetNum a n v).dict = s.dict := (rfl)
@[simp] theorem State.memSetNum_modes (a n v : Nat) : (s.memSetNum a n v).modes = s.modes := (rfl)
@[simp] theorem State.memSetNum_raster (a n v : Nat) : (s.memSetNum a n v).raster = s.raster := (rfl)
@[simp] theorem State.memSetNum_orbit (a n v : Nat) : (s.memSetNum a n v).orbit = s.orbit := (rfl)
@[simp] theorem State.memSetNum_streams (a n v : Nat) : (s.memSetNum a n v).streams = s.streams := (rfl)
@[simp] theorem State.memSetNum_link (a n v : Nat) : (s.memSetNum a n v).link = s.link := (rfl)
@[simp] theorem State.memSetNum_cmds (a n v : Nat) : (s.memSetNum a n v).cmds = s.cmds := (rfl)
@[simp] theorem State.memSetNum_stampNext (a n v : Nat) : (s.memSetNum a n v).stampNext = s.stampNext := (rfl)
@[simp] theorem State.memSetNum_seqWritten (a n v : Nat) : (s.memSetNum a n v).seqWritten = s.seqWritten := (rfl)
@[simp] theorem State.memSetNum_deferred (a n v : Nat) : (s.memSetNum a n v).deferred = s.deferred := (rfl)
@[simp] theorem State.memSetNum_deferNew (a n v : Nat) : (s.memSetNum a n v).deferNew = s.deferNew := (rfl)
@[simp] theorem State.memSetNum_versions (a n v : Nat) : (s.memSetNum a n v).versions = s.versions := (rfl)
@[simp] theorem State.memSetNum_nextVer (a n v : Nat) : (s.memSetNum a n v).nextVer = s.nextVer := (rfl)
@[simp] theorem State.memSetNum_hostCws (a n v : Nat) : (s.memSetNum a n v).hostCws = s.hostCws := (rfl)
@[simp] theorem State.memSetNum_origins (a n v : Nat) : (s.memSetNum a n v).origins = s.origins := (rfl)
@[simp] theorem State.memSetNum_sbs (a n v : Nat) : (s.memSetNum a n v).sbs = s.sbs := (rfl)
@[simp] theorem State.memSetNum_allocReqs (a n v : Nat) : (s.memSetNum a n v).allocReqs = s.allocReqs := (rfl)
@[simp] theorem State.memSetNum_walking (a n v : Nat) : (s.memSetNum a n v).walking = s.walking := (rfl)
@[simp] theorem State.memSetNum_running (a n v : Nat) : (s.memSetNum a n v).running = s.running := (rfl)
@[simp] theorem State.memSetNum_interimBlocks (a n v : Nat) : (s.memSetNum a n v).interimBlocks = s.interimBlocks := (rfl)
@[simp] theorem State.memSetNum_zeroFrom (a n v : Nat) : (s.memSetNum a n v).zeroFrom = s.zeroFrom := (rfl)
@[simp] theorem State.memSetNum_stallFrom (a n v : Nat) : (s.memSetNum a n v).stallFrom = s.stallFrom := (rfl)
@[simp] theorem State.memSetNum_lostDies (a n v : Nat) : (s.memSetNum a n v).lostDies = s.lostDies := (rfl)
@[simp] theorem State.memSetNum_tokens (a n v : Nat) : (s.memSetNum a n v).tokens = s.tokens := (rfl)
@[simp] theorem State.memSetNum_blockLocks (a n v : Nat) : (s.memSetNum a n v).blockLocks = s.blockLocks := (rfl)
@[simp] theorem State.memSetNum_pins (a n v : Nat) : (s.memSetNum a n v).pins = s.pins := (rfl)
@[simp] theorem State.memSetNum_ops (a n v : Nat) : (s.memSetNum a n v).ops = s.ops := (rfl)
@[simp] theorem State.memSetNum_nextOp (a n v : Nat) : (s.memSetNum a n v).nextOp = s.nextOp := (rfl)
@[simp] theorem State.memSetNum_jobs (a n v : Nat) : (s.memSetNum a n v).jobs = s.jobs := (rfl)
@[simp] theorem State.memSetNum_nextJob (a n v : Nat) : (s.memSetNum a n v).nextJob = s.nextJob := (rfl)
@[simp] theorem State.memSetNum_rebuilds (a n v : Nat) : (s.memSetNum a n v).rebuilds = s.rebuilds := (rfl)
@[simp] theorem State.memSetNum_comet (a n v : Nat) : (s.memSetNum a n v).comet = s.comet := (rfl)
@[simp] theorem State.memSetNum_cometHeld (a n v : Nat) : (s.memSetNum a n v).cometHeld = s.cometHeld := (rfl)
@[simp] theorem State.memSetNum_slotsUsed (a n v : Nat) : (s.memSetNum a n v).slotsUsed = s.slotsUsed := (rfl)
@[simp] theorem State.memSetNum_slcOkOnce (a n v : Nat) : (s.memSetNum a n v).slcOkOnce = s.slcOkOnce := (rfl)
@[simp] theorem State.memSetNum_codes (a n v : Nat) : (s.memSetNum a n v).codes = s.codes := (rfl)
@[simp] theorem State.memSetNum_codeErr (a n v : Nat) : (s.memSetNum a n v).codeErr = s.codeErr := (rfl)
@[simp] theorem State.memSetNum_cal (a n v : Nat) : (s.memSetNum a n v).cal = s.cal := (rfl)
@[simp] theorem State.memSetNum_calLast (a n v : Nat) : (s.memSetNum a n v).calLast = s.calLast := (rfl)
@[simp] theorem State.memSetNum_calSnapFrom (a n v : Nat) : (s.memSetNum a n v).calSnapFrom = s.calSnapFrom := (rfl)
@[simp] theorem State.memSetNum_prot (a n v : Nat) : (s.memSetNum a n v).prot = s.prot := (rfl)
@[simp] theorem State.memSetNum_chans (a n v : Nat) : (s.memSetNum a n v).chans = s.chans := (rfl)
@[simp] theorem State.memSetNum_dies (a n v : Nat) : (s.memSetNum a n v).dies = s.dies := (rfl)
@[simp] theorem State.memSetNum_clusters (a n v : Nat) : (s.memSetNum a n v).clusters = s.clusters := (rfl)
@[simp] theorem State.memSetNum_ctxs (a n v : Nat) : (s.memSetNum a n v).ctxs = s.ctxs := (rfl)
@[simp] theorem State.memSetNum_activation (a n v : Nat) : (s.memSetNum a n v).activation = s.activation := (rfl)
@[simp] theorem State.memSetNum_pools (a n v : Nat) : (s.memSetNum a n v).pools = s.pools := (rfl)
@[simp] theorem State.memSetNum_offered (a n v : Nat) : (s.memSetNum a n v).offered = s.offered := (rfl)
@[simp] theorem State.memSetNum_offers (a n v : Nat) : (s.memSetNum a n v).offers = s.offers := (rfl)
@[simp] theorem State.memSetNum_nqs (a n v : Nat) : (s.memSetNum a n v).nqs = s.nqs := (rfl)
@[simp] theorem State.memSetNum_ce (a n v : Nat) : (s.memSetNum a n v).ce = s.ce := (rfl)
@[simp] theorem State.memSetNum_ceSlots (a n v : Nat) : (s.memSetNum a n v).ceSlots = s.ceSlots := (rfl)
@[simp] theorem State.memSetNum_ports (a n v : Nat) : (s.memSetNum a n v).ports = s.ports := (rfl)
@[simp] theorem State.memSetNum_ints (a n v : Nat) : (s.memSetNum a n v).ints = s.ints := (rfl)
@[simp] theorem State.memSetNum_procs (a n v : Nat) : (s.memSetNum a n v).procs = s.procs := (rfl)
@[simp] theorem State.memSetNum_xfers (a n v : Nat) : (s.memSetNum a n v).xfers = s.xfers := (rfl)
@[simp] theorem State.memSetNum_cfg (a n v : Nat) : (s.memSetNum a n v).cfg = s.cfg := (rfl)
@[simp] theorem State.memSetNum_fn (a n v : Nat) : (s.memSetNum a n v).fn = s.fn := (rfl)
@[simp] theorem State.memSetNum_frozen (a n v : Nat) : (s.memSetNum a n v).frozen = s.frozen := (rfl)
@[simp] theorem State.memSetNum_tlog (a n v : Nat) : (s.memSetNum a n v).tlog = s.tlog := (rfl)

/-! `updCmd` changes only: cmds. -/

@[simp] theorem State.updCmd_pending (st : Nat) (f : Cmd → Cmd) : (s.updCmd st f).pending = s.pending := (rfl)
@[simp] theorem State.updCmd_build (st : Nat) (f : Cmd → Cmd) : (s.updCmd st f).build = s.build := (rfl)
@[simp] theorem State.updCmd_phase (st : Nat) (f : Cmd → Cmd) : (s.updCmd st f).phase = s.phase := (rfl)
@[simp] theorem State.updCmd_resetPor (st : Nat) (f : Cmd → Cmd) : (s.updCmd st f).resetPor = s.resetPor := (rfl)
@[simp] theorem State.updCmd_porLow (st : Nat) (f : Cmd → Cmd) : (s.updCmd st f).porLow = s.porLow := (rfl)
@[simp] theorem State.updCmd_blkLow (st : Nat) (f : Cmd → Cmd) : (s.updCmd st f).blkLow = s.blkLow := (rfl)
@[simp] theorem State.updCmd_lostAtReset (st : Nat) (f : Cmd → Cmd) : (s.updCmd st f).lostAtReset = s.lostAtReset := (rfl)
@[simp] theorem State.updCmd_trefKhz (st : Nat) (f : Cmd → Cmd) : (s.updCmd st f).trefKhz = s.trefKhz := (rfl)
@[simp] theorem State.updCmd_fnclkSel (st : Nat) (f : Cmd → Cmd) : (s.updCmd st f).fnclkSel = s.fnclkSel := (rfl)
@[simp] theorem State.updCmd_testMode (st : Nat) (f : Cmd → Cmd) : (s.updCmd st f).testMode = s.testMode := (rfl)
@[simp] theorem State.updCmd_mbistBusy (st : Nat) (f : Cmd → Cmd) : (s.updCmd st f).mbistBusy = s.mbistBusy := (rfl)
@[simp] theorem State.updCmd_mbistDone (st : Nat) (f : Cmd → Cmd) : (s.updCmd st f).mbistDone = s.mbistDone := (rfl)
@[simp] theorem State.updCmd_mbistFail (st : Nat) (f : Cmd → Cmd) : (s.updCmd st f).mbistFail = s.mbistFail := (rfl)
@[simp] theorem State.updCmd_tref (st : Nat) (f : Cmd → Cmd) : (s.updCmd st f).tref = s.tref := (rfl)
@[simp] theorem State.updCmd_freeN (st : Nat) (f : Cmd → Cmd) : (s.updCmd st f).freeN = s.freeN := (rfl)
@[simp] theorem State.updCmd_dict (st : Nat) (f : Cmd → Cmd) : (s.updCmd st f).dict = s.dict := (rfl)
@[simp] theorem State.updCmd_mem (st : Nat) (f : Cmd → Cmd) : (s.updCmd st f).mem = s.mem := (rfl)
@[simp] theorem State.updCmd_modes (st : Nat) (f : Cmd → Cmd) : (s.updCmd st f).modes = s.modes := (rfl)
@[simp] theorem State.updCmd_raster (st : Nat) (f : Cmd → Cmd) : (s.updCmd st f).raster = s.raster := (rfl)
@[simp] theorem State.updCmd_orbit (st : Nat) (f : Cmd → Cmd) : (s.updCmd st f).orbit = s.orbit := (rfl)
@[simp] theorem State.updCmd_streams (st : Nat) (f : Cmd → Cmd) : (s.updCmd st f).streams = s.streams := (rfl)
@[simp] theorem State.updCmd_link (st : Nat) (f : Cmd → Cmd) : (s.updCmd st f).link = s.link := (rfl)
@[simp] theorem State.updCmd_stampNext (st : Nat) (f : Cmd → Cmd) : (s.updCmd st f).stampNext = s.stampNext := (rfl)
@[simp] theorem State.updCmd_seqWritten (st : Nat) (f : Cmd → Cmd) : (s.updCmd st f).seqWritten = s.seqWritten := (rfl)
@[simp] theorem State.updCmd_deferred (st : Nat) (f : Cmd → Cmd) : (s.updCmd st f).deferred = s.deferred := (rfl)
@[simp] theorem State.updCmd_deferNew (st : Nat) (f : Cmd → Cmd) : (s.updCmd st f).deferNew = s.deferNew := (rfl)
@[simp] theorem State.updCmd_versions (st : Nat) (f : Cmd → Cmd) : (s.updCmd st f).versions = s.versions := (rfl)
@[simp] theorem State.updCmd_nextVer (st : Nat) (f : Cmd → Cmd) : (s.updCmd st f).nextVer = s.nextVer := (rfl)
@[simp] theorem State.updCmd_hostCws (st : Nat) (f : Cmd → Cmd) : (s.updCmd st f).hostCws = s.hostCws := (rfl)
@[simp] theorem State.updCmd_origins (st : Nat) (f : Cmd → Cmd) : (s.updCmd st f).origins = s.origins := (rfl)
@[simp] theorem State.updCmd_sbs (st : Nat) (f : Cmd → Cmd) : (s.updCmd st f).sbs = s.sbs := (rfl)
@[simp] theorem State.updCmd_allocReqs (st : Nat) (f : Cmd → Cmd) : (s.updCmd st f).allocReqs = s.allocReqs := (rfl)
@[simp] theorem State.updCmd_walking (st : Nat) (f : Cmd → Cmd) : (s.updCmd st f).walking = s.walking := (rfl)
@[simp] theorem State.updCmd_running (st : Nat) (f : Cmd → Cmd) : (s.updCmd st f).running = s.running := (rfl)
@[simp] theorem State.updCmd_interimBlocks (st : Nat) (f : Cmd → Cmd) : (s.updCmd st f).interimBlocks = s.interimBlocks := (rfl)
@[simp] theorem State.updCmd_zeroFrom (st : Nat) (f : Cmd → Cmd) : (s.updCmd st f).zeroFrom = s.zeroFrom := (rfl)
@[simp] theorem State.updCmd_stallFrom (st : Nat) (f : Cmd → Cmd) : (s.updCmd st f).stallFrom = s.stallFrom := (rfl)
@[simp] theorem State.updCmd_lostDies (st : Nat) (f : Cmd → Cmd) : (s.updCmd st f).lostDies = s.lostDies := (rfl)
@[simp] theorem State.updCmd_tokens (st : Nat) (f : Cmd → Cmd) : (s.updCmd st f).tokens = s.tokens := (rfl)
@[simp] theorem State.updCmd_blockLocks (st : Nat) (f : Cmd → Cmd) : (s.updCmd st f).blockLocks = s.blockLocks := (rfl)
@[simp] theorem State.updCmd_pins (st : Nat) (f : Cmd → Cmd) : (s.updCmd st f).pins = s.pins := (rfl)
@[simp] theorem State.updCmd_ops (st : Nat) (f : Cmd → Cmd) : (s.updCmd st f).ops = s.ops := (rfl)
@[simp] theorem State.updCmd_nextOp (st : Nat) (f : Cmd → Cmd) : (s.updCmd st f).nextOp = s.nextOp := (rfl)
@[simp] theorem State.updCmd_jobs (st : Nat) (f : Cmd → Cmd) : (s.updCmd st f).jobs = s.jobs := (rfl)
@[simp] theorem State.updCmd_nextJob (st : Nat) (f : Cmd → Cmd) : (s.updCmd st f).nextJob = s.nextJob := (rfl)
@[simp] theorem State.updCmd_rebuilds (st : Nat) (f : Cmd → Cmd) : (s.updCmd st f).rebuilds = s.rebuilds := (rfl)
@[simp] theorem State.updCmd_comet (st : Nat) (f : Cmd → Cmd) : (s.updCmd st f).comet = s.comet := (rfl)
@[simp] theorem State.updCmd_cometHeld (st : Nat) (f : Cmd → Cmd) : (s.updCmd st f).cometHeld = s.cometHeld := (rfl)
@[simp] theorem State.updCmd_slotsUsed (st : Nat) (f : Cmd → Cmd) : (s.updCmd st f).slotsUsed = s.slotsUsed := (rfl)
@[simp] theorem State.updCmd_slcOkOnce (st : Nat) (f : Cmd → Cmd) : (s.updCmd st f).slcOkOnce = s.slcOkOnce := (rfl)
@[simp] theorem State.updCmd_codes (st : Nat) (f : Cmd → Cmd) : (s.updCmd st f).codes = s.codes := (rfl)
@[simp] theorem State.updCmd_codeErr (st : Nat) (f : Cmd → Cmd) : (s.updCmd st f).codeErr = s.codeErr := (rfl)
@[simp] theorem State.updCmd_cal (st : Nat) (f : Cmd → Cmd) : (s.updCmd st f).cal = s.cal := (rfl)
@[simp] theorem State.updCmd_calLast (st : Nat) (f : Cmd → Cmd) : (s.updCmd st f).calLast = s.calLast := (rfl)
@[simp] theorem State.updCmd_calSnapFrom (st : Nat) (f : Cmd → Cmd) : (s.updCmd st f).calSnapFrom = s.calSnapFrom := (rfl)
@[simp] theorem State.updCmd_prot (st : Nat) (f : Cmd → Cmd) : (s.updCmd st f).prot = s.prot := (rfl)
@[simp] theorem State.updCmd_chans (st : Nat) (f : Cmd → Cmd) : (s.updCmd st f).chans = s.chans := (rfl)
@[simp] theorem State.updCmd_dies (st : Nat) (f : Cmd → Cmd) : (s.updCmd st f).dies = s.dies := (rfl)
@[simp] theorem State.updCmd_clusters (st : Nat) (f : Cmd → Cmd) : (s.updCmd st f).clusters = s.clusters := (rfl)
@[simp] theorem State.updCmd_ctxs (st : Nat) (f : Cmd → Cmd) : (s.updCmd st f).ctxs = s.ctxs := (rfl)
@[simp] theorem State.updCmd_activation (st : Nat) (f : Cmd → Cmd) : (s.updCmd st f).activation = s.activation := (rfl)
@[simp] theorem State.updCmd_pools (st : Nat) (f : Cmd → Cmd) : (s.updCmd st f).pools = s.pools := (rfl)
@[simp] theorem State.updCmd_offered (st : Nat) (f : Cmd → Cmd) : (s.updCmd st f).offered = s.offered := (rfl)
@[simp] theorem State.updCmd_offers (st : Nat) (f : Cmd → Cmd) : (s.updCmd st f).offers = s.offers := (rfl)
@[simp] theorem State.updCmd_nqs (st : Nat) (f : Cmd → Cmd) : (s.updCmd st f).nqs = s.nqs := (rfl)
@[simp] theorem State.updCmd_ce (st : Nat) (f : Cmd → Cmd) : (s.updCmd st f).ce = s.ce := (rfl)
@[simp] theorem State.updCmd_ceSlots (st : Nat) (f : Cmd → Cmd) : (s.updCmd st f).ceSlots = s.ceSlots := (rfl)
@[simp] theorem State.updCmd_ports (st : Nat) (f : Cmd → Cmd) : (s.updCmd st f).ports = s.ports := (rfl)
@[simp] theorem State.updCmd_ints (st : Nat) (f : Cmd → Cmd) : (s.updCmd st f).ints = s.ints := (rfl)
@[simp] theorem State.updCmd_procs (st : Nat) (f : Cmd → Cmd) : (s.updCmd st f).procs = s.procs := (rfl)
@[simp] theorem State.updCmd_xfers (st : Nat) (f : Cmd → Cmd) : (s.updCmd st f).xfers = s.xfers := (rfl)
@[simp] theorem State.updCmd_cfg (st : Nat) (f : Cmd → Cmd) : (s.updCmd st f).cfg = s.cfg := (rfl)
@[simp] theorem State.updCmd_fn (st : Nat) (f : Cmd → Cmd) : (s.updCmd st f).fn = s.fn := (rfl)
@[simp] theorem State.updCmd_frozen (st : Nat) (f : Cmd → Cmd) : (s.updCmd st f).frozen = s.frozen := (rfl)
@[simp] theorem State.updCmd_tlog (st : Nat) (f : Cmd → Cmd) : (s.updCmd st f).tlog = s.tlog := (rfl)

end Sys2Proof.Machine
end

