-- ==== Sys2Proof/Laws/Work.lean ====
section
/-!
SUPPORT. Laws/Work.lean: what the shared operations that update one table or carry work on leave as it
is, one lemma for each field and operation.
-/

namespace Sys2Proof.Machine

open Sys2Proof

variable (s : State)

/-! `updProc`. -/

@[simp] theorem State.updProc_pending (p : Nat) (f : Proc → Proc) : (s.updProc p f).pending = s.pending := (rfl)
@[simp] theorem State.updProc_build (p : Nat) (f : Proc → Proc) : (s.updProc p f).build = s.build := (rfl)
@[simp] theorem State.updProc_phase (p : Nat) (f : Proc → Proc) : (s.updProc p f).phase = s.phase := (rfl)
@[simp] theorem State.updProc_resetPor (p : Nat) (f : Proc → Proc) : (s.updProc p f).resetPor = s.resetPor := (rfl)
@[simp] theorem State.updProc_porLow (p : Nat) (f : Proc → Proc) : (s.updProc p f).porLow = s.porLow := (rfl)
@[simp] theorem State.updProc_blkLow (p : Nat) (f : Proc → Proc) : (s.updProc p f).blkLow = s.blkLow := (rfl)
@[simp] theorem State.updProc_lostAtReset (p : Nat) (f : Proc → Proc) : (s.updProc p f).lostAtReset = s.lostAtReset := (rfl)
@[simp] theorem State.updProc_trefKhz (p : Nat) (f : Proc → Proc) : (s.updProc p f).trefKhz = s.trefKhz := (rfl)
@[simp] theorem State.updProc_fnclkSel (p : Nat) (f : Proc → Proc) : (s.updProc p f).fnclkSel = s.fnclkSel := (rfl)
@[simp] theorem State.updProc_testMode (p : Nat) (f : Proc → Proc) : (s.updProc p f).testMode = s.testMode := (rfl)
@[simp] theorem State.updProc_mbistBusy (p : Nat) (f : Proc → Proc) : (s.updProc p f).mbistBusy = s.mbistBusy := (rfl)
@[simp] theorem State.updProc_mbistDone (p : Nat) (f : Proc → Proc) : (s.updProc p f).mbistDone = s.mbistDone := (rfl)
@[simp] theorem State.updProc_mbistFail (p : Nat) (f : Proc → Proc) : (s.updProc p f).mbistFail = s.mbistFail := (rfl)
@[simp] theorem State.updProc_tref (p : Nat) (f : Proc → Proc) : (s.updProc p f).tref = s.tref := (rfl)
@[simp] theorem State.updProc_freeN (p : Nat) (f : Proc → Proc) : (s.updProc p f).freeN = s.freeN := (rfl)
@[simp] theorem State.updProc_dict (p : Nat) (f : Proc → Proc) : (s.updProc p f).dict = s.dict := (rfl)
@[simp] theorem State.updProc_mem (p : Nat) (f : Proc → Proc) : (s.updProc p f).mem = s.mem := (rfl)
@[simp] theorem State.updProc_modes (p : Nat) (f : Proc → Proc) : (s.updProc p f).modes = s.modes := (rfl)
@[simp] theorem State.updProc_raster (p : Nat) (f : Proc → Proc) : (s.updProc p f).raster = s.raster := (rfl)
@[simp] theorem State.updProc_orbit (p : Nat) (f : Proc → Proc) : (s.updProc p f).orbit = s.orbit := (rfl)
@[simp] theorem State.updProc_streams (p : Nat) (f : Proc → Proc) : (s.updProc p f).streams = s.streams := (rfl)
@[simp] theorem State.updProc_link (p : Nat) (f : Proc → Proc) : (s.updProc p f).link = s.link := (rfl)
@[simp] theorem State.updProc_cmds (p : Nat) (f : Proc → Proc) : (s.updProc p f).cmds = s.cmds := (rfl)
@[simp] theorem State.updProc_stampNext (p : Nat) (f : Proc → Proc) : (s.updProc p f).stampNext = s.stampNext := (rfl)
@[simp] theorem State.updProc_seqWritten (p : Nat) (f : Proc → Proc) : (s.updProc p f).seqWritten = s.seqWritten := (rfl)
@[simp] theorem State.updProc_deferred (p : Nat) (f : Proc → Proc) : (s.updProc p f).deferred = s.deferred := (rfl)
@[simp] theorem State.updProc_deferNew (p : Nat) (f : Proc → Proc) : (s.updProc p f).deferNew = s.deferNew := (rfl)
@[simp] theorem State.updProc_versions (p : Nat) (f : Proc → Proc) : (s.updProc p f).versions = s.versions := (rfl)
@[simp] theorem State.updProc_nextVer (p : Nat) (f : Proc → Proc) : (s.updProc p f).nextVer = s.nextVer := (rfl)
@[simp] theorem State.updProc_hostCws (p : Nat) (f : Proc → Proc) : (s.updProc p f).hostCws = s.hostCws := (rfl)
@[simp] theorem State.updProc_origins (p : Nat) (f : Proc → Proc) : (s.updProc p f).origins = s.origins := (rfl)
@[simp] theorem State.updProc_sbs (p : Nat) (f : Proc → Proc) : (s.updProc p f).sbs = s.sbs := (rfl)
@[simp] theorem State.updProc_allocReqs (p : Nat) (f : Proc → Proc) : (s.updProc p f).allocReqs = s.allocReqs := (rfl)
@[simp] theorem State.updProc_walking (p : Nat) (f : Proc → Proc) : (s.updProc p f).walking = s.walking := (rfl)
@[simp] theorem State.updProc_running (p : Nat) (f : Proc → Proc) : (s.updProc p f).running = s.running := (rfl)
@[simp] theorem State.updProc_interimBlocks (p : Nat) (f : Proc → Proc) : (s.updProc p f).interimBlocks = s.interimBlocks := (rfl)
@[simp] theorem State.updProc_zeroFrom (p : Nat) (f : Proc → Proc) : (s.updProc p f).zeroFrom = s.zeroFrom := (rfl)
@[simp] theorem State.updProc_stallFrom (p : Nat) (f : Proc → Proc) : (s.updProc p f).stallFrom = s.stallFrom := (rfl)
@[simp] theorem State.updProc_lostDies (p : Nat) (f : Proc → Proc) : (s.updProc p f).lostDies = s.lostDies := (rfl)
@[simp] theorem State.updProc_tokens (p : Nat) (f : Proc → Proc) : (s.updProc p f).tokens = s.tokens := (rfl)
@[simp] theorem State.updProc_blockLocks (p : Nat) (f : Proc → Proc) : (s.updProc p f).blockLocks = s.blockLocks := (rfl)
@[simp] theorem State.updProc_pins (p : Nat) (f : Proc → Proc) : (s.updProc p f).pins = s.pins := (rfl)
@[simp] theorem State.updProc_ops (p : Nat) (f : Proc → Proc) : (s.updProc p f).ops = s.ops := (rfl)
@[simp] theorem State.updProc_nextOp (p : Nat) (f : Proc → Proc) : (s.updProc p f).nextOp = s.nextOp := (rfl)
@[simp] theorem State.updProc_jobs (p : Nat) (f : Proc → Proc) : (s.updProc p f).jobs = s.jobs := (rfl)
@[simp] theorem State.updProc_nextJob (p : Nat) (f : Proc → Proc) : (s.updProc p f).nextJob = s.nextJob := (rfl)
@[simp] theorem State.updProc_rebuilds (p : Nat) (f : Proc → Proc) : (s.updProc p f).rebuilds = s.rebuilds := (rfl)
@[simp] theorem State.updProc_comet (p : Nat) (f : Proc → Proc) : (s.updProc p f).comet = s.comet := (rfl)
@[simp] theorem State.updProc_cometHeld (p : Nat) (f : Proc → Proc) : (s.updProc p f).cometHeld = s.cometHeld := (rfl)
@[simp] theorem State.updProc_slotsUsed (p : Nat) (f : Proc → Proc) : (s.updProc p f).slotsUsed = s.slotsUsed := (rfl)
@[simp] theorem State.updProc_slcOkOnce (p : Nat) (f : Proc → Proc) : (s.updProc p f).slcOkOnce = s.slcOkOnce := (rfl)
@[simp] theorem State.updProc_codes (p : Nat) (f : Proc → Proc) : (s.updProc p f).codes = s.codes := (rfl)
@[simp] theorem State.updProc_codeErr (p : Nat) (f : Proc → Proc) : (s.updProc p f).codeErr = s.codeErr := (rfl)
@[simp] theorem State.updProc_cal (p : Nat) (f : Proc → Proc) : (s.updProc p f).cal = s.cal := (rfl)
@[simp] theorem State.updProc_calLast (p : Nat) (f : Proc → Proc) : (s.updProc p f).calLast = s.calLast := (rfl)
@[simp] theorem State.updProc_calSnapFrom (p : Nat) (f : Proc → Proc) : (s.updProc p f).calSnapFrom = s.calSnapFrom := (rfl)
@[simp] theorem State.updProc_prot (p : Nat) (f : Proc → Proc) : (s.updProc p f).prot = s.prot := (rfl)
@[simp] theorem State.updProc_chans (p : Nat) (f : Proc → Proc) : (s.updProc p f).chans = s.chans := (rfl)
@[simp] theorem State.updProc_dies (p : Nat) (f : Proc → Proc) : (s.updProc p f).dies = s.dies := (rfl)
@[simp] theorem State.updProc_clusters (p : Nat) (f : Proc → Proc) : (s.updProc p f).clusters = s.clusters := (rfl)
@[simp] theorem State.updProc_ctxs (p : Nat) (f : Proc → Proc) : (s.updProc p f).ctxs = s.ctxs := (rfl)
@[simp] theorem State.updProc_activation (p : Nat) (f : Proc → Proc) : (s.updProc p f).activation = s.activation := (rfl)
@[simp] theorem State.updProc_pools (p : Nat) (f : Proc → Proc) : (s.updProc p f).pools = s.pools := (rfl)
@[simp] theorem State.updProc_offered (p : Nat) (f : Proc → Proc) : (s.updProc p f).offered = s.offered := (rfl)
@[simp] theorem State.updProc_offers (p : Nat) (f : Proc → Proc) : (s.updProc p f).offers = s.offers := (rfl)
@[simp] theorem State.updProc_nqs (p : Nat) (f : Proc → Proc) : (s.updProc p f).nqs = s.nqs := (rfl)
@[simp] theorem State.updProc_ce (p : Nat) (f : Proc → Proc) : (s.updProc p f).ce = s.ce := (rfl)
@[simp] theorem State.updProc_ceSlots (p : Nat) (f : Proc → Proc) : (s.updProc p f).ceSlots = s.ceSlots := (rfl)
@[simp] theorem State.updProc_ports (p : Nat) (f : Proc → Proc) : (s.updProc p f).ports = s.ports := (rfl)
@[simp] theorem State.updProc_ints (p : Nat) (f : Proc → Proc) : (s.updProc p f).ints = s.ints := (rfl)
@[simp] theorem State.updProc_xfers (p : Nat) (f : Proc → Proc) : (s.updProc p f).xfers = s.xfers := (rfl)
@[simp] theorem State.updProc_cfg (p : Nat) (f : Proc → Proc) : (s.updProc p f).cfg = s.cfg := (rfl)
@[simp] theorem State.updProc_fn (p : Nat) (f : Proc → Proc) : (s.updProc p f).fn = s.fn := (rfl)
@[simp] theorem State.updProc_frozen (p : Nat) (f : Proc → Proc) : (s.updProc p f).frozen = s.frozen := (rfl)
@[simp] theorem State.updProc_tlog (p : Nat) (f : Proc → Proc) : (s.updProc p f).tlog = s.tlog := (rfl)

/-! `updPool`. -/

@[simp] theorem State.updPool_pending (p : Nat) (f : Pool → Pool) : (s.updPool p f).pending = s.pending := (rfl)
@[simp] theorem State.updPool_build (p : Nat) (f : Pool → Pool) : (s.updPool p f).build = s.build := (rfl)
@[simp] theorem State.updPool_phase (p : Nat) (f : Pool → Pool) : (s.updPool p f).phase = s.phase := (rfl)
@[simp] theorem State.updPool_resetPor (p : Nat) (f : Pool → Pool) : (s.updPool p f).resetPor = s.resetPor := (rfl)
@[simp] theorem State.updPool_porLow (p : Nat) (f : Pool → Pool) : (s.updPool p f).porLow = s.porLow := (rfl)
@[simp] theorem State.updPool_blkLow (p : Nat) (f : Pool → Pool) : (s.updPool p f).blkLow = s.blkLow := (rfl)
@[simp] theorem State.updPool_lostAtReset (p : Nat) (f : Pool → Pool) : (s.updPool p f).lostAtReset = s.lostAtReset := (rfl)
@[simp] theorem State.updPool_trefKhz (p : Nat) (f : Pool → Pool) : (s.updPool p f).trefKhz = s.trefKhz := (rfl)
@[simp] theorem State.updPool_fnclkSel (p : Nat) (f : Pool → Pool) : (s.updPool p f).fnclkSel = s.fnclkSel := (rfl)
@[simp] theorem State.updPool_testMode (p : Nat) (f : Pool → Pool) : (s.updPool p f).testMode = s.testMode := (rfl)
@[simp] theorem State.updPool_mbistBusy (p : Nat) (f : Pool → Pool) : (s.updPool p f).mbistBusy = s.mbistBusy := (rfl)
@[simp] theorem State.updPool_mbistDone (p : Nat) (f : Pool → Pool) : (s.updPool p f).mbistDone = s.mbistDone := (rfl)
@[simp] theorem State.updPool_mbistFail (p : Nat) (f : Pool → Pool) : (s.updPool p f).mbistFail = s.mbistFail := (rfl)
@[simp] theorem State.updPool_tref (p : Nat) (f : Pool → Pool) : (s.updPool p f).tref = s.tref := (rfl)
@[simp] theorem State.updPool_freeN (p : Nat) (f : Pool → Pool) : (s.updPool p f).freeN = s.freeN := (rfl)
@[simp] theorem State.updPool_dict (p : Nat) (f : Pool → Pool) : (s.updPool p f).dict = s.dict := (rfl)
@[simp] theorem State.updPool_mem (p : Nat) (f : Pool → Pool) : (s.updPool p f).mem = s.mem := (rfl)
@[simp] theorem State.updPool_modes (p : Nat) (f : Pool → Pool) : (s.updPool p f).modes = s.modes := (rfl)
@[simp] theorem State.updPool_raster (p : Nat) (f : Pool → Pool) : (s.updPool p f).raster = s.raster := (rfl)
@[simp] theorem State.updPool_orbit (p : Nat) (f : Pool → Pool) : (s.updPool p f).orbit = s.orbit := (rfl)
@[simp] theorem State.updPool_streams (p : Nat) (f : Pool → Pool) : (s.updPool p f).streams = s.streams := (rfl)
@[simp] theorem State.updPool_link (p : Nat) (f : Pool → Pool) : (s.updPool p f).link = s.link := (rfl)
@[simp] theorem State.updPool_cmds (p : Nat) (f : Pool → Pool) : (s.updPool p f).cmds = s.cmds := (rfl)
@[simp] theorem State.updPool_stampNext (p : Nat) (f : Pool → Pool) : (s.updPool p f).stampNext = s.stampNext := (rfl)
@[simp] theorem State.updPool_seqWritten (p : Nat) (f : Pool → Pool) : (s.updPool p f).seqWritten = s.seqWritten := (rfl)
@[simp] theorem State.updPool_deferred (p : Nat) (f : Pool → Pool) : (s.updPool p f).deferred = s.deferred := (rfl)
@[simp] theorem State.updPool_deferNew (p : Nat) (f : Pool → Pool) : (s.updPool p f).deferNew = s.deferNew := (rfl)
@[simp] theorem State.updPool_versions (p : Nat) (f : Pool → Pool) : (s.updPool p f).versions = s.versions := (rfl)
@[simp] theorem State.updPool_nextVer (p : Nat) (f : Pool → Pool) : (s.updPool p f).nextVer = s.nextVer := (rfl)
@[simp] theorem State.updPool_hostCws (p : Nat) (f : Pool → Pool) : (s.updPool p f).hostCws = s.hostCws := (rfl)
@[simp] theorem State.updPool_origins (p : Nat) (f : Pool → Pool) : (s.updPool p f).origins = s.origins := (rfl)
@[simp] theorem State.updPool_sbs (p : Nat) (f : Pool → Pool) : (s.updPool p f).sbs = s.sbs := (rfl)
@[simp] theorem State.updPool_allocReqs (p : Nat) (f : Pool → Pool) : (s.updPool p f).allocReqs = s.allocReqs := (rfl)
@[simp] theorem State.updPool_walking (p : Nat) (f : Pool → Pool) : (s.updPool p f).walking = s.walking := (rfl)
@[simp] theorem State.updPool_running (p : Nat) (f : Pool → Pool) : (s.updPool p f).running = s.running := (rfl)
@[simp] theorem State.updPool_interimBlocks (p : Nat) (f : Pool → Pool) : (s.updPool p f).interimBlocks = s.interimBlocks := (rfl)
@[simp] theorem State.updPool_zeroFrom (p : Nat) (f : Pool → Pool) : (s.updPool p f).zeroFrom = s.zeroFrom := (rfl)
@[simp] theorem State.updPool_stallFrom (p : Nat) (f : Pool → Pool) : (s.updPool p f).stallFrom = s.stallFrom := (rfl)
@[simp] theorem State.updPool_lostDies (p : Nat) (f : Pool → Pool) : (s.updPool p f).lostDies = s.lostDies := (rfl)
@[simp] theorem State.updPool_tokens (p : Nat) (f : Pool → Pool) : (s.updPool p f).tokens = s.tokens := (rfl)
@[simp] theorem State.updPool_blockLocks (p : Nat) (f : Pool → Pool) : (s.updPool p f).blockLocks = s.blockLocks := (rfl)
@[simp] theorem State.updPool_pins (p : Nat) (f : Pool → Pool) : (s.updPool p f).pins = s.pins := (rfl)
@[simp] theorem State.updPool_ops (p : Nat) (f : Pool → Pool) : (s.updPool p f).ops = s.ops := (rfl)
@[simp] theorem State.updPool_nextOp (p : Nat) (f : Pool → Pool) : (s.updPool p f).nextOp = s.nextOp := (rfl)
@[simp] theorem State.updPool_jobs (p : Nat) (f : Pool → Pool) : (s.updPool p f).jobs = s.jobs := (rfl)
@[simp] theorem State.updPool_nextJob (p : Nat) (f : Pool → Pool) : (s.updPool p f).nextJob = s.nextJob := (rfl)
@[simp] theorem State.updPool_rebuilds (p : Nat) (f : Pool → Pool) : (s.updPool p f).rebuilds = s.rebuilds := (rfl)
@[simp] theorem State.updPool_comet (p : Nat) (f : Pool → Pool) : (s.updPool p f).comet = s.comet := (rfl)
@[simp] theorem State.updPool_cometHeld (p : Nat) (f : Pool → Pool) : (s.updPool p f).cometHeld = s.cometHeld := (rfl)
@[simp] theorem State.updPool_slotsUsed (p : Nat) (f : Pool → Pool) : (s.updPool p f).slotsUsed = s.slotsUsed := (rfl)
@[simp] theorem State.updPool_slcOkOnce (p : Nat) (f : Pool → Pool) : (s.updPool p f).slcOkOnce = s.slcOkOnce := (rfl)
@[simp] theorem State.updPool_codes (p : Nat) (f : Pool → Pool) : (s.updPool p f).codes = s.codes := (rfl)
@[simp] theorem State.updPool_codeErr (p : Nat) (f : Pool → Pool) : (s.updPool p f).codeErr = s.codeErr := (rfl)
@[simp] theorem State.updPool_cal (p : Nat) (f : Pool → Pool) : (s.updPool p f).cal = s.cal := (rfl)
@[simp] theorem State.updPool_calLast (p : Nat) (f : Pool → Pool) : (s.updPool p f).calLast = s.calLast := (rfl)
@[simp] theorem State.updPool_calSnapFrom (p : Nat) (f : Pool → Pool) : (s.updPool p f).calSnapFrom = s.calSnapFrom := (rfl)
@[simp] theorem State.updPool_prot (p : Nat) (f : Pool → Pool) : (s.updPool p f).prot = s.prot := (rfl)
@[simp] theorem State.updPool_chans (p : Nat) (f : Pool → Pool) : (s.updPool p f).chans = s.chans := (rfl)
@[simp] theorem State.updPool_dies (p : Nat) (f : Pool → Pool) : (s.updPool p f).dies = s.dies := (rfl)
@[simp] theorem State.updPool_clusters (p : Nat) (f : Pool → Pool) : (s.updPool p f).clusters = s.clusters := (rfl)
@[simp] theorem State.updPool_ctxs (p : Nat) (f : Pool → Pool) : (s.updPool p f).ctxs = s.ctxs := (rfl)
@[simp] theorem State.updPool_activation (p : Nat) (f : Pool → Pool) : (s.updPool p f).activation = s.activation := (rfl)
@[simp] theorem State.updPool_offered (p : Nat) (f : Pool → Pool) : (s.updPool p f).offered = s.offered := (rfl)
@[simp] theorem State.updPool_offers (p : Nat) (f : Pool → Pool) : (s.updPool p f).offers = s.offers := (rfl)
@[simp] theorem State.updPool_nqs (p : Nat) (f : Pool → Pool) : (s.updPool p f).nqs = s.nqs := (rfl)
@[simp] theorem State.updPool_ce (p : Nat) (f : Pool → Pool) : (s.updPool p f).ce = s.ce := (rfl)
@[simp] theorem State.updPool_ceSlots (p : Nat) (f : Pool → Pool) : (s.updPool p f).ceSlots = s.ceSlots := (rfl)
@[simp] theorem State.updPool_ports (p : Nat) (f : Pool → Pool) : (s.updPool p f).ports = s.ports := (rfl)
@[simp] theorem State.updPool_ints (p : Nat) (f : Pool → Pool) : (s.updPool p f).ints = s.ints := (rfl)
@[simp] theorem State.updPool_procs (p : Nat) (f : Pool → Pool) : (s.updPool p f).procs = s.procs := (rfl)
@[simp] theorem State.updPool_xfers (p : Nat) (f : Pool → Pool) : (s.updPool p f).xfers = s.xfers := (rfl)
@[simp] theorem State.updPool_cfg (p : Nat) (f : Pool → Pool) : (s.updPool p f).cfg = s.cfg := (rfl)
@[simp] theorem State.updPool_fn (p : Nat) (f : Pool → Pool) : (s.updPool p f).fn = s.fn := (rfl)
@[simp] theorem State.updPool_frozen (p : Nat) (f : Pool → Pool) : (s.updPool p f).frozen = s.frozen := (rfl)
@[simp] theorem State.updPool_tlog (p : Nat) (f : Pool → Pool) : (s.updPool p f).tlog = s.tlog := (rfl)

/-! `updNq`. -/

@[simp] theorem State.updNq_pending (q : Nat) (f : NoticeQ → NoticeQ) : (s.updNq q f).pending = s.pending := (rfl)
@[simp] theorem State.updNq_build (q : Nat) (f : NoticeQ → NoticeQ) : (s.updNq q f).build = s.build := (rfl)
@[simp] theorem State.updNq_phase (q : Nat) (f : NoticeQ → NoticeQ) : (s.updNq q f).phase = s.phase := (rfl)
@[simp] theorem State.updNq_resetPor (q : Nat) (f : NoticeQ → NoticeQ) : (s.updNq q f).resetPor = s.resetPor := (rfl)
@[simp] theorem State.updNq_porLow (q : Nat) (f : NoticeQ → NoticeQ) : (s.updNq q f).porLow = s.porLow := (rfl)
@[simp] theorem State.updNq_blkLow (q : Nat) (f : NoticeQ → NoticeQ) : (s.updNq q f).blkLow = s.blkLow := (rfl)
@[simp] theorem State.updNq_lostAtReset (q : Nat) (f : NoticeQ → NoticeQ) : (s.updNq q f).lostAtReset = s.lostAtReset := (rfl)
@[simp] theorem State.updNq_trefKhz (q : Nat) (f : NoticeQ → NoticeQ) : (s.updNq q f).trefKhz = s.trefKhz := (rfl)
@[simp] theorem State.updNq_fnclkSel (q : Nat) (f : NoticeQ → NoticeQ) : (s.updNq q f).fnclkSel = s.fnclkSel := (rfl)
@[simp] theorem State.updNq_testMode (q : Nat) (f : NoticeQ → NoticeQ) : (s.updNq q f).testMode = s.testMode := (rfl)
@[simp] theorem State.updNq_mbistBusy (q : Nat) (f : NoticeQ → NoticeQ) : (s.updNq q f).mbistBusy = s.mbistBusy := (rfl)
@[simp] theorem State.updNq_mbistDone (q : Nat) (f : NoticeQ → NoticeQ) : (s.updNq q f).mbistDone = s.mbistDone := (rfl)
@[simp] theorem State.updNq_mbistFail (q : Nat) (f : NoticeQ → NoticeQ) : (s.updNq q f).mbistFail = s.mbistFail := (rfl)
@[simp] theorem State.updNq_tref (q : Nat) (f : NoticeQ → NoticeQ) : (s.updNq q f).tref = s.tref := (rfl)
@[simp] theorem State.updNq_freeN (q : Nat) (f : NoticeQ → NoticeQ) : (s.updNq q f).freeN = s.freeN := (rfl)
@[simp] theorem State.updNq_dict (q : Nat) (f : NoticeQ → NoticeQ) : (s.updNq q f).dict = s.dict := (rfl)
@[simp] theorem State.updNq_mem (q : Nat) (f : NoticeQ → NoticeQ) : (s.updNq q f).mem = s.mem := (rfl)
@[simp] theorem State.updNq_modes (q : Nat) (f : NoticeQ → NoticeQ) : (s.updNq q f).modes = s.modes := (rfl)
@[simp] theorem State.updNq_raster (q : Nat) (f : NoticeQ → NoticeQ) : (s.updNq q f).raster = s.raster := (rfl)
@[simp] theorem State.updNq_orbit (q : Nat) (f : NoticeQ → NoticeQ) : (s.updNq q f).orbit = s.orbit := (rfl)
@[simp] theorem State.updNq_streams (q : Nat) (f : NoticeQ → NoticeQ) : (s.updNq q f).streams = s.streams := (rfl)
@[simp] theorem State.updNq_link (q : Nat) (f : NoticeQ → NoticeQ) : (s.updNq q f).link = s.link := (rfl)
@[simp] theorem State.updNq_cmds (q : Nat) (f : NoticeQ → NoticeQ) : (s.updNq q f).cmds = s.cmds := (rfl)
@[simp] theorem State.updNq_stampNext (q : Nat) (f : NoticeQ → NoticeQ) : (s.updNq q f).stampNext = s.stampNext := (rfl)
@[simp] theorem State.updNq_seqWritten (q : Nat) (f : NoticeQ → NoticeQ) : (s.updNq q f).seqWritten = s.seqWritten := (rfl)
@[simp] theorem State.updNq_deferred (q : Nat) (f : NoticeQ → NoticeQ) : (s.updNq q f).deferred = s.deferred := (rfl)
@[simp] theorem State.updNq_deferNew (q : Nat) (f : NoticeQ → NoticeQ) : (s.updNq q f).deferNew = s.deferNew := (rfl)
@[simp] theorem State.updNq_versions (q : Nat) (f : NoticeQ → NoticeQ) : (s.updNq q f).versions = s.versions := (rfl)
@[simp] theorem State.updNq_nextVer (q : Nat) (f : NoticeQ → NoticeQ) : (s.updNq q f).nextVer = s.nextVer := (rfl)
@[simp] theorem State.updNq_hostCws (q : Nat) (f : NoticeQ → NoticeQ) : (s.updNq q f).hostCws = s.hostCws := (rfl)
@[simp] theorem State.updNq_origins (q : Nat) (f : NoticeQ → NoticeQ) : (s.updNq q f).origins = s.origins := (rfl)
@[simp] theorem State.updNq_sbs (q : Nat) (f : NoticeQ → NoticeQ) : (s.updNq q f).sbs = s.sbs := (rfl)
@[simp] theorem State.updNq_allocReqs (q : Nat) (f : NoticeQ → NoticeQ) : (s.updNq q f).allocReqs = s.allocReqs := (rfl)
@[simp] theorem State.updNq_walking (q : Nat) (f : NoticeQ → NoticeQ) : (s.updNq q f).walking = s.walking := (rfl)
@[simp] theorem State.updNq_running (q : Nat) (f : NoticeQ → NoticeQ) : (s.updNq q f).running = s.running := (rfl)
@[simp] theorem State.updNq_interimBlocks (q : Nat) (f : NoticeQ → NoticeQ) : (s.updNq q f).interimBlocks = s.interimBlocks := (rfl)
@[simp] theorem State.updNq_zeroFrom (q : Nat) (f : NoticeQ → NoticeQ) : (s.updNq q f).zeroFrom = s.zeroFrom := (rfl)
@[simp] theorem State.updNq_stallFrom (q : Nat) (f : NoticeQ → NoticeQ) : (s.updNq q f).stallFrom = s.stallFrom := (rfl)
@[simp] theorem State.updNq_lostDies (q : Nat) (f : NoticeQ → NoticeQ) : (s.updNq q f).lostDies = s.lostDies := (rfl)
@[simp] theorem State.updNq_tokens (q : Nat) (f : NoticeQ → NoticeQ) : (s.updNq q f).tokens = s.tokens := (rfl)
@[simp] theorem State.updNq_blockLocks (q : Nat) (f : NoticeQ → NoticeQ) : (s.updNq q f).blockLocks = s.blockLocks := (rfl)
@[simp] theorem State.updNq_pins (q : Nat) (f : NoticeQ → NoticeQ) : (s.updNq q f).pins = s.pins := (rfl)
@[simp] theorem State.updNq_ops (q : Nat) (f : NoticeQ → NoticeQ) : (s.updNq q f).ops = s.ops := (rfl)
@[simp] theorem State.updNq_nextOp (q : Nat) (f : NoticeQ → NoticeQ) : (s.updNq q f).nextOp = s.nextOp := (rfl)
@[simp] theorem State.updNq_jobs (q : Nat) (f : NoticeQ → NoticeQ) : (s.updNq q f).jobs = s.jobs := (rfl)
@[simp] theorem State.updNq_nextJob (q : Nat) (f : NoticeQ → NoticeQ) : (s.updNq q f).nextJob = s.nextJob := (rfl)
@[simp] theorem State.updNq_rebuilds (q : Nat) (f : NoticeQ → NoticeQ) : (s.updNq q f).rebuilds = s.rebuilds := (rfl)
@[simp] theorem State.updNq_comet (q : Nat) (f : NoticeQ → NoticeQ) : (s.updNq q f).comet = s.comet := (rfl)
@[simp] theorem State.updNq_cometHeld (q : Nat) (f : NoticeQ → NoticeQ) : (s.updNq q f).cometHeld = s.cometHeld := (rfl)
@[simp] theorem State.updNq_slotsUsed (q : Nat) (f : NoticeQ → NoticeQ) : (s.updNq q f).slotsUsed = s.slotsUsed := (rfl)
@[simp] theorem State.updNq_slcOkOnce (q : Nat) (f : NoticeQ → NoticeQ) : (s.updNq q f).slcOkOnce = s.slcOkOnce := (rfl)
@[simp] theorem State.updNq_codes (q : Nat) (f : NoticeQ → NoticeQ) : (s.updNq q f).codes = s.codes := (rfl)
@[simp] theorem State.updNq_codeErr (q : Nat) (f : NoticeQ → NoticeQ) : (s.updNq q f).codeErr = s.codeErr := (rfl)
@[simp] theorem State.updNq_cal (q : Nat) (f : NoticeQ → NoticeQ) : (s.updNq q f).cal = s.cal := (rfl)
@[simp] theorem State.updNq_calLast (q : Nat) (f : NoticeQ → NoticeQ) : (s.updNq q f).calLast = s.calLast := (rfl)
@[simp] theorem State.updNq_calSnapFrom (q : Nat) (f : NoticeQ → NoticeQ) : (s.updNq q f).calSnapFrom = s.calSnapFrom := (rfl)
@[simp] theorem State.updNq_prot (q : Nat) (f : NoticeQ → NoticeQ) : (s.updNq q f).prot = s.prot := (rfl)
@[simp] theorem State.updNq_chans (q : Nat) (f : NoticeQ → NoticeQ) : (s.updNq q f).chans = s.chans := (rfl)
@[simp] theorem State.updNq_dies (q : Nat) (f : NoticeQ → NoticeQ) : (s.updNq q f).dies = s.dies := (rfl)
@[simp] theorem State.updNq_clusters (q : Nat) (f : NoticeQ → NoticeQ) : (s.updNq q f).clusters = s.clusters := (rfl)
@[simp] theorem State.updNq_ctxs (q : Nat) (f : NoticeQ → NoticeQ) : (s.updNq q f).ctxs = s.ctxs := (rfl)
@[simp] theorem State.updNq_activation (q : Nat) (f : NoticeQ → NoticeQ) : (s.updNq q f).activation = s.activation := (rfl)
@[simp] theorem State.updNq_pools (q : Nat) (f : NoticeQ → NoticeQ) : (s.updNq q f).pools = s.pools := (rfl)
@[simp] theorem State.updNq_offered (q : Nat) (f : NoticeQ → NoticeQ) : (s.updNq q f).offered = s.offered := (rfl)
@[simp] theorem State.updNq_offers (q : Nat) (f : NoticeQ → NoticeQ) : (s.updNq q f).offers = s.offers := (rfl)
@[simp] theorem State.updNq_ce (q : Nat) (f : NoticeQ → NoticeQ) : (s.updNq q f).ce = s.ce := (rfl)
@[simp] theorem State.updNq_ceSlots (q : Nat) (f : NoticeQ → NoticeQ) : (s.updNq q f).ceSlots = s.ceSlots := (rfl)
@[simp] theorem State.updNq_ports (q : Nat) (f : NoticeQ → NoticeQ) : (s.updNq q f).ports = s.ports := (rfl)
@[simp] theorem State.updNq_ints (q : Nat) (f : NoticeQ → NoticeQ) : (s.updNq q f).ints = s.ints := (rfl)
@[simp] theorem State.updNq_procs (q : Nat) (f : NoticeQ → NoticeQ) : (s.updNq q f).procs = s.procs := (rfl)
@[simp] theorem State.updNq_xfers (q : Nat) (f : NoticeQ → NoticeQ) : (s.updNq q f).xfers = s.xfers := (rfl)
@[simp] theorem State.updNq_cfg (q : Nat) (f : NoticeQ → NoticeQ) : (s.updNq q f).cfg = s.cfg := (rfl)
@[simp] theorem State.updNq_fn (q : Nat) (f : NoticeQ → NoticeQ) : (s.updNq q f).fn = s.fn := (rfl)
@[simp] theorem State.updNq_frozen (q : Nat) (f : NoticeQ → NoticeQ) : (s.updNq q f).frozen = s.frozen := (rfl)
@[simp] theorem State.updNq_tlog (q : Nat) (f : NoticeQ → NoticeQ) : (s.updNq q f).tlog = s.tlog := (rfl)

/-! `updCe`. -/

@[simp] theorem State.updCe_pending (c : Nat) (f : CeChan → CeChan) : (s.updCe c f).pending = s.pending := (rfl)
@[simp] theorem State.updCe_build (c : Nat) (f : CeChan → CeChan) : (s.updCe c f).build = s.build := (rfl)
@[simp] theorem State.updCe_phase (c : Nat) (f : CeChan → CeChan) : (s.updCe c f).phase = s.phase := (rfl)
@[simp] theorem State.updCe_resetPor (c : Nat) (f : CeChan → CeChan) : (s.updCe c f).resetPor = s.resetPor := (rfl)
@[simp] theorem State.updCe_porLow (c : Nat) (f : CeChan → CeChan) : (s.updCe c f).porLow = s.porLow := (rfl)
@[simp] theorem State.updCe_blkLow (c : Nat) (f : CeChan → CeChan) : (s.updCe c f).blkLow = s.blkLow := (rfl)
@[simp] theorem State.updCe_lostAtReset (c : Nat) (f : CeChan → CeChan) : (s.updCe c f).lostAtReset = s.lostAtReset := (rfl)
@[simp] theorem State.updCe_trefKhz (c : Nat) (f : CeChan → CeChan) : (s.updCe c f).trefKhz = s.trefKhz := (rfl)
@[simp] theorem State.updCe_fnclkSel (c : Nat) (f : CeChan → CeChan) : (s.updCe c f).fnclkSel = s.fnclkSel := (rfl)
@[simp] theorem State.updCe_testMode (c : Nat) (f : CeChan → CeChan) : (s.updCe c f).testMode = s.testMode := (rfl)
@[simp] theorem State.updCe_mbistBusy (c : Nat) (f : CeChan → CeChan) : (s.updCe c f).mbistBusy = s.mbistBusy := (rfl)
@[simp] theorem State.updCe_mbistDone (c : Nat) (f : CeChan → CeChan) : (s.updCe c f).mbistDone = s.mbistDone := (rfl)
@[simp] theorem State.updCe_mbistFail (c : Nat) (f : CeChan → CeChan) : (s.updCe c f).mbistFail = s.mbistFail := (rfl)
@[simp] theorem State.updCe_tref (c : Nat) (f : CeChan → CeChan) : (s.updCe c f).tref = s.tref := (rfl)
@[simp] theorem State.updCe_freeN (c : Nat) (f : CeChan → CeChan) : (s.updCe c f).freeN = s.freeN := (rfl)
@[simp] theorem State.updCe_dict (c : Nat) (f : CeChan → CeChan) : (s.updCe c f).dict = s.dict := (rfl)
@[simp] theorem State.updCe_mem (c : Nat) (f : CeChan → CeChan) : (s.updCe c f).mem = s.mem := (rfl)
@[simp] theorem State.updCe_modes (c : Nat) (f : CeChan → CeChan) : (s.updCe c f).modes = s.modes := (rfl)
@[simp] theorem State.updCe_raster (c : Nat) (f : CeChan → CeChan) : (s.updCe c f).raster = s.raster := (rfl)
@[simp] theorem State.updCe_orbit (c : Nat) (f : CeChan → CeChan) : (s.updCe c f).orbit = s.orbit := (rfl)
@[simp] theorem State.updCe_streams (c : Nat) (f : CeChan → CeChan) : (s.updCe c f).streams = s.streams := (rfl)
@[simp] theorem State.updCe_link (c : Nat) (f : CeChan → CeChan) : (s.updCe c f).link = s.link := (rfl)
@[simp] theorem State.updCe_cmds (c : Nat) (f : CeChan → CeChan) : (s.updCe c f).cmds = s.cmds := (rfl)
@[simp] theorem State.updCe_stampNext (c : Nat) (f : CeChan → CeChan) : (s.updCe c f).stampNext = s.stampNext := (rfl)
@[simp] theorem State.updCe_seqWritten (c : Nat) (f : CeChan → CeChan) : (s.updCe c f).seqWritten = s.seqWritten := (rfl)
@[simp] theorem State.updCe_deferred (c : Nat) (f : CeChan → CeChan) : (s.updCe c f).deferred = s.deferred := (rfl)
@[simp] theorem State.updCe_deferNew (c : Nat) (f : CeChan → CeChan) : (s.updCe c f).deferNew = s.deferNew := (rfl)
@[simp] theorem State.updCe_versions (c : Nat) (f : CeChan → CeChan) : (s.updCe c f).versions = s.versions := (rfl)
@[simp] theorem State.updCe_nextVer (c : Nat) (f : CeChan → CeChan) : (s.updCe c f).nextVer = s.nextVer := (rfl)
@[simp] theorem State.updCe_hostCws (c : Nat) (f : CeChan → CeChan) : (s.updCe c f).hostCws = s.hostCws := (rfl)
@[simp] theorem State.updCe_origins (c : Nat) (f : CeChan → CeChan) : (s.updCe c f).origins = s.origins := (rfl)
@[simp] theorem State.updCe_sbs (c : Nat) (f : CeChan → CeChan) : (s.updCe c f).sbs = s.sbs := (rfl)
@[simp] theorem State.updCe_allocReqs (c : Nat) (f : CeChan → CeChan) : (s.updCe c f).allocReqs = s.allocReqs := (rfl)
@[simp] theorem State.updCe_walking (c : Nat) (f : CeChan → CeChan) : (s.updCe c f).walking = s.walking := (rfl)
@[simp] theorem State.updCe_running (c : Nat) (f : CeChan → CeChan) : (s.updCe c f).running = s.running := (rfl)
@[simp] theorem State.updCe_interimBlocks (c : Nat) (f : CeChan → CeChan) : (s.updCe c f).interimBlocks = s.interimBlocks := (rfl)
@[simp] theorem State.updCe_zeroFrom (c : Nat) (f : CeChan → CeChan) : (s.updCe c f).zeroFrom = s.zeroFrom := (rfl)
@[simp] theorem State.updCe_stallFrom (c : Nat) (f : CeChan → CeChan) : (s.updCe c f).stallFrom = s.stallFrom := (rfl)
@[simp] theorem State.updCe_lostDies (c : Nat) (f : CeChan → CeChan) : (s.updCe c f).lostDies = s.lostDies := (rfl)
@[simp] theorem State.updCe_tokens (c : Nat) (f : CeChan → CeChan) : (s.updCe c f).tokens = s.tokens := (rfl)
@[simp] theorem State.updCe_blockLocks (c : Nat) (f : CeChan → CeChan) : (s.updCe c f).blockLocks = s.blockLocks := (rfl)
@[simp] theorem State.updCe_pins (c : Nat) (f : CeChan → CeChan) : (s.updCe c f).pins = s.pins := (rfl)
@[simp] theorem State.updCe_ops (c : Nat) (f : CeChan → CeChan) : (s.updCe c f).ops = s.ops := (rfl)
@[simp] theorem State.updCe_nextOp (c : Nat) (f : CeChan → CeChan) : (s.updCe c f).nextOp = s.nextOp := (rfl)
@[simp] theorem State.updCe_jobs (c : Nat) (f : CeChan → CeChan) : (s.updCe c f).jobs = s.jobs := (rfl)
@[simp] theorem State.updCe_nextJob (c : Nat) (f : CeChan → CeChan) : (s.updCe c f).nextJob = s.nextJob := (rfl)
@[simp] theorem State.updCe_rebuilds (c : Nat) (f : CeChan → CeChan) : (s.updCe c f).rebuilds = s.rebuilds := (rfl)
@[simp] theorem State.updCe_comet (c : Nat) (f : CeChan → CeChan) : (s.updCe c f).comet = s.comet := (rfl)
@[simp] theorem State.updCe_cometHeld (c : Nat) (f : CeChan → CeChan) : (s.updCe c f).cometHeld = s.cometHeld := (rfl)
@[simp] theorem State.updCe_slotsUsed (c : Nat) (f : CeChan → CeChan) : (s.updCe c f).slotsUsed = s.slotsUsed := (rfl)
@[simp] theorem State.updCe_slcOkOnce (c : Nat) (f : CeChan → CeChan) : (s.updCe c f).slcOkOnce = s.slcOkOnce := (rfl)
@[simp] theorem State.updCe_codes (c : Nat) (f : CeChan → CeChan) : (s.updCe c f).codes = s.codes := (rfl)
@[simp] theorem State.updCe_codeErr (c : Nat) (f : CeChan → CeChan) : (s.updCe c f).codeErr = s.codeErr := (rfl)
@[simp] theorem State.updCe_cal (c : Nat) (f : CeChan → CeChan) : (s.updCe c f).cal = s.cal := (rfl)
@[simp] theorem State.updCe_calLast (c : Nat) (f : CeChan → CeChan) : (s.updCe c f).calLast = s.calLast := (rfl)
@[simp] theorem State.updCe_calSnapFrom (c : Nat) (f : CeChan → CeChan) : (s.updCe c f).calSnapFrom = s.calSnapFrom := (rfl)
@[simp] theorem State.updCe_prot (c : Nat) (f : CeChan → CeChan) : (s.updCe c f).prot = s.prot := (rfl)
@[simp] theorem State.updCe_chans (c : Nat) (f : CeChan → CeChan) : (s.updCe c f).chans = s.chans := (rfl)
@[simp] theorem State.updCe_dies (c : Nat) (f : CeChan → CeChan) : (s.updCe c f).dies = s.dies := (rfl)
@[simp] theorem State.updCe_clusters (c : Nat) (f : CeChan → CeChan) : (s.updCe c f).clusters = s.clusters := (rfl)
@[simp] theorem State.updCe_ctxs (c : Nat) (f : CeChan → CeChan) : (s.updCe c f).ctxs = s.ctxs := (rfl)
@[simp] theorem State.updCe_activation (c : Nat) (f : CeChan → CeChan) : (s.updCe c f).activation = s.activation := (rfl)
@[simp] theorem State.updCe_pools (c : Nat) (f : CeChan → CeChan) : (s.updCe c f).pools = s.pools := (rfl)
@[simp] theorem State.updCe_offered (c : Nat) (f : CeChan → CeChan) : (s.updCe c f).offered = s.offered := (rfl)
@[simp] theorem State.updCe_offers (c : Nat) (f : CeChan → CeChan) : (s.updCe c f).offers = s.offers := (rfl)
@[simp] theorem State.updCe_nqs (c : Nat) (f : CeChan → CeChan) : (s.updCe c f).nqs = s.nqs := (rfl)
@[simp] theorem State.updCe_ceSlots (c : Nat) (f : CeChan → CeChan) : (s.updCe c f).ceSlots = s.ceSlots := (rfl)
@[simp] theorem State.updCe_ports (c : Nat) (f : CeChan → CeChan) : (s.updCe c f).ports = s.ports := (rfl)
@[simp] theorem State.updCe_ints (c : Nat) (f : CeChan → CeChan) : (s.updCe c f).ints = s.ints := (rfl)
@[simp] theorem State.updCe_procs (c : Nat) (f : CeChan → CeChan) : (s.updCe c f).procs = s.procs := (rfl)
@[simp] theorem State.updCe_xfers (c : Nat) (f : CeChan → CeChan) : (s.updCe c f).xfers = s.xfers := (rfl)
@[simp] theorem State.updCe_cfg (c : Nat) (f : CeChan → CeChan) : (s.updCe c f).cfg = s.cfg := (rfl)
@[simp] theorem State.updCe_fn (c : Nat) (f : CeChan → CeChan) : (s.updCe c f).fn = s.fn := (rfl)
@[simp] theorem State.updCe_frozen (c : Nat) (f : CeChan → CeChan) : (s.updCe c f).frozen = s.frozen := (rfl)
@[simp] theorem State.updCe_tlog (c : Nat) (f : CeChan → CeChan) : (s.updCe c f).tlog = s.tlog := (rfl)

/-! `updPort`. -/

@[simp] theorem State.updPort_pending (n : Nat) (f : MpPort → MpPort) : (s.updPort n f).pending = s.pending := (rfl)
@[simp] theorem State.updPort_build (n : Nat) (f : MpPort → MpPort) : (s.updPort n f).build = s.build := (rfl)
@[simp] theorem State.updPort_phase (n : Nat) (f : MpPort → MpPort) : (s.updPort n f).phase = s.phase := (rfl)
@[simp] theorem State.updPort_resetPor (n : Nat) (f : MpPort → MpPort) : (s.updPort n f).resetPor = s.resetPor := (rfl)
@[simp] theorem State.updPort_porLow (n : Nat) (f : MpPort → MpPort) : (s.updPort n f).porLow = s.porLow := (rfl)
@[simp] theorem State.updPort_blkLow (n : Nat) (f : MpPort → MpPort) : (s.updPort n f).blkLow = s.blkLow := (rfl)
@[simp] theorem State.updPort_lostAtReset (n : Nat) (f : MpPort → MpPort) : (s.updPort n f).lostAtReset = s.lostAtReset := (rfl)
@[simp] theorem State.updPort_trefKhz (n : Nat) (f : MpPort → MpPort) : (s.updPort n f).trefKhz = s.trefKhz := (rfl)
@[simp] theorem State.updPort_fnclkSel (n : Nat) (f : MpPort → MpPort) : (s.updPort n f).fnclkSel = s.fnclkSel := (rfl)
@[simp] theorem State.updPort_testMode (n : Nat) (f : MpPort → MpPort) : (s.updPort n f).testMode = s.testMode := (rfl)
@[simp] theorem State.updPort_mbistBusy (n : Nat) (f : MpPort → MpPort) : (s.updPort n f).mbistBusy = s.mbistBusy := (rfl)
@[simp] theorem State.updPort_mbistDone (n : Nat) (f : MpPort → MpPort) : (s.updPort n f).mbistDone = s.mbistDone := (rfl)
@[simp] theorem State.updPort_mbistFail (n : Nat) (f : MpPort → MpPort) : (s.updPort n f).mbistFail = s.mbistFail := (rfl)
@[simp] theorem State.updPort_tref (n : Nat) (f : MpPort → MpPort) : (s.updPort n f).tref = s.tref := (rfl)
@[simp] theorem State.updPort_freeN (n : Nat) (f : MpPort → MpPort) : (s.updPort n f).freeN = s.freeN := (rfl)
@[simp] theorem State.updPort_dict (n : Nat) (f : MpPort → MpPort) : (s.updPort n f).dict = s.dict := (rfl)
@[simp] theorem State.updPort_mem (n : Nat) (f : MpPort → MpPort) : (s.updPort n f).mem = s.mem := (rfl)
@[simp] theorem State.updPort_modes (n : Nat) (f : MpPort → MpPort) : (s.updPort n f).modes = s.modes := (rfl)
@[simp] theorem State.updPort_raster (n : Nat) (f : MpPort → MpPort) : (s.updPort n f).raster = s.raster := (rfl)
@[simp] theorem State.updPort_orbit (n : Nat) (f : MpPort → MpPort) : (s.updPort n f).orbit = s.orbit := (rfl)
@[simp] theorem State.updPort_streams (n : Nat) (f : MpPort → MpPort) : (s.updPort n f).streams = s.streams := (rfl)
@[simp] theorem State.updPort_link (n : Nat) (f : MpPort → MpPort) : (s.updPort n f).link = s.link := (rfl)
@[simp] theorem State.updPort_cmds (n : Nat) (f : MpPort → MpPort) : (s.updPort n f).cmds = s.cmds := (rfl)
@[simp] theorem State.updPort_stampNext (n : Nat) (f : MpPort → MpPort) : (s.updPort n f).stampNext = s.stampNext := (rfl)
@[simp] theorem State.updPort_seqWritten (n : Nat) (f : MpPort → MpPort) : (s.updPort n f).seqWritten = s.seqWritten := (rfl)
@[simp] theorem State.updPort_deferred (n : Nat) (f : MpPort → MpPort) : (s.updPort n f).deferred = s.deferred := (rfl)
@[simp] theorem State.updPort_deferNew (n : Nat) (f : MpPort → MpPort) : (s.updPort n f).deferNew = s.deferNew := (rfl)
@[simp] theorem State.updPort_versions (n : Nat) (f : MpPort → MpPort) : (s.updPort n f).versions = s.versions := (rfl)
@[simp] theorem State.updPort_nextVer (n : Nat) (f : MpPort → MpPort) : (s.updPort n f).nextVer = s.nextVer := (rfl)
@[simp] theorem State.updPort_hostCws (n : Nat) (f : MpPort → MpPort) : (s.updPort n f).hostCws = s.hostCws := (rfl)
@[simp] theorem State.updPort_origins (n : Nat) (f : MpPort → MpPort) : (s.updPort n f).origins = s.origins := (rfl)
@[simp] theorem State.updPort_sbs (n : Nat) (f : MpPort → MpPort) : (s.updPort n f).sbs = s.sbs := (rfl)
@[simp] theorem State.updPort_allocReqs (n : Nat) (f : MpPort → MpPort) : (s.updPort n f).allocReqs = s.allocReqs := (rfl)
@[simp] theorem State.updPort_walking (n : Nat) (f : MpPort → MpPort) : (s.updPort n f).walking = s.walking := (rfl)
@[simp] theorem State.updPort_running (n : Nat) (f : MpPort → MpPort) : (s.updPort n f).running = s.running := (rfl)
@[simp] theorem State.updPort_interimBlocks (n : Nat) (f : MpPort → MpPort) : (s.updPort n f).interimBlocks = s.interimBlocks := (rfl)
@[simp] theorem State.updPort_zeroFrom (n : Nat) (f : MpPort → MpPort) : (s.updPort n f).zeroFrom = s.zeroFrom := (rfl)
@[simp] theorem State.updPort_stallFrom (n : Nat) (f : MpPort → MpPort) : (s.updPort n f).stallFrom = s.stallFrom := (rfl)
@[simp] theorem State.updPort_lostDies (n : Nat) (f : MpPort → MpPort) : (s.updPort n f).lostDies = s.lostDies := (rfl)
@[simp] theorem State.updPort_tokens (n : Nat) (f : MpPort → MpPort) : (s.updPort n f).tokens = s.tokens := (rfl)
@[simp] theorem State.updPort_blockLocks (n : Nat) (f : MpPort → MpPort) : (s.updPort n f).blockLocks = s.blockLocks := (rfl)
@[simp] theorem State.updPort_pins (n : Nat) (f : MpPort → MpPort) : (s.updPort n f).pins = s.pins := (rfl)
@[simp] theorem State.updPort_ops (n : Nat) (f : MpPort → MpPort) : (s.updPort n f).ops = s.ops := (rfl)
@[simp] theorem State.updPort_nextOp (n : Nat) (f : MpPort → MpPort) : (s.updPort n f).nextOp = s.nextOp := (rfl)
@[simp] theorem State.updPort_jobs (n : Nat) (f : MpPort → MpPort) : (s.updPort n f).jobs = s.jobs := (rfl)
@[simp] theorem State.updPort_nextJob (n : Nat) (f : MpPort → MpPort) : (s.updPort n f).nextJob = s.nextJob := (rfl)
@[simp] theorem State.updPort_rebuilds (n : Nat) (f : MpPort → MpPort) : (s.updPort n f).rebuilds = s.rebuilds := (rfl)
@[simp] theorem State.updPort_comet (n : Nat) (f : MpPort → MpPort) : (s.updPort n f).comet = s.comet := (rfl)
@[simp] theorem State.updPort_cometHeld (n : Nat) (f : MpPort → MpPort) : (s.updPort n f).cometHeld = s.cometHeld := (rfl)
@[simp] theorem State.updPort_slotsUsed (n : Nat) (f : MpPort → MpPort) : (s.updPort n f).slotsUsed = s.slotsUsed := (rfl)
@[simp] theorem State.updPort_slcOkOnce (n : Nat) (f : MpPort → MpPort) : (s.updPort n f).slcOkOnce = s.slcOkOnce := (rfl)
@[simp] theorem State.updPort_codes (n : Nat) (f : MpPort → MpPort) : (s.updPort n f).codes = s.codes := (rfl)
@[simp] theorem State.updPort_codeErr (n : Nat) (f : MpPort → MpPort) : (s.updPort n f).codeErr = s.codeErr := (rfl)
@[simp] theorem State.updPort_cal (n : Nat) (f : MpPort → MpPort) : (s.updPort n f).cal = s.cal := (rfl)
@[simp] theorem State.updPort_calLast (n : Nat) (f : MpPort → MpPort) : (s.updPort n f).calLast = s.calLast := (rfl)
@[simp] theorem State.updPort_calSnapFrom (n : Nat) (f : MpPort → MpPort) : (s.updPort n f).calSnapFrom = s.calSnapFrom := (rfl)
@[simp] theorem State.updPort_prot (n : Nat) (f : MpPort → MpPort) : (s.updPort n f).prot = s.prot := (rfl)
@[simp] theorem State.updPort_chans (n : Nat) (f : MpPort → MpPort) : (s.updPort n f).chans = s.chans := (rfl)
@[simp] theorem State.updPort_dies (n : Nat) (f : MpPort → MpPort) : (s.updPort n f).dies = s.dies := (rfl)
@[simp] theorem State.updPort_clusters (n : Nat) (f : MpPort → MpPort) : (s.updPort n f).clusters = s.clusters := (rfl)
@[simp] theorem State.updPort_ctxs (n : Nat) (f : MpPort → MpPort) : (s.updPort n f).ctxs = s.ctxs := (rfl)
@[simp] theorem State.updPort_activation (n : Nat) (f : MpPort → MpPort) : (s.updPort n f).activation = s.activation := (rfl)
@[simp] theorem State.updPort_pools (n : Nat) (f : MpPort → MpPort) : (s.updPort n f).pools = s.pools := (rfl)
@[simp] theorem State.updPort_offered (n : Nat) (f : MpPort → MpPort) : (s.updPort n f).offered = s.offered := (rfl)
@[simp] theorem State.updPort_offers (n : Nat) (f : MpPort → MpPort) : (s.updPort n f).offers = s.offers := (rfl)
@[simp] theorem State.updPort_nqs (n : Nat) (f : MpPort → MpPort) : (s.updPort n f).nqs = s.nqs := (rfl)
@[simp] theorem State.updPort_ce (n : Nat) (f : MpPort → MpPort) : (s.updPort n f).ce = s.ce := (rfl)
@[simp] theorem State.updPort_ceSlots (n : Nat) (f : MpPort → MpPort) : (s.updPort n f).ceSlots = s.ceSlots := (rfl)
@[simp] theorem State.updPort_ints (n : Nat) (f : MpPort → MpPort) : (s.updPort n f).ints = s.ints := (rfl)
@[simp] theorem State.updPort_procs (n : Nat) (f : MpPort → MpPort) : (s.updPort n f).procs = s.procs := (rfl)
@[simp] theorem State.updPort_xfers (n : Nat) (f : MpPort → MpPort) : (s.updPort n f).xfers = s.xfers := (rfl)
@[simp] theorem State.updPort_cfg (n : Nat) (f : MpPort → MpPort) : (s.updPort n f).cfg = s.cfg := (rfl)
@[simp] theorem State.updPort_fn (n : Nat) (f : MpPort → MpPort) : (s.updPort n f).fn = s.fn := (rfl)
@[simp] theorem State.updPort_frozen (n : Nat) (f : MpPort → MpPort) : (s.updPort n f).frozen = s.frozen := (rfl)
@[simp] theorem State.updPort_tlog (n : Nat) (f : MpPort → MpPort) : (s.updPort n f).tlog = s.tlog := (rfl)

/-! `updCal`. -/

@[simp] theorem State.updCal_pending (d : Nat) (f : CalDie → CalDie) : (s.updCal d f).pending = s.pending := (rfl)
@[simp] theorem State.updCal_build (d : Nat) (f : CalDie → CalDie) : (s.updCal d f).build = s.build := (rfl)
@[simp] theorem State.updCal_phase (d : Nat) (f : CalDie → CalDie) : (s.updCal d f).phase = s.phase := (rfl)
@[simp] theorem State.updCal_resetPor (d : Nat) (f : CalDie → CalDie) : (s.updCal d f).resetPor = s.resetPor := (rfl)
@[simp] theorem State.updCal_porLow (d : Nat) (f : CalDie → CalDie) : (s.updCal d f).porLow = s.porLow := (rfl)
@[simp] theorem State.updCal_blkLow (d : Nat) (f : CalDie → CalDie) : (s.updCal d f).blkLow = s.blkLow := (rfl)
@[simp] theorem State.updCal_lostAtReset (d : Nat) (f : CalDie → CalDie) : (s.updCal d f).lostAtReset = s.lostAtReset := (rfl)
@[simp] theorem State.updCal_trefKhz (d : Nat) (f : CalDie → CalDie) : (s.updCal d f).trefKhz = s.trefKhz := (rfl)
@[simp] theorem State.updCal_fnclkSel (d : Nat) (f : CalDie → CalDie) : (s.updCal d f).fnclkSel = s.fnclkSel := (rfl)
@[simp] theorem State.updCal_testMode (d : Nat) (f : CalDie → CalDie) : (s.updCal d f).testMode = s.testMode := (rfl)
@[simp] theorem State.updCal_mbistBusy (d : Nat) (f : CalDie → CalDie) : (s.updCal d f).mbistBusy = s.mbistBusy := (rfl)
@[simp] theorem State.updCal_mbistDone (d : Nat) (f : CalDie → CalDie) : (s.updCal d f).mbistDone = s.mbistDone := (rfl)
@[simp] theorem State.updCal_mbistFail (d : Nat) (f : CalDie → CalDie) : (s.updCal d f).mbistFail = s.mbistFail := (rfl)
@[simp] theorem State.updCal_tref (d : Nat) (f : CalDie → CalDie) : (s.updCal d f).tref = s.tref := (rfl)
@[simp] theorem State.updCal_freeN (d : Nat) (f : CalDie → CalDie) : (s.updCal d f).freeN = s.freeN := (rfl)
@[simp] theorem State.updCal_dict (d : Nat) (f : CalDie → CalDie) : (s.updCal d f).dict = s.dict := (rfl)
@[simp] theorem State.updCal_mem (d : Nat) (f : CalDie → CalDie) : (s.updCal d f).mem = s.mem := (rfl)
@[simp] theorem State.updCal_modes (d : Nat) (f : CalDie → CalDie) : (s.updCal d f).modes = s.modes := (rfl)
@[simp] theorem State.updCal_raster (d : Nat) (f : CalDie → CalDie) : (s.updCal d f).raster = s.raster := (rfl)
@[simp] theorem State.updCal_orbit (d : Nat) (f : CalDie → CalDie) : (s.updCal d f).orbit = s.orbit := (rfl)
@[simp] theorem State.updCal_streams (d : Nat) (f : CalDie → CalDie) : (s.updCal d f).streams = s.streams := (rfl)
@[simp] theorem State.updCal_link (d : Nat) (f : CalDie → CalDie) : (s.updCal d f).link = s.link := (rfl)
@[simp] theorem State.updCal_cmds (d : Nat) (f : CalDie → CalDie) : (s.updCal d f).cmds = s.cmds := (rfl)
@[simp] theorem State.updCal_stampNext (d : Nat) (f : CalDie → CalDie) : (s.updCal d f).stampNext = s.stampNext := (rfl)
@[simp] theorem State.updCal_seqWritten (d : Nat) (f : CalDie → CalDie) : (s.updCal d f).seqWritten = s.seqWritten := (rfl)
@[simp] theorem State.updCal_deferred (d : Nat) (f : CalDie → CalDie) : (s.updCal d f).deferred = s.deferred := (rfl)
@[simp] theorem State.updCal_deferNew (d : Nat) (f : CalDie → CalDie) : (s.updCal d f).deferNew = s.deferNew := (rfl)
@[simp] theorem State.updCal_versions (d : Nat) (f : CalDie → CalDie) : (s.updCal d f).versions = s.versions := (rfl)
@[simp] theorem State.updCal_nextVer (d : Nat) (f : CalDie → CalDie) : (s.updCal d f).nextVer = s.nextVer := (rfl)
@[simp] theorem State.updCal_hostCws (d : Nat) (f : CalDie → CalDie) : (s.updCal d f).hostCws = s.hostCws := (rfl)
@[simp] theorem State.updCal_origins (d : Nat) (f : CalDie → CalDie) : (s.updCal d f).origins = s.origins := (rfl)
@[simp] theorem State.updCal_sbs (d : Nat) (f : CalDie → CalDie) : (s.updCal d f).sbs = s.sbs := (rfl)
@[simp] theorem State.updCal_allocReqs (d : Nat) (f : CalDie → CalDie) : (s.updCal d f).allocReqs = s.allocReqs := (rfl)
@[simp] theorem State.updCal_walking (d : Nat) (f : CalDie → CalDie) : (s.updCal d f).walking = s.walking := (rfl)
@[simp] theorem State.updCal_running (d : Nat) (f : CalDie → CalDie) : (s.updCal d f).running = s.running := (rfl)
@[simp] theorem State.updCal_interimBlocks (d : Nat) (f : CalDie → CalDie) : (s.updCal d f).interimBlocks = s.interimBlocks := (rfl)
@[simp] theorem State.updCal_zeroFrom (d : Nat) (f : CalDie → CalDie) : (s.updCal d f).zeroFrom = s.zeroFrom := (rfl)
@[simp] theorem State.updCal_stallFrom (d : Nat) (f : CalDie → CalDie) : (s.updCal d f).stallFrom = s.stallFrom := (rfl)
@[simp] theorem State.updCal_lostDies (d : Nat) (f : CalDie → CalDie) : (s.updCal d f).lostDies = s.lostDies := (rfl)
@[simp] theorem State.updCal_tokens (d : Nat) (f : CalDie → CalDie) : (s.updCal d f).tokens = s.tokens := (rfl)
@[simp] theorem State.updCal_blockLocks (d : Nat) (f : CalDie → CalDie) : (s.updCal d f).blockLocks = s.blockLocks := (rfl)
@[simp] theorem State.updCal_pins (d : Nat) (f : CalDie → CalDie) : (s.updCal d f).pins = s.pins := (rfl)
@[simp] theorem State.updCal_ops (d : Nat) (f : CalDie → CalDie) : (s.updCal d f).ops = s.ops := (rfl)
@[simp] theorem State.updCal_nextOp (d : Nat) (f : CalDie → CalDie) : (s.updCal d f).nextOp = s.nextOp := (rfl)
@[simp] theorem State.updCal_jobs (d : Nat) (f : CalDie → CalDie) : (s.updCal d f).jobs = s.jobs := (rfl)
@[simp] theorem State.updCal_nextJob (d : Nat) (f : CalDie → CalDie) : (s.updCal d f).nextJob = s.nextJob := (rfl)
@[simp] theorem State.updCal_rebuilds (d : Nat) (f : CalDie → CalDie) : (s.updCal d f).rebuilds = s.rebuilds := (rfl)
@[simp] theorem State.updCal_comet (d : Nat) (f : CalDie → CalDie) : (s.updCal d f).comet = s.comet := (rfl)
@[simp] theorem State.updCal_cometHeld (d : Nat) (f : CalDie → CalDie) : (s.updCal d f).cometHeld = s.cometHeld := (rfl)
@[simp] theorem State.updCal_slotsUsed (d : Nat) (f : CalDie → CalDie) : (s.updCal d f).slotsUsed = s.slotsUsed := (rfl)
@[simp] theorem State.updCal_slcOkOnce (d : Nat) (f : CalDie → CalDie) : (s.updCal d f).slcOkOnce = s.slcOkOnce := (rfl)
@[simp] theorem State.updCal_codes (d : Nat) (f : CalDie → CalDie) : (s.updCal d f).codes = s.codes := (rfl)
@[simp] theorem State.updCal_codeErr (d : Nat) (f : CalDie → CalDie) : (s.updCal d f).codeErr = s.codeErr := (rfl)
@[simp] theorem State.updCal_calLast (d : Nat) (f : CalDie → CalDie) : (s.updCal d f).calLast = s.calLast := (rfl)
@[simp] theorem State.updCal_calSnapFrom (d : Nat) (f : CalDie → CalDie) : (s.updCal d f).calSnapFrom = s.calSnapFrom := (rfl)
@[simp] theorem State.updCal_prot (d : Nat) (f : CalDie → CalDie) : (s.updCal d f).prot = s.prot := (rfl)
@[simp] theorem State.updCal_chans (d : Nat) (f : CalDie → CalDie) : (s.updCal d f).chans = s.chans := (rfl)
@[simp] theorem State.updCal_dies (d : Nat) (f : CalDie → CalDie) : (s.updCal d f).dies = s.dies := (rfl)
@[simp] theorem State.updCal_clusters (d : Nat) (f : CalDie → CalDie) : (s.updCal d f).clusters = s.clusters := (rfl)
@[simp] theorem State.updCal_ctxs (d : Nat) (f : CalDie → CalDie) : (s.updCal d f).ctxs = s.ctxs := (rfl)
@[simp] theorem State.updCal_activation (d : Nat) (f : CalDie → CalDie) : (s.updCal d f).activation = s.activation := (rfl)
@[simp] theorem State.updCal_pools (d : Nat) (f : CalDie → CalDie) : (s.updCal d f).pools = s.pools := (rfl)
@[simp] theorem State.updCal_offered (d : Nat) (f : CalDie → CalDie) : (s.updCal d f).offered = s.offered := (rfl)
@[simp] theorem State.updCal_offers (d : Nat) (f : CalDie → CalDie) : (s.updCal d f).offers = s.offers := (rfl)
@[simp] theorem State.updCal_nqs (d : Nat) (f : CalDie → CalDie) : (s.updCal d f).nqs = s.nqs := (rfl)
@[simp] theorem State.updCal_ce (d : Nat) (f : CalDie → CalDie) : (s.updCal d f).ce = s.ce := (rfl)
@[simp] theorem State.updCal_ceSlots (d : Nat) (f : CalDie → CalDie) : (s.updCal d f).ceSlots = s.ceSlots := (rfl)
@[simp] theorem State.updCal_ports (d : Nat) (f : CalDie → CalDie) : (s.updCal d f).ports = s.ports := (rfl)
@[simp] theorem State.updCal_ints (d : Nat) (f : CalDie → CalDie) : (s.updCal d f).ints = s.ints := (rfl)
@[simp] theorem State.updCal_procs (d : Nat) (f : CalDie → CalDie) : (s.updCal d f).procs = s.procs := (rfl)
@[simp] theorem State.updCal_xfers (d : Nat) (f : CalDie → CalDie) : (s.updCal d f).xfers = s.xfers := (rfl)
@[simp] theorem State.updCal_cfg (d : Nat) (f : CalDie → CalDie) : (s.updCal d f).cfg = s.cfg := (rfl)
@[simp] theorem State.updCal_fn (d : Nat) (f : CalDie → CalDie) : (s.updCal d f).fn = s.fn := (rfl)
@[simp] theorem State.updCal_frozen (d : Nat) (f : CalDie → CalDie) : (s.updCal d f).frozen = s.frozen := (rfl)
@[simp] theorem State.updCal_tlog (d : Nat) (f : CalDie → CalDie) : (s.updCal d f).tlog = s.tlog := (rfl)

/-! `updChan`. -/

@[simp] theorem State.updChan_pending (n : Nat) (f : Chan → Chan) : (s.updChan n f).pending = s.pending := (rfl)
@[simp] theorem State.updChan_build (n : Nat) (f : Chan → Chan) : (s.updChan n f).build = s.build := (rfl)
@[simp] theorem State.updChan_phase (n : Nat) (f : Chan → Chan) : (s.updChan n f).phase = s.phase := (rfl)
@[simp] theorem State.updChan_resetPor (n : Nat) (f : Chan → Chan) : (s.updChan n f).resetPor = s.resetPor := (rfl)
@[simp] theorem State.updChan_porLow (n : Nat) (f : Chan → Chan) : (s.updChan n f).porLow = s.porLow := (rfl)
@[simp] theorem State.updChan_blkLow (n : Nat) (f : Chan → Chan) : (s.updChan n f).blkLow = s.blkLow := (rfl)
@[simp] theorem State.updChan_lostAtReset (n : Nat) (f : Chan → Chan) : (s.updChan n f).lostAtReset = s.lostAtReset := (rfl)
@[simp] theorem State.updChan_trefKhz (n : Nat) (f : Chan → Chan) : (s.updChan n f).trefKhz = s.trefKhz := (rfl)
@[simp] theorem State.updChan_fnclkSel (n : Nat) (f : Chan → Chan) : (s.updChan n f).fnclkSel = s.fnclkSel := (rfl)
@[simp] theorem State.updChan_testMode (n : Nat) (f : Chan → Chan) : (s.updChan n f).testMode = s.testMode := (rfl)
@[simp] theorem State.updChan_mbistBusy (n : Nat) (f : Chan → Chan) : (s.updChan n f).mbistBusy = s.mbistBusy := (rfl)
@[simp] theorem State.updChan_mbistDone (n : Nat) (f : Chan → Chan) : (s.updChan n f).mbistDone = s.mbistDone := (rfl)
@[simp] theorem State.updChan_mbistFail (n : Nat) (f : Chan → Chan) : (s.updChan n f).mbistFail = s.mbistFail := (rfl)
@[simp] theorem State.updChan_tref (n : Nat) (f : Chan → Chan) : (s.updChan n f).tref = s.tref := (rfl)
@[simp] theorem State.updChan_freeN (n : Nat) (f : Chan → Chan) : (s.updChan n f).freeN = s.freeN := (rfl)
@[simp] theorem State.updChan_dict (n : Nat) (f : Chan → Chan) : (s.updChan n f).dict = s.dict := (rfl)
@[simp] theorem State.updChan_mem (n : Nat) (f : Chan → Chan) : (s.updChan n f).mem = s.mem := (rfl)
@[simp] theorem State.updChan_modes (n : Nat) (f : Chan → Chan) : (s.updChan n f).modes = s.modes := (rfl)
@[simp] theorem State.updChan_raster (n : Nat) (f : Chan → Chan) : (s.updChan n f).raster = s.raster := (rfl)
@[simp] theorem State.updChan_orbit (n : Nat) (f : Chan → Chan) : (s.updChan n f).orbit = s.orbit := (rfl)
@[simp] theorem State.updChan_streams (n : Nat) (f : Chan → Chan) : (s.updChan n f).streams = s.streams := (rfl)
@[simp] theorem State.updChan_link (n : Nat) (f : Chan → Chan) : (s.updChan n f).link = s.link := (rfl)
@[simp] theorem State.updChan_cmds (n : Nat) (f : Chan → Chan) : (s.updChan n f).cmds = s.cmds := (rfl)
@[simp] theorem State.updChan_stampNext (n : Nat) (f : Chan → Chan) : (s.updChan n f).stampNext = s.stampNext := (rfl)
@[simp] theorem State.updChan_seqWritten (n : Nat) (f : Chan → Chan) : (s.updChan n f).seqWritten = s.seqWritten := (rfl)
@[simp] theorem State.updChan_deferred (n : Nat) (f : Chan → Chan) : (s.updChan n f).deferred = s.deferred := (rfl)
@[simp] theorem State.updChan_deferNew (n : Nat) (f : Chan → Chan) : (s.updChan n f).deferNew = s.deferNew := (rfl)
@[simp] theorem State.updChan_versions (n : Nat) (f : Chan → Chan) : (s.updChan n f).versions = s.versions := (rfl)
@[simp] theorem State.updChan_nextVer (n : Nat) (f : Chan → Chan) : (s.updChan n f).nextVer = s.nextVer := (rfl)
@[simp] theorem State.updChan_hostCws (n : Nat) (f : Chan → Chan) : (s.updChan n f).hostCws = s.hostCws := (rfl)
@[simp] theorem State.updChan_origins (n : Nat) (f : Chan → Chan) : (s.updChan n f).origins = s.origins := (rfl)
@[simp] theorem State.updChan_sbs (n : Nat) (f : Chan → Chan) : (s.updChan n f).sbs = s.sbs := (rfl)
@[simp] theorem State.updChan_allocReqs (n : Nat) (f : Chan → Chan) : (s.updChan n f).allocReqs = s.allocReqs := (rfl)
@[simp] theorem State.updChan_walking (n : Nat) (f : Chan → Chan) : (s.updChan n f).walking = s.walking := (rfl)
@[simp] theorem State.updChan_running (n : Nat) (f : Chan → Chan) : (s.updChan n f).running = s.running := (rfl)
@[simp] theorem State.updChan_interimBlocks (n : Nat) (f : Chan → Chan) : (s.updChan n f).interimBlocks = s.interimBlocks := (rfl)
@[simp] theorem State.updChan_zeroFrom (n : Nat) (f : Chan → Chan) : (s.updChan n f).zeroFrom = s.zeroFrom := (rfl)
@[simp] theorem State.updChan_stallFrom (n : Nat) (f : Chan → Chan) : (s.updChan n f).stallFrom = s.stallFrom := (rfl)
@[simp] theorem State.updChan_lostDies (n : Nat) (f : Chan → Chan) : (s.updChan n f).lostDies = s.lostDies := (rfl)
@[simp] theorem State.updChan_tokens (n : Nat) (f : Chan → Chan) : (s.updChan n f).tokens = s.tokens := (rfl)
@[simp] theorem State.updChan_blockLocks (n : Nat) (f : Chan → Chan) : (s.updChan n f).blockLocks = s.blockLocks := (rfl)
@[simp] theorem State.updChan_pins (n : Nat) (f : Chan → Chan) : (s.updChan n f).pins = s.pins := (rfl)
@[simp] theorem State.updChan_ops (n : Nat) (f : Chan → Chan) : (s.updChan n f).ops = s.ops := (rfl)
@[simp] theorem State.updChan_nextOp (n : Nat) (f : Chan → Chan) : (s.updChan n f).nextOp = s.nextOp := (rfl)
@[simp] theorem State.updChan_jobs (n : Nat) (f : Chan → Chan) : (s.updChan n f).jobs = s.jobs := (rfl)
@[simp] theorem State.updChan_nextJob (n : Nat) (f : Chan → Chan) : (s.updChan n f).nextJob = s.nextJob := (rfl)
@[simp] theorem State.updChan_rebuilds (n : Nat) (f : Chan → Chan) : (s.updChan n f).rebuilds = s.rebuilds := (rfl)
@[simp] theorem State.updChan_comet (n : Nat) (f : Chan → Chan) : (s.updChan n f).comet = s.comet := (rfl)
@[simp] theorem State.updChan_cometHeld (n : Nat) (f : Chan → Chan) : (s.updChan n f).cometHeld = s.cometHeld := (rfl)
@[simp] theorem State.updChan_slotsUsed (n : Nat) (f : Chan → Chan) : (s.updChan n f).slotsUsed = s.slotsUsed := (rfl)
@[simp] theorem State.updChan_slcOkOnce (n : Nat) (f : Chan → Chan) : (s.updChan n f).slcOkOnce = s.slcOkOnce := (rfl)
@[simp] theorem State.updChan_codes (n : Nat) (f : Chan → Chan) : (s.updChan n f).codes = s.codes := (rfl)
@[simp] theorem State.updChan_codeErr (n : Nat) (f : Chan → Chan) : (s.updChan n f).codeErr = s.codeErr := (rfl)
@[simp] theorem State.updChan_cal (n : Nat) (f : Chan → Chan) : (s.updChan n f).cal = s.cal := (rfl)
@[simp] theorem State.updChan_calLast (n : Nat) (f : Chan → Chan) : (s.updChan n f).calLast = s.calLast := (rfl)
@[simp] theorem State.updChan_calSnapFrom (n : Nat) (f : Chan → Chan) : (s.updChan n f).calSnapFrom = s.calSnapFrom := (rfl)
@[simp] theorem State.updChan_prot (n : Nat) (f : Chan → Chan) : (s.updChan n f).prot = s.prot := (rfl)
@[simp] theorem State.updChan_dies (n : Nat) (f : Chan → Chan) : (s.updChan n f).dies = s.dies := (rfl)
@[simp] theorem State.updChan_clusters (n : Nat) (f : Chan → Chan) : (s.updChan n f).clusters = s.clusters := (rfl)
@[simp] theorem State.updChan_ctxs (n : Nat) (f : Chan → Chan) : (s.updChan n f).ctxs = s.ctxs := (rfl)
@[simp] theorem State.updChan_activation (n : Nat) (f : Chan → Chan) : (s.updChan n f).activation = s.activation := (rfl)
@[simp] theorem State.updChan_pools (n : Nat) (f : Chan → Chan) : (s.updChan n f).pools = s.pools := (rfl)
@[simp] theorem State.updChan_offered (n : Nat) (f : Chan → Chan) : (s.updChan n f).offered = s.offered := (rfl)
@[simp] theorem State.updChan_offers (n : Nat) (f : Chan → Chan) : (s.updChan n f).offers = s.offers := (rfl)
@[simp] theorem State.updChan_nqs (n : Nat) (f : Chan → Chan) : (s.updChan n f).nqs = s.nqs := (rfl)
@[simp] theorem State.updChan_ce (n : Nat) (f : Chan → Chan) : (s.updChan n f).ce = s.ce := (rfl)
@[simp] theorem State.updChan_ceSlots (n : Nat) (f : Chan → Chan) : (s.updChan n f).ceSlots = s.ceSlots := (rfl)
@[simp] theorem State.updChan_ports (n : Nat) (f : Chan → Chan) : (s.updChan n f).ports = s.ports := (rfl)
@[simp] theorem State.updChan_ints (n : Nat) (f : Chan → Chan) : (s.updChan n f).ints = s.ints := (rfl)
@[simp] theorem State.updChan_procs (n : Nat) (f : Chan → Chan) : (s.updChan n f).procs = s.procs := (rfl)
@[simp] theorem State.updChan_xfers (n : Nat) (f : Chan → Chan) : (s.updChan n f).xfers = s.xfers := (rfl)
@[simp] theorem State.updChan_cfg (n : Nat) (f : Chan → Chan) : (s.updChan n f).cfg = s.cfg := (rfl)
@[simp] theorem State.updChan_fn (n : Nat) (f : Chan → Chan) : (s.updChan n f).fn = s.fn := (rfl)
@[simp] theorem State.updChan_frozen (n : Nat) (f : Chan → Chan) : (s.updChan n f).frozen = s.frozen := (rfl)
@[simp] theorem State.updChan_tlog (n : Nat) (f : Chan → Chan) : (s.updChan n f).tlog = s.tlog := (rfl)

/-! `updDie`. -/

@[simp] theorem State.updDie_pending (d : Nat) (f : DieInfo → DieInfo) : (s.updDie d f).pending = s.pending := (rfl)
@[simp] theorem State.updDie_build (d : Nat) (f : DieInfo → DieInfo) : (s.updDie d f).build = s.build := (rfl)
@[simp] theorem State.updDie_phase (d : Nat) (f : DieInfo → DieInfo) : (s.updDie d f).phase = s.phase := (rfl)
@[simp] theorem State.updDie_resetPor (d : Nat) (f : DieInfo → DieInfo) : (s.updDie d f).resetPor = s.resetPor := (rfl)
@[simp] theorem State.updDie_porLow (d : Nat) (f : DieInfo → DieInfo) : (s.updDie d f).porLow = s.porLow := (rfl)
@[simp] theorem State.updDie_blkLow (d : Nat) (f : DieInfo → DieInfo) : (s.updDie d f).blkLow = s.blkLow := (rfl)
@[simp] theorem State.updDie_lostAtReset (d : Nat) (f : DieInfo → DieInfo) : (s.updDie d f).lostAtReset = s.lostAtReset := (rfl)
@[simp] theorem State.updDie_trefKhz (d : Nat) (f : DieInfo → DieInfo) : (s.updDie d f).trefKhz = s.trefKhz := (rfl)
@[simp] theorem State.updDie_fnclkSel (d : Nat) (f : DieInfo → DieInfo) : (s.updDie d f).fnclkSel = s.fnclkSel := (rfl)
@[simp] theorem State.updDie_testMode (d : Nat) (f : DieInfo → DieInfo) : (s.updDie d f).testMode = s.testMode := (rfl)
@[simp] theorem State.updDie_mbistBusy (d : Nat) (f : DieInfo → DieInfo) : (s.updDie d f).mbistBusy = s.mbistBusy := (rfl)
@[simp] theorem State.updDie_mbistDone (d : Nat) (f : DieInfo → DieInfo) : (s.updDie d f).mbistDone = s.mbistDone := (rfl)
@[simp] theorem State.updDie_mbistFail (d : Nat) (f : DieInfo → DieInfo) : (s.updDie d f).mbistFail = s.mbistFail := (rfl)
@[simp] theorem State.updDie_tref (d : Nat) (f : DieInfo → DieInfo) : (s.updDie d f).tref = s.tref := (rfl)
@[simp] theorem State.updDie_freeN (d : Nat) (f : DieInfo → DieInfo) : (s.updDie d f).freeN = s.freeN := (rfl)
@[simp] theorem State.updDie_dict (d : Nat) (f : DieInfo → DieInfo) : (s.updDie d f).dict = s.dict := (rfl)
@[simp] theorem State.updDie_mem (d : Nat) (f : DieInfo → DieInfo) : (s.updDie d f).mem = s.mem := (rfl)
@[simp] theorem State.updDie_modes (d : Nat) (f : DieInfo → DieInfo) : (s.updDie d f).modes = s.modes := (rfl)
@[simp] theorem State.updDie_raster (d : Nat) (f : DieInfo → DieInfo) : (s.updDie d f).raster = s.raster := (rfl)
@[simp] theorem State.updDie_orbit (d : Nat) (f : DieInfo → DieInfo) : (s.updDie d f).orbit = s.orbit := (rfl)
@[simp] theorem State.updDie_streams (d : Nat) (f : DieInfo → DieInfo) : (s.updDie d f).streams = s.streams := (rfl)
@[simp] theorem State.updDie_link (d : Nat) (f : DieInfo → DieInfo) : (s.updDie d f).link = s.link := (rfl)
@[simp] theorem State.updDie_cmds (d : Nat) (f : DieInfo → DieInfo) : (s.updDie d f).cmds = s.cmds := (rfl)
@[simp] theorem State.updDie_stampNext (d : Nat) (f : DieInfo → DieInfo) : (s.updDie d f).stampNext = s.stampNext := (rfl)
@[simp] theorem State.updDie_seqWritten (d : Nat) (f : DieInfo → DieInfo) : (s.updDie d f).seqWritten = s.seqWritten := (rfl)
@[simp] theorem State.updDie_deferred (d : Nat) (f : DieInfo → DieInfo) : (s.updDie d f).deferred = s.deferred := (rfl)
@[simp] theorem State.updDie_deferNew (d : Nat) (f : DieInfo → DieInfo) : (s.updDie d f).deferNew = s.deferNew := (rfl)
@[simp] theorem State.updDie_versions (d : Nat) (f : DieInfo → DieInfo) : (s.updDie d f).versions = s.versions := (rfl)
@[simp] theorem State.updDie_nextVer (d : Nat) (f : DieInfo → DieInfo) : (s.updDie d f).nextVer = s.nextVer := (rfl)
@[simp] theorem State.updDie_hostCws (d : Nat) (f : DieInfo → DieInfo) : (s.updDie d f).hostCws = s.hostCws := (rfl)
@[simp] theorem State.updDie_origins (d : Nat) (f : DieInfo → DieInfo) : (s.updDie d f).origins = s.origins := (rfl)
@[simp] theorem State.updDie_sbs (d : Nat) (f : DieInfo → DieInfo) : (s.updDie d f).sbs = s.sbs := (rfl)
@[simp] theorem State.updDie_allocReqs (d : Nat) (f : DieInfo → DieInfo) : (s.updDie d f).allocReqs = s.allocReqs := (rfl)
@[simp] theorem State.updDie_walking (d : Nat) (f : DieInfo → DieInfo) : (s.updDie d f).walking = s.walking := (rfl)
@[simp] theorem State.updDie_running (d : Nat) (f : DieInfo → DieInfo) : (s.updDie d f).running = s.running := (rfl)
@[simp] theorem State.updDie_interimBlocks (d : Nat) (f : DieInfo → DieInfo) : (s.updDie d f).interimBlocks = s.interimBlocks := (rfl)
@[simp] theorem State.updDie_zeroFrom (d : Nat) (f : DieInfo → DieInfo) : (s.updDie d f).zeroFrom = s.zeroFrom := (rfl)
@[simp] theorem State.updDie_stallFrom (d : Nat) (f : DieInfo → DieInfo) : (s.updDie d f).stallFrom = s.stallFrom := (rfl)
@[simp] theorem State.updDie_lostDies (d : Nat) (f : DieInfo → DieInfo) : (s.updDie d f).lostDies = s.lostDies := (rfl)
@[simp] theorem State.updDie_tokens (d : Nat) (f : DieInfo → DieInfo) : (s.updDie d f).tokens = s.tokens := (rfl)
@[simp] theorem State.updDie_blockLocks (d : Nat) (f : DieInfo → DieInfo) : (s.updDie d f).blockLocks = s.blockLocks := (rfl)
@[simp] theorem State.updDie_pins (d : Nat) (f : DieInfo → DieInfo) : (s.updDie d f).pins = s.pins := (rfl)
@[simp] theorem State.updDie_ops (d : Nat) (f : DieInfo → DieInfo) : (s.updDie d f).ops = s.ops := (rfl)
@[simp] theorem State.updDie_nextOp (d : Nat) (f : DieInfo → DieInfo) : (s.updDie d f).nextOp = s.nextOp := (rfl)
@[simp] theorem State.updDie_jobs (d : Nat) (f : DieInfo → DieInfo) : (s.updDie d f).jobs = s.jobs := (rfl)
@[simp] theorem State.updDie_nextJob (d : Nat) (f : DieInfo → DieInfo) : (s.updDie d f).nextJob = s.nextJob := (rfl)
@[simp] theorem State.updDie_rebuilds (d : Nat) (f : DieInfo → DieInfo) : (s.updDie d f).rebuilds = s.rebuilds := (rfl)
@[simp] theorem State.updDie_comet (d : Nat) (f : DieInfo → DieInfo) : (s.updDie d f).comet = s.comet := (rfl)
@[simp] theorem State.updDie_cometHeld (d : Nat) (f : DieInfo → DieInfo) : (s.updDie d f).cometHeld = s.cometHeld := (rfl)
@[simp] theorem State.updDie_slotsUsed (d : Nat) (f : DieInfo → DieInfo) : (s.updDie d f).slotsUsed = s.slotsUsed := (rfl)
@[simp] theorem State.updDie_slcOkOnce (d : Nat) (f : DieInfo → DieInfo) : (s.updDie d f).slcOkOnce = s.slcOkOnce := (rfl)
@[simp] theorem State.updDie_codes (d : Nat) (f : DieInfo → DieInfo) : (s.updDie d f).codes = s.codes := (rfl)
@[simp] theorem State.updDie_codeErr (d : Nat) (f : DieInfo → DieInfo) : (s.updDie d f).codeErr = s.codeErr := (rfl)
@[simp] theorem State.updDie_cal (d : Nat) (f : DieInfo → DieInfo) : (s.updDie d f).cal = s.cal := (rfl)
@[simp] theorem State.updDie_calLast (d : Nat) (f : DieInfo → DieInfo) : (s.updDie d f).calLast = s.calLast := (rfl)
@[simp] theorem State.updDie_calSnapFrom (d : Nat) (f : DieInfo → DieInfo) : (s.updDie d f).calSnapFrom = s.calSnapFrom := (rfl)
@[simp] theorem State.updDie_prot (d : Nat) (f : DieInfo → DieInfo) : (s.updDie d f).prot = s.prot := (rfl)
@[simp] theorem State.updDie_chans (d : Nat) (f : DieInfo → DieInfo) : (s.updDie d f).chans = s.chans := (rfl)
@[simp] theorem State.updDie_clusters (d : Nat) (f : DieInfo → DieInfo) : (s.updDie d f).clusters = s.clusters := (rfl)
@[simp] theorem State.updDie_ctxs (d : Nat) (f : DieInfo → DieInfo) : (s.updDie d f).ctxs = s.ctxs := (rfl)
@[simp] theorem State.updDie_activation (d : Nat) (f : DieInfo → DieInfo) : (s.updDie d f).activation = s.activation := (rfl)
@[simp] theorem State.updDie_pools (d : Nat) (f : DieInfo → DieInfo) : (s.updDie d f).pools = s.pools := (rfl)
@[simp] theorem State.updDie_offered (d : Nat) (f : DieInfo → DieInfo) : (s.updDie d f).offered = s.offered := (rfl)
@[simp] theorem State.updDie_offers (d : Nat) (f : DieInfo → DieInfo) : (s.updDie d f).offers = s.offers := (rfl)
@[simp] theorem State.updDie_nqs (d : Nat) (f : DieInfo → DieInfo) : (s.updDie d f).nqs = s.nqs := (rfl)
@[simp] theorem State.updDie_ce (d : Nat) (f : DieInfo → DieInfo) : (s.updDie d f).ce = s.ce := (rfl)
@[simp] theorem State.updDie_ceSlots (d : Nat) (f : DieInfo → DieInfo) : (s.updDie d f).ceSlots = s.ceSlots := (rfl)
@[simp] theorem State.updDie_ports (d : Nat) (f : DieInfo → DieInfo) : (s.updDie d f).ports = s.ports := (rfl)
@[simp] theorem State.updDie_ints (d : Nat) (f : DieInfo → DieInfo) : (s.updDie d f).ints = s.ints := (rfl)
@[simp] theorem State.updDie_procs (d : Nat) (f : DieInfo → DieInfo) : (s.updDie d f).procs = s.procs := (rfl)
@[simp] theorem State.updDie_xfers (d : Nat) (f : DieInfo → DieInfo) : (s.updDie d f).xfers = s.xfers := (rfl)
@[simp] theorem State.updDie_cfg (d : Nat) (f : DieInfo → DieInfo) : (s.updDie d f).cfg = s.cfg := (rfl)
@[simp] theorem State.updDie_fn (d : Nat) (f : DieInfo → DieInfo) : (s.updDie d f).fn = s.fn := (rfl)
@[simp] theorem State.updDie_frozen (d : Nat) (f : DieInfo → DieInfo) : (s.updDie d f).frozen = s.frozen := (rfl)
@[simp] theorem State.updDie_tlog (d : Nat) (f : DieInfo → DieInfo) : (s.updDie d f).tlog = s.tlog := (rfl)

/-! `updStream`. -/

@[simp] theorem State.updStream_pending (i : Nat) (f : Stream → Stream) : (s.updStream i f).pending = s.pending := (rfl)
@[simp] theorem State.updStream_build (i : Nat) (f : Stream → Stream) : (s.updStream i f).build = s.build := (rfl)
@[simp] theorem State.updStream_phase (i : Nat) (f : Stream → Stream) : (s.updStream i f).phase = s.phase := (rfl)
@[simp] theorem State.updStream_resetPor (i : Nat) (f : Stream → Stream) : (s.updStream i f).resetPor = s.resetPor := (rfl)
@[simp] theorem State.updStream_porLow (i : Nat) (f : Stream → Stream) : (s.updStream i f).porLow = s.porLow := (rfl)
@[simp] theorem State.updStream_blkLow (i : Nat) (f : Stream → Stream) : (s.updStream i f).blkLow = s.blkLow := (rfl)
@[simp] theorem State.updStream_lostAtReset (i : Nat) (f : Stream → Stream) : (s.updStream i f).lostAtReset = s.lostAtReset := (rfl)
@[simp] theorem State.updStream_trefKhz (i : Nat) (f : Stream → Stream) : (s.updStream i f).trefKhz = s.trefKhz := (rfl)
@[simp] theorem State.updStream_fnclkSel (i : Nat) (f : Stream → Stream) : (s.updStream i f).fnclkSel = s.fnclkSel := (rfl)
@[simp] theorem State.updStream_testMode (i : Nat) (f : Stream → Stream) : (s.updStream i f).testMode = s.testMode := (rfl)
@[simp] theorem State.updStream_mbistBusy (i : Nat) (f : Stream → Stream) : (s.updStream i f).mbistBusy = s.mbistBusy := (rfl)
@[simp] theorem State.updStream_mbistDone (i : Nat) (f : Stream → Stream) : (s.updStream i f).mbistDone = s.mbistDone := (rfl)
@[simp] theorem State.updStream_mbistFail (i : Nat) (f : Stream → Stream) : (s.updStream i f).mbistFail = s.mbistFail := (rfl)
@[simp] theorem State.updStream_tref (i : Nat) (f : Stream → Stream) : (s.updStream i f).tref = s.tref := (rfl)
@[simp] theorem State.updStream_freeN (i : Nat) (f : Stream → Stream) : (s.updStream i f).freeN = s.freeN := (rfl)
@[simp] theorem State.updStream_dict (i : Nat) (f : Stream → Stream) : (s.updStream i f).dict = s.dict := (rfl)
@[simp] theorem State.updStream_mem (i : Nat) (f : Stream → Stream) : (s.updStream i f).mem = s.mem := (rfl)
@[simp] theorem State.updStream_modes (i : Nat) (f : Stream → Stream) : (s.updStream i f).modes = s.modes := (rfl)
@[simp] theorem State.updStream_raster (i : Nat) (f : Stream → Stream) : (s.updStream i f).raster = s.raster := (rfl)
@[simp] theorem State.updStream_orbit (i : Nat) (f : Stream → Stream) : (s.updStream i f).orbit = s.orbit := (rfl)
@[simp] theorem State.updStream_link (i : Nat) (f : Stream → Stream) : (s.updStream i f).link = s.link := (rfl)
@[simp] theorem State.updStream_cmds (i : Nat) (f : Stream → Stream) : (s.updStream i f).cmds = s.cmds := (rfl)
@[simp] theorem State.updStream_stampNext (i : Nat) (f : Stream → Stream) : (s.updStream i f).stampNext = s.stampNext := (rfl)
@[simp] theorem State.updStream_seqWritten (i : Nat) (f : Stream → Stream) : (s.updStream i f).seqWritten = s.seqWritten := (rfl)
@[simp] theorem State.updStream_deferred (i : Nat) (f : Stream → Stream) : (s.updStream i f).deferred = s.deferred := (rfl)
@[simp] theorem State.updStream_deferNew (i : Nat) (f : Stream → Stream) : (s.updStream i f).deferNew = s.deferNew := (rfl)
@[simp] theorem State.updStream_versions (i : Nat) (f : Stream → Stream) : (s.updStream i f).versions = s.versions := (rfl)
@[simp] theorem State.updStream_nextVer (i : Nat) (f : Stream → Stream) : (s.updStream i f).nextVer = s.nextVer := (rfl)
@[simp] theorem State.updStream_hostCws (i : Nat) (f : Stream → Stream) : (s.updStream i f).hostCws = s.hostCws := (rfl)
@[simp] theorem State.updStream_origins (i : Nat) (f : Stream → Stream) : (s.updStream i f).origins = s.origins := (rfl)
@[simp] theorem State.updStream_sbs (i : Nat) (f : Stream → Stream) : (s.updStream i f).sbs = s.sbs := (rfl)
@[simp] theorem State.updStream_allocReqs (i : Nat) (f : Stream → Stream) : (s.updStream i f).allocReqs = s.allocReqs := (rfl)
@[simp] theorem State.updStream_walking (i : Nat) (f : Stream → Stream) : (s.updStream i f).walking = s.walking := (rfl)
@[simp] theorem State.updStream_running (i : Nat) (f : Stream → Stream) : (s.updStream i f).running = s.running := (rfl)
@[simp] theorem State.updStream_interimBlocks (i : Nat) (f : Stream → Stream) : (s.updStream i f).interimBlocks = s.interimBlocks := (rfl)
@[simp] theorem State.updStream_zeroFrom (i : Nat) (f : Stream → Stream) : (s.updStream i f).zeroFrom = s.zeroFrom := (rfl)
@[simp] theorem State.updStream_stallFrom (i : Nat) (f : Stream → Stream) : (s.updStream i f).stallFrom = s.stallFrom := (rfl)
@[simp] theorem State.updStream_lostDies (i : Nat) (f : Stream → Stream) : (s.updStream i f).lostDies = s.lostDies := (rfl)
@[simp] theorem State.updStream_tokens (i : Nat) (f : Stream → Stream) : (s.updStream i f).tokens = s.tokens := (rfl)
@[simp] theorem State.updStream_blockLocks (i : Nat) (f : Stream → Stream) : (s.updStream i f).blockLocks = s.blockLocks := (rfl)
@[simp] theorem State.updStream_pins (i : Nat) (f : Stream → Stream) : (s.updStream i f).pins = s.pins := (rfl)
@[simp] theorem State.updStream_ops (i : Nat) (f : Stream → Stream) : (s.updStream i f).ops = s.ops := (rfl)
@[simp] theorem State.updStream_nextOp (i : Nat) (f : Stream → Stream) : (s.updStream i f).nextOp = s.nextOp := (rfl)
@[simp] theorem State.updStream_jobs (i : Nat) (f : Stream → Stream) : (s.updStream i f).jobs = s.jobs := (rfl)
@[simp] theorem State.updStream_nextJob (i : Nat) (f : Stream → Stream) : (s.updStream i f).nextJob = s.nextJob := (rfl)
@[simp] theorem State.updStream_rebuilds (i : Nat) (f : Stream → Stream) : (s.updStream i f).rebuilds = s.rebuilds := (rfl)
@[simp] theorem State.updStream_comet (i : Nat) (f : Stream → Stream) : (s.updStream i f).comet = s.comet := (rfl)
@[simp] theorem State.updStream_cometHeld (i : Nat) (f : Stream → Stream) : (s.updStream i f).cometHeld = s.cometHeld := (rfl)
@[simp] theorem State.updStream_slotsUsed (i : Nat) (f : Stream → Stream) : (s.updStream i f).slotsUsed = s.slotsUsed := (rfl)
@[simp] theorem State.updStream_slcOkOnce (i : Nat) (f : Stream → Stream) : (s.updStream i f).slcOkOnce = s.slcOkOnce := (rfl)
@[simp] theorem State.updStream_codes (i : Nat) (f : Stream → Stream) : (s.updStream i f).codes = s.codes := (rfl)
@[simp] theorem State.updStream_codeErr (i : Nat) (f : Stream → Stream) : (s.updStream i f).codeErr = s.codeErr := (rfl)
@[simp] theorem State.updStream_cal (i : Nat) (f : Stream → Stream) : (s.updStream i f).cal = s.cal := (rfl)
@[simp] theorem State.updStream_calLast (i : Nat) (f : Stream → Stream) : (s.updStream i f).calLast = s.calLast := (rfl)
@[simp] theorem State.updStream_calSnapFrom (i : Nat) (f : Stream → Stream) : (s.updStream i f).calSnapFrom = s.calSnapFrom := (rfl)
@[simp] theorem State.updStream_prot (i : Nat) (f : Stream → Stream) : (s.updStream i f).prot = s.prot := (rfl)
@[simp] theorem State.updStream_chans (i : Nat) (f : Stream → Stream) : (s.updStream i f).chans = s.chans := (rfl)
@[simp] theorem State.updStream_dies (i : Nat) (f : Stream → Stream) : (s.updStream i f).dies = s.dies := (rfl)
@[simp] theorem State.updStream_clusters (i : Nat) (f : Stream → Stream) : (s.updStream i f).clusters = s.clusters := (rfl)
@[simp] theorem State.updStream_ctxs (i : Nat) (f : Stream → Stream) : (s.updStream i f).ctxs = s.ctxs := (rfl)
@[simp] theorem State.updStream_activation (i : Nat) (f : Stream → Stream) : (s.updStream i f).activation = s.activation := (rfl)
@[simp] theorem State.updStream_pools (i : Nat) (f : Stream → Stream) : (s.updStream i f).pools = s.pools := (rfl)
@[simp] theorem State.updStream_offered (i : Nat) (f : Stream → Stream) : (s.updStream i f).offered = s.offered := (rfl)
@[simp] theorem State.updStream_offers (i : Nat) (f : Stream → Stream) : (s.updStream i f).offers = s.offers := (rfl)
@[simp] theorem State.updStream_nqs (i : Nat) (f : Stream → Stream) : (s.updStream i f).nqs = s.nqs := (rfl)
@[simp] theorem State.updStream_ce (i : Nat) (f : Stream → Stream) : (s.updStream i f).ce = s.ce := (rfl)
@[simp] theorem State.updStream_ceSlots (i : Nat) (f : Stream → Stream) : (s.updStream i f).ceSlots = s.ceSlots := (rfl)
@[simp] theorem State.updStream_ports (i : Nat) (f : Stream → Stream) : (s.updStream i f).ports = s.ports := (rfl)
@[simp] theorem State.updStream_ints (i : Nat) (f : Stream → Stream) : (s.updStream i f).ints = s.ints := (rfl)
@[simp] theorem State.updStream_procs (i : Nat) (f : Stream → Stream) : (s.updStream i f).procs = s.procs := (rfl)
@[simp] theorem State.updStream_xfers (i : Nat) (f : Stream → Stream) : (s.updStream i f).xfers = s.xfers := (rfl)
@[simp] theorem State.updStream_cfg (i : Nat) (f : Stream → Stream) : (s.updStream i f).cfg = s.cfg := (rfl)
@[simp] theorem State.updStream_fn (i : Nat) (f : Stream → Stream) : (s.updStream i f).fn = s.fn := (rfl)
@[simp] theorem State.updStream_frozen (i : Nat) (f : Stream → Stream) : (s.updStream i f).frozen = s.frozen := (rfl)
@[simp] theorem State.updStream_tlog (i : Nat) (f : Stream → Stream) : (s.updStream i f).tlog = s.tlog := (rfl)

/-! `setLink`. -/

@[simp] theorem State.setLink_pending (f : LinkSt → LinkSt) : (s.setLink f).pending = s.pending := (rfl)
@[simp] theorem State.setLink_build (f : LinkSt → LinkSt) : (s.setLink f).build = s.build := (rfl)
@[simp] theorem State.setLink_phase (f : LinkSt → LinkSt) : (s.setLink f).phase = s.phase := (rfl)
@[simp] theorem State.setLink_resetPor (f : LinkSt → LinkSt) : (s.setLink f).resetPor = s.resetPor := (rfl)
@[simp] theorem State.setLink_porLow (f : LinkSt → LinkSt) : (s.setLink f).porLow = s.porLow := (rfl)
@[simp] theorem State.setLink_blkLow (f : LinkSt → LinkSt) : (s.setLink f).blkLow = s.blkLow := (rfl)
@[simp] theorem State.setLink_lostAtReset (f : LinkSt → LinkSt) : (s.setLink f).lostAtReset = s.lostAtReset := (rfl)
@[simp] theorem State.setLink_trefKhz (f : LinkSt → LinkSt) : (s.setLink f).trefKhz = s.trefKhz := (rfl)
@[simp] theorem State.setLink_fnclkSel (f : LinkSt → LinkSt) : (s.setLink f).fnclkSel = s.fnclkSel := (rfl)
@[simp] theorem State.setLink_testMode (f : LinkSt → LinkSt) : (s.setLink f).testMode = s.testMode := (rfl)
@[simp] theorem State.setLink_mbistBusy (f : LinkSt → LinkSt) : (s.setLink f).mbistBusy = s.mbistBusy := (rfl)
@[simp] theorem State.setLink_mbistDone (f : LinkSt → LinkSt) : (s.setLink f).mbistDone = s.mbistDone := (rfl)
@[simp] theorem State.setLink_mbistFail (f : LinkSt → LinkSt) : (s.setLink f).mbistFail = s.mbistFail := (rfl)
@[simp] theorem State.setLink_tref (f : LinkSt → LinkSt) : (s.setLink f).tref = s.tref := (rfl)
@[simp] theorem State.setLink_freeN (f : LinkSt → LinkSt) : (s.setLink f).freeN = s.freeN := (rfl)
@[simp] theorem State.setLink_dict (f : LinkSt → LinkSt) : (s.setLink f).dict = s.dict := (rfl)
@[simp] theorem State.setLink_mem (f : LinkSt → LinkSt) : (s.setLink f).mem = s.mem := (rfl)
@[simp] theorem State.setLink_modes (f : LinkSt → LinkSt) : (s.setLink f).modes = s.modes := (rfl)
@[simp] theorem State.setLink_raster (f : LinkSt → LinkSt) : (s.setLink f).raster = s.raster := (rfl)
@[simp] theorem State.setLink_orbit (f : LinkSt → LinkSt) : (s.setLink f).orbit = s.orbit := (rfl)
@[simp] theorem State.setLink_streams (f : LinkSt → LinkSt) : (s.setLink f).streams = s.streams := (rfl)
@[simp] theorem State.setLink_cmds (f : LinkSt → LinkSt) : (s.setLink f).cmds = s.cmds := (rfl)
@[simp] theorem State.setLink_stampNext (f : LinkSt → LinkSt) : (s.setLink f).stampNext = s.stampNext := (rfl)
@[simp] theorem State.setLink_seqWritten (f : LinkSt → LinkSt) : (s.setLink f).seqWritten = s.seqWritten := (rfl)
@[simp] theorem State.setLink_deferred (f : LinkSt → LinkSt) : (s.setLink f).deferred = s.deferred := (rfl)
@[simp] theorem State.setLink_deferNew (f : LinkSt → LinkSt) : (s.setLink f).deferNew = s.deferNew := (rfl)
@[simp] theorem State.setLink_versions (f : LinkSt → LinkSt) : (s.setLink f).versions = s.versions := (rfl)
@[simp] theorem State.setLink_nextVer (f : LinkSt → LinkSt) : (s.setLink f).nextVer = s.nextVer := (rfl)
@[simp] theorem State.setLink_hostCws (f : LinkSt → LinkSt) : (s.setLink f).hostCws = s.hostCws := (rfl)
@[simp] theorem State.setLink_origins (f : LinkSt → LinkSt) : (s.setLink f).origins = s.origins := (rfl)
@[simp] theorem State.setLink_sbs (f : LinkSt → LinkSt) : (s.setLink f).sbs = s.sbs := (rfl)
@[simp] theorem State.setLink_allocReqs (f : LinkSt → LinkSt) : (s.setLink f).allocReqs = s.allocReqs := (rfl)
@[simp] theorem State.setLink_walking (f : LinkSt → LinkSt) : (s.setLink f).walking = s.walking := (rfl)
@[simp] theorem State.setLink_running (f : LinkSt → LinkSt) : (s.setLink f).running = s.running := (rfl)
@[simp] theorem State.setLink_interimBlocks (f : LinkSt → LinkSt) : (s.setLink f).interimBlocks = s.interimBlocks := (rfl)
@[simp] theorem State.setLink_zeroFrom (f : LinkSt → LinkSt) : (s.setLink f).zeroFrom = s.zeroFrom := (rfl)
@[simp] theorem State.setLink_stallFrom (f : LinkSt → LinkSt) : (s.setLink f).stallFrom = s.stallFrom := (rfl)
@[simp] theorem State.setLink_lostDies (f : LinkSt → LinkSt) : (s.setLink f).lostDies = s.lostDies := (rfl)
@[simp] theorem State.setLink_tokens (f : LinkSt → LinkSt) : (s.setLink f).tokens = s.tokens := (rfl)
@[simp] theorem State.setLink_blockLocks (f : LinkSt → LinkSt) : (s.setLink f).blockLocks = s.blockLocks := (rfl)
@[simp] theorem State.setLink_pins (f : LinkSt → LinkSt) : (s.setLink f).pins = s.pins := (rfl)
@[simp] theorem State.setLink_ops (f : LinkSt → LinkSt) : (s.setLink f).ops = s.ops := (rfl)
@[simp] theorem State.setLink_nextOp (f : LinkSt → LinkSt) : (s.setLink f).nextOp = s.nextOp := (rfl)
@[simp] theorem State.setLink_jobs (f : LinkSt → LinkSt) : (s.setLink f).jobs = s.jobs := (rfl)
@[simp] theorem State.setLink_nextJob (f : LinkSt → LinkSt) : (s.setLink f).nextJob = s.nextJob := (rfl)
@[simp] theorem State.setLink_rebuilds (f : LinkSt → LinkSt) : (s.setLink f).rebuilds = s.rebuilds := (rfl)
@[simp] theorem State.setLink_comet (f : LinkSt → LinkSt) : (s.setLink f).comet = s.comet := (rfl)
@[simp] theorem State.setLink_cometHeld (f : LinkSt → LinkSt) : (s.setLink f).cometHeld = s.cometHeld := (rfl)
@[simp] theorem State.setLink_slotsUsed (f : LinkSt → LinkSt) : (s.setLink f).slotsUsed = s.slotsUsed := (rfl)
@[simp] theorem State.setLink_slcOkOnce (f : LinkSt → LinkSt) : (s.setLink f).slcOkOnce = s.slcOkOnce := (rfl)
@[simp] theorem State.setLink_codes (f : LinkSt → LinkSt) : (s.setLink f).codes = s.codes := (rfl)
@[simp] theorem State.setLink_codeErr (f : LinkSt → LinkSt) : (s.setLink f).codeErr = s.codeErr := (rfl)
@[simp] theorem State.setLink_cal (f : LinkSt → LinkSt) : (s.setLink f).cal = s.cal := (rfl)
@[simp] theorem State.setLink_calLast (f : LinkSt → LinkSt) : (s.setLink f).calLast = s.calLast := (rfl)
@[simp] theorem State.setLink_calSnapFrom (f : LinkSt → LinkSt) : (s.setLink f).calSnapFrom = s.calSnapFrom := (rfl)
@[simp] theorem State.setLink_prot (f : LinkSt → LinkSt) : (s.setLink f).prot = s.prot := (rfl)
@[simp] theorem State.setLink_chans (f : LinkSt → LinkSt) : (s.setLink f).chans = s.chans := (rfl)
@[simp] theorem State.setLink_dies (f : LinkSt → LinkSt) : (s.setLink f).dies = s.dies := (rfl)
@[simp] theorem State.setLink_clusters (f : LinkSt → LinkSt) : (s.setLink f).clusters = s.clusters := (rfl)
@[simp] theorem State.setLink_ctxs (f : LinkSt → LinkSt) : (s.setLink f).ctxs = s.ctxs := (rfl)
@[simp] theorem State.setLink_activation (f : LinkSt → LinkSt) : (s.setLink f).activation = s.activation := (rfl)
@[simp] theorem State.setLink_pools (f : LinkSt → LinkSt) : (s.setLink f).pools = s.pools := (rfl)
@[simp] theorem State.setLink_offered (f : LinkSt → LinkSt) : (s.setLink f).offered = s.offered := (rfl)
@[simp] theorem State.setLink_offers (f : LinkSt → LinkSt) : (s.setLink f).offers = s.offers := (rfl)
@[simp] theorem State.setLink_nqs (f : LinkSt → LinkSt) : (s.setLink f).nqs = s.nqs := (rfl)
@[simp] theorem State.setLink_ce (f : LinkSt → LinkSt) : (s.setLink f).ce = s.ce := (rfl)
@[simp] theorem State.setLink_ceSlots (f : LinkSt → LinkSt) : (s.setLink f).ceSlots = s.ceSlots := (rfl)
@[simp] theorem State.setLink_ports (f : LinkSt → LinkSt) : (s.setLink f).ports = s.ports := (rfl)
@[simp] theorem State.setLink_ints (f : LinkSt → LinkSt) : (s.setLink f).ints = s.ints := (rfl)
@[simp] theorem State.setLink_procs (f : LinkSt → LinkSt) : (s.setLink f).procs = s.procs := (rfl)
@[simp] theorem State.setLink_xfers (f : LinkSt → LinkSt) : (s.setLink f).xfers = s.xfers := (rfl)
@[simp] theorem State.setLink_cfg (f : LinkSt → LinkSt) : (s.setLink f).cfg = s.cfg := (rfl)
@[simp] theorem State.setLink_fn (f : LinkSt → LinkSt) : (s.setLink f).fn = s.fn := (rfl)
@[simp] theorem State.setLink_frozen (f : LinkSt → LinkSt) : (s.setLink f).frozen = s.frozen := (rfl)
@[simp] theorem State.setLink_tlog (f : LinkSt → LinkSt) : (s.setLink f).tlog = s.tlog := (rfl)

/-! `setLatch`. -/

@[simp] theorem State.setLatch_pending (k : Nat) : (s.setLatch k).pending = s.pending := by unfold State.setLatch; split <;> rfl
@[simp] theorem State.setLatch_build (k : Nat) : (s.setLatch k).build = s.build := by unfold State.setLatch; split <;> rfl
@[simp] theorem State.setLatch_phase (k : Nat) : (s.setLatch k).phase = s.phase := by unfold State.setLatch; split <;> rfl
@[simp] theorem State.setLatch_resetPor (k : Nat) : (s.setLatch k).resetPor = s.resetPor := by unfold State.setLatch; split <;> rfl
@[simp] theorem State.setLatch_porLow (k : Nat) : (s.setLatch k).porLow = s.porLow := by unfold State.setLatch; split <;> rfl
@[simp] theorem State.setLatch_blkLow (k : Nat) : (s.setLatch k).blkLow = s.blkLow := by unfold State.setLatch; split <;> rfl
@[simp] theorem State.setLatch_lostAtReset (k : Nat) : (s.setLatch k).lostAtReset = s.lostAtReset := by unfold State.setLatch; split <;> rfl
@[simp] theorem State.setLatch_trefKhz (k : Nat) : (s.setLatch k).trefKhz = s.trefKhz := by unfold State.setLatch; split <;> rfl
@[simp] theorem State.setLatch_fnclkSel (k : Nat) : (s.setLatch k).fnclkSel = s.fnclkSel := by unfold State.setLatch; split <;> rfl
@[simp] theorem State.setLatch_testMode (k : Nat) : (s.setLatch k).testMode = s.testMode := by unfold State.setLatch; split <;> rfl
@[simp] theorem State.setLatch_mbistBusy (k : Nat) : (s.setLatch k).mbistBusy = s.mbistBusy := by unfold State.setLatch; split <;> rfl
@[simp] theorem State.setLatch_mbistDone (k : Nat) : (s.setLatch k).mbistDone = s.mbistDone := by unfold State.setLatch; split <;> rfl
@[simp] theorem State.setLatch_mbistFail (k : Nat) : (s.setLatch k).mbistFail = s.mbistFail := by unfold State.setLatch; split <;> rfl
@[simp] theorem State.setLatch_tref (k : Nat) : (s.setLatch k).tref = s.tref := by unfold State.setLatch; split <;> rfl
@[simp] theorem State.setLatch_freeN (k : Nat) : (s.setLatch k).freeN = s.freeN := by unfold State.setLatch; split <;> rfl
@[simp] theorem State.setLatch_dict (k : Nat) : (s.setLatch k).dict = s.dict := by unfold State.setLatch; split <;> rfl
@[simp] theorem State.setLatch_mem (k : Nat) : (s.setLatch k).mem = s.mem := by unfold State.setLatch; split <;> rfl
@[simp] theorem State.setLatch_modes (k : Nat) : (s.setLatch k).modes = s.modes := by unfold State.setLatch; split <;> rfl
@[simp] theorem State.setLatch_raster (k : Nat) : (s.setLatch k).raster = s.raster := by unfold State.setLatch; split <;> rfl
@[simp] theorem State.setLatch_orbit (k : Nat) : (s.setLatch k).orbit = s.orbit := by unfold State.setLatch; split <;> rfl
@[simp] theorem State.setLatch_streams (k : Nat) : (s.setLatch k).streams = s.streams := by unfold State.setLatch; split <;> rfl
@[simp] theorem State.setLatch_link (k : Nat) : (s.setLatch k).link = s.link := by unfold State.setLatch; split <;> rfl
@[simp] theorem State.setLatch_cmds (k : Nat) : (s.setLatch k).cmds = s.cmds := by unfold State.setLatch; split <;> rfl
@[simp] theorem State.setLatch_stampNext (k : Nat) : (s.setLatch k).stampNext = s.stampNext := by unfold State.setLatch; split <;> rfl
@[simp] theorem State.setLatch_seqWritten (k : Nat) : (s.setLatch k).seqWritten = s.seqWritten := by unfold State.setLatch; split <;> rfl
@[simp] theorem State.setLatch_deferred (k : Nat) : (s.setLatch k).deferred = s.deferred := by unfold State.setLatch; split <;> rfl
@[simp] theorem State.setLatch_deferNew (k : Nat) : (s.setLatch k).deferNew = s.deferNew := by unfold State.setLatch; split <;> rfl
@[simp] theorem State.setLatch_versions (k : Nat) : (s.setLatch k).versions = s.versions := by unfold State.setLatch; split <;> rfl
@[simp] theorem State.setLatch_nextVer (k : Nat) : (s.setLatch k).nextVer = s.nextVer := by unfold State.setLatch; split <;> rfl
@[simp] theorem State.setLatch_hostCws (k : Nat) : (s.setLatch k).hostCws = s.hostCws := by unfold State.setLatch; split <;> rfl
@[simp] theorem State.setLatch_origins (k : Nat) : (s.setLatch k).origins = s.origins := by unfold State.setLatch; split <;> rfl
@[simp] theorem State.setLatch_sbs (k : Nat) : (s.setLatch k).sbs = s.sbs := by unfold State.setLatch; split <;> rfl
@[simp] theorem State.setLatch_allocReqs (k : Nat) : (s.setLatch k).allocReqs = s.allocReqs := by unfold State.setLatch; split <;> rfl
@[simp] theorem State.setLatch_walking (k : Nat) : (s.setLatch k).walking = s.walking := by unfold State.setLatch; split <;> rfl
@[simp] theorem State.setLatch_running (k : Nat) : (s.setLatch k).running = s.running := by unfold State.setLatch; split <;> rfl
@[simp] theorem State.setLatch_interimBlocks (k : Nat) : (s.setLatch k).interimBlocks = s.interimBlocks := by unfold State.setLatch; split <;> rfl
@[simp] theorem State.setLatch_zeroFrom (k : Nat) : (s.setLatch k).zeroFrom = s.zeroFrom := by unfold State.setLatch; split <;> rfl
@[simp] theorem State.setLatch_stallFrom (k : Nat) : (s.setLatch k).stallFrom = s.stallFrom := by unfold State.setLatch; split <;> rfl
@[simp] theorem State.setLatch_lostDies (k : Nat) : (s.setLatch k).lostDies = s.lostDies := by unfold State.setLatch; split <;> rfl
@[simp] theorem State.setLatch_tokens (k : Nat) : (s.setLatch k).tokens = s.tokens := by unfold State.setLatch; split <;> rfl
@[simp] theorem State.setLatch_blockLocks (k : Nat) : (s.setLatch k).blockLocks = s.blockLocks := by unfold State.setLatch; split <;> rfl
@[simp] theorem State.setLatch_pins (k : Nat) : (s.setLatch k).pins = s.pins := by unfold State.setLatch; split <;> rfl
@[simp] theorem State.setLatch_ops (k : Nat) : (s.setLatch k).ops = s.ops := by unfold State.setLatch; split <;> rfl
@[simp] theorem State.setLatch_nextOp (k : Nat) : (s.setLatch k).nextOp = s.nextOp := by unfold State.setLatch; split <;> rfl
@[simp] theorem State.setLatch_jobs (k : Nat) : (s.setLatch k).jobs = s.jobs := by unfold State.setLatch; split <;> rfl
@[simp] theorem State.setLatch_nextJob (k : Nat) : (s.setLatch k).nextJob = s.nextJob := by unfold State.setLatch; split <;> rfl
@[simp] theorem State.setLatch_rebuilds (k : Nat) : (s.setLatch k).rebuilds = s.rebuilds := by unfold State.setLatch; split <;> rfl
@[simp] theorem State.setLatch_comet (k : Nat) : (s.setLatch k).comet = s.comet := by unfold State.setLatch; split <;> rfl
@[simp] theorem State.setLatch_cometHeld (k : Nat) : (s.setLatch k).cometHeld = s.cometHeld := by unfold State.setLatch; split <;> rfl
@[simp] theorem State.setLatch_slotsUsed (k : Nat) : (s.setLatch k).slotsUsed = s.slotsUsed := by unfold State.setLatch; split <;> rfl
@[simp] theorem State.setLatch_slcOkOnce (k : Nat) : (s.setLatch k).slcOkOnce = s.slcOkOnce := by unfold State.setLatch; split <;> rfl
@[simp] theorem State.setLatch_codes (k : Nat) : (s.setLatch k).codes = s.codes := by unfold State.setLatch; split <;> rfl
@[simp] theorem State.setLatch_codeErr (k : Nat) : (s.setLatch k).codeErr = s.codeErr := by unfold State.setLatch; split <;> rfl
@[simp] theorem State.setLatch_cal (k : Nat) : (s.setLatch k).cal = s.cal := by unfold State.setLatch; split <;> rfl
@[simp] theorem State.setLatch_calLast (k : Nat) : (s.setLatch k).calLast = s.calLast := by unfold State.setLatch; split <;> rfl
@[simp] theorem State.setLatch_calSnapFrom (k : Nat) : (s.setLatch k).calSnapFrom = s.calSnapFrom := by unfold State.setLatch; split <;> rfl
@[simp] theorem State.setLatch_prot (k : Nat) : (s.setLatch k).prot = s.prot := by unfold State.setLatch; split <;> rfl
@[simp] theorem State.setLatch_chans (k : Nat) : (s.setLatch k).chans = s.chans := by unfold State.setLatch; split <;> rfl
@[simp] theorem State.setLatch_dies (k : Nat) : (s.setLatch k).dies = s.dies := by unfold State.setLatch; split <;> rfl
@[simp] theorem State.setLatch_clusters (k : Nat) : (s.setLatch k).clusters = s.clusters := by unfold State.setLatch; split <;> rfl
@[simp] theorem State.setLatch_ctxs (k : Nat) : (s.setLatch k).ctxs = s.ctxs := by unfold State.setLatch; split <;> rfl
@[simp] theorem State.setLatch_activation (k : Nat) : (s.setLatch k).activation = s.activation := by unfold State.setLatch; split <;> rfl
@[simp] theorem State.setLatch_pools (k : Nat) : (s.setLatch k).pools = s.pools := by unfold State.setLatch; split <;> rfl
@[simp] theorem State.setLatch_offered (k : Nat) : (s.setLatch k).offered = s.offered := by unfold State.setLatch; split <;> rfl
@[simp] theorem State.setLatch_offers (k : Nat) : (s.setLatch k).offers = s.offers := by unfold State.setLatch; split <;> rfl
@[simp] theorem State.setLatch_nqs (k : Nat) : (s.setLatch k).nqs = s.nqs := by unfold State.setLatch; split <;> rfl
@[simp] theorem State.setLatch_ce (k : Nat) : (s.setLatch k).ce = s.ce := by unfold State.setLatch; split <;> rfl
@[simp] theorem State.setLatch_ceSlots (k : Nat) : (s.setLatch k).ceSlots = s.ceSlots := by unfold State.setLatch; split <;> rfl
@[simp] theorem State.setLatch_ports (k : Nat) : (s.setLatch k).ports = s.ports := by unfold State.setLatch; split <;> rfl
@[simp] theorem State.setLatch_procs (k : Nat) : (s.setLatch k).procs = s.procs := by unfold State.setLatch; split <;> rfl
@[simp] theorem State.setLatch_xfers (k : Nat) : (s.setLatch k).xfers = s.xfers := by unfold State.setLatch; split <;> rfl
@[simp] theorem State.setLatch_cfg (k : Nat) : (s.setLatch k).cfg = s.cfg := by unfold State.setLatch; split <;> rfl
@[simp] theorem State.setLatch_fn (k : Nat) : (s.setLatch k).fn = s.fn := by unfold State.setLatch; split <;> rfl
@[simp] theorem State.setLatch_frozen (k : Nat) : (s.setLatch k).frozen = s.frozen := by unfold State.setLatch; split <;> rfl
@[simp] theorem State.setLatch_tlog (k : Nat) : (s.setLatch k).tlog = s.tlog := by unfold State.setLatch; split <;> rfl

/-! `account`. -/

@[simp] theorem State.account_pending (p : DictPath) (k : Nat) (w : Bool) (c v : Nat) : (s.account p k w c v).pending = s.pending := by simp only [State.account]
@[simp] theorem State.account_build (p : DictPath) (k : Nat) (w : Bool) (c v : Nat) : (s.account p k w c v).build = s.build := by simp only [State.account]
@[simp] theorem State.account_phase (p : DictPath) (k : Nat) (w : Bool) (c v : Nat) : (s.account p k w c v).phase = s.phase := by simp only [State.account]
@[simp] theorem State.account_resetPor (p : DictPath) (k : Nat) (w : Bool) (c v : Nat) : (s.account p k w c v).resetPor = s.resetPor := by simp only [State.account]
@[simp] theorem State.account_porLow (p : DictPath) (k : Nat) (w : Bool) (c v : Nat) : (s.account p k w c v).porLow = s.porLow := by simp only [State.account]
@[simp] theorem State.account_blkLow (p : DictPath) (k : Nat) (w : Bool) (c v : Nat) : (s.account p k w c v).blkLow = s.blkLow := by simp only [State.account]
@[simp] theorem State.account_lostAtReset (p : DictPath) (k : Nat) (w : Bool) (c v : Nat) : (s.account p k w c v).lostAtReset = s.lostAtReset := by simp only [State.account]
@[simp] theorem State.account_trefKhz (p : DictPath) (k : Nat) (w : Bool) (c v : Nat) : (s.account p k w c v).trefKhz = s.trefKhz := by simp only [State.account]
@[simp] theorem State.account_fnclkSel (p : DictPath) (k : Nat) (w : Bool) (c v : Nat) : (s.account p k w c v).fnclkSel = s.fnclkSel := by simp only [State.account]
@[simp] theorem State.account_testMode (p : DictPath) (k : Nat) (w : Bool) (c v : Nat) : (s.account p k w c v).testMode = s.testMode := by simp only [State.account]
@[simp] theorem State.account_mbistBusy (p : DictPath) (k : Nat) (w : Bool) (c v : Nat) : (s.account p k w c v).mbistBusy = s.mbistBusy := by simp only [State.account]
@[simp] theorem State.account_mbistDone (p : DictPath) (k : Nat) (w : Bool) (c v : Nat) : (s.account p k w c v).mbistDone = s.mbistDone := by simp only [State.account]
@[simp] theorem State.account_mbistFail (p : DictPath) (k : Nat) (w : Bool) (c v : Nat) : (s.account p k w c v).mbistFail = s.mbistFail := by simp only [State.account]
@[simp] theorem State.account_tref (p : DictPath) (k : Nat) (w : Bool) (c v : Nat) : (s.account p k w c v).tref = s.tref := by simp only [State.account]
@[simp] theorem State.account_freeN (p : DictPath) (k : Nat) (w : Bool) (c v : Nat) : (s.account p k w c v).freeN = s.freeN := by simp only [State.account]
@[simp] theorem State.account_mem (p : DictPath) (k : Nat) (w : Bool) (c v : Nat) : (s.account p k w c v).mem = s.mem := by simp only [State.account]
@[simp] theorem State.account_modes (p : DictPath) (k : Nat) (w : Bool) (c v : Nat) : (s.account p k w c v).modes = s.modes := by simp only [State.account]
@[simp] theorem State.account_raster (p : DictPath) (k : Nat) (w : Bool) (c v : Nat) : (s.account p k w c v).raster = s.raster := by simp only [State.account]
@[simp] theorem State.account_orbit (p : DictPath) (k : Nat) (w : Bool) (c v : Nat) : (s.account p k w c v).orbit = s.orbit := by simp only [State.account]
@[simp] theorem State.account_streams (p : DictPath) (k : Nat) (w : Bool) (c v : Nat) : (s.account p k w c v).streams = s.streams := by simp only [State.account]
@[simp] theorem State.account_link (p : DictPath) (k : Nat) (w : Bool) (c v : Nat) : (s.account p k w c v).link = s.link := by simp only [State.account]
@[simp] theorem State.account_cmds (p : DictPath) (k : Nat) (w : Bool) (c v : Nat) : (s.account p k w c v).cmds = s.cmds := by simp only [State.account]
@[simp] theorem State.account_stampNext (p : DictPath) (k : Nat) (w : Bool) (c v : Nat) : (s.account p k w c v).stampNext = s.stampNext := by simp only [State.account]
@[simp] theorem State.account_seqWritten (p : DictPath) (k : Nat) (w : Bool) (c v : Nat) : (s.account p k w c v).seqWritten = s.seqWritten := by simp only [State.account]
@[simp] theorem State.account_deferred (p : DictPath) (k : Nat) (w : Bool) (c v : Nat) : (s.account p k w c v).deferred = s.deferred := by simp only [State.account]
@[simp] theorem State.account_deferNew (p : DictPath) (k : Nat) (w : Bool) (c v : Nat) : (s.account p k w c v).deferNew = s.deferNew := by simp only [State.account]
@[simp] theorem State.account_versions (p : DictPath) (k : Nat) (w : Bool) (c v : Nat) : (s.account p k w c v).versions = s.versions := by simp only [State.account]
@[simp] theorem State.account_nextVer (p : DictPath) (k : Nat) (w : Bool) (c v : Nat) : (s.account p k w c v).nextVer = s.nextVer := by simp only [State.account]
@[simp] theorem State.account_hostCws (p : DictPath) (k : Nat) (w : Bool) (c v : Nat) : (s.account p k w c v).hostCws = s.hostCws := by simp only [State.account]
@[simp] theorem State.account_origins (p : DictPath) (k : Nat) (w : Bool) (c v : Nat) : (s.account p k w c v).origins = s.origins := by simp only [State.account]
@[simp] theorem State.account_sbs (p : DictPath) (k : Nat) (w : Bool) (c v : Nat) : (s.account p k w c v).sbs = s.sbs := by simp only [State.account]
@[simp] theorem State.account_allocReqs (p : DictPath) (k : Nat) (w : Bool) (c v : Nat) : (s.account p k w c v).allocReqs = s.allocReqs := by simp only [State.account]
@[simp] theorem State.account_walking (p : DictPath) (k : Nat) (w : Bool) (c v : Nat) : (s.account p k w c v).walking = s.walking := by simp only [State.account]
@[simp] theorem State.account_running (p : DictPath) (k : Nat) (w : Bool) (c v : Nat) : (s.account p k w c v).running = s.running := by simp only [State.account]
@[simp] theorem State.account_interimBlocks (p : DictPath) (k : Nat) (w : Bool) (c v : Nat) : (s.account p k w c v).interimBlocks = s.interimBlocks := by simp only [State.account]
@[simp] theorem State.account_zeroFrom (p : DictPath) (k : Nat) (w : Bool) (c v : Nat) : (s.account p k w c v).zeroFrom = s.zeroFrom := by simp only [State.account]
@[simp] theorem State.account_stallFrom (p : DictPath) (k : Nat) (w : Bool) (c v : Nat) : (s.account p k w c v).stallFrom = s.stallFrom := by simp only [State.account]
@[simp] theorem State.account_lostDies (p : DictPath) (k : Nat) (w : Bool) (c v : Nat) : (s.account p k w c v).lostDies = s.lostDies := by simp only [State.account]
@[simp] theorem State.account_tokens (p : DictPath) (k : Nat) (w : Bool) (c v : Nat) : (s.account p k w c v).tokens = s.tokens := by simp only [State.account]
@[simp] theorem State.account_blockLocks (p : DictPath) (k : Nat) (w : Bool) (c v : Nat) : (s.account p k w c v).blockLocks = s.blockLocks := by simp only [State.account]
@[simp] theorem State.account_pins (p : DictPath) (k : Nat) (w : Bool) (c v : Nat) : (s.account p k w c v).pins = s.pins := by simp only [State.account]
@[simp] theorem State.account_ops (p : DictPath) (k : Nat) (w : Bool) (c v : Nat) : (s.account p k w c v).ops = s.ops := by simp only [State.account]
@[simp] theorem State.account_nextOp (p : DictPath) (k : Nat) (w : Bool) (c v : Nat) : (s.account p k w c v).nextOp = s.nextOp := by simp only [State.account]
@[simp] theorem State.account_jobs (p : DictPath) (k : Nat) (w : Bool) (c v : Nat) : (s.account p k w c v).jobs = s.jobs := by simp only [State.account]
@[simp] theorem State.account_nextJob (p : DictPath) (k : Nat) (w : Bool) (c v : Nat) : (s.account p k w c v).nextJob = s.nextJob := by simp only [State.account]
@[simp] theorem State.account_rebuilds (p : DictPath) (k : Nat) (w : Bool) (c v : Nat) : (s.account p k w c v).rebuilds = s.rebuilds := by simp only [State.account]
@[simp] theorem State.account_comet (p : DictPath) (k : Nat) (w : Bool) (c v : Nat) : (s.account p k w c v).comet = s.comet := by simp only [State.account]
@[simp] theorem State.account_cometHeld (p : DictPath) (k : Nat) (w : Bool) (c v : Nat) : (s.account p k w c v).cometHeld = s.cometHeld := by simp only [State.account]
@[simp] theorem State.account_slotsUsed (p : DictPath) (k : Nat) (w : Bool) (c v : Nat) : (s.account p k w c v).slotsUsed = s.slotsUsed := by simp only [State.account]
@[simp] theorem State.account_slcOkOnce (p : DictPath) (k : Nat) (w : Bool) (c v : Nat) : (s.account p k w c v).slcOkOnce = s.slcOkOnce := by simp only [State.account]
@[simp] theorem State.account_codes (p : DictPath) (k : Nat) (w : Bool) (c v : Nat) : (s.account p k w c v).codes = s.codes := by simp only [State.account]
@[simp] theorem State.account_codeErr (p : DictPath) (k : Nat) (w : Bool) (c v : Nat) : (s.account p k w c v).codeErr = s.codeErr := by simp only [State.account]
@[simp] theorem State.account_cal (p : DictPath) (k : Nat) (w : Bool) (c v : Nat) : (s.account p k w c v).cal = s.cal := by simp only [State.account]
@[simp] theorem State.account_calLast (p : DictPath) (k : Nat) (w : Bool) (c v : Nat) : (s.account p k w c v).calLast = s.calLast := by simp only [State.account]
@[simp] theorem State.account_calSnapFrom (p : DictPath) (k : Nat) (w : Bool) (c v : Nat) : (s.account p k w c v).calSnapFrom = s.calSnapFrom := by simp only [State.account]
@[simp] theorem State.account_chans (p : DictPath) (k : Nat) (w : Bool) (c v : Nat) : (s.account p k w c v).chans = s.chans := by simp only [State.account]
@[simp] theorem State.account_dies (p : DictPath) (k : Nat) (w : Bool) (c v : Nat) : (s.account p k w c v).dies = s.dies := by simp only [State.account]
@[simp] theorem State.account_clusters (p : DictPath) (k : Nat) (w : Bool) (c v : Nat) : (s.account p k w c v).clusters = s.clusters := by simp only [State.account]
@[simp] theorem State.account_ctxs (p : DictPath) (k : Nat) (w : Bool) (c v : Nat) : (s.account p k w c v).ctxs = s.ctxs := by simp only [State.account]
@[simp] theorem State.account_activation (p : DictPath) (k : Nat) (w : Bool) (c v : Nat) : (s.account p k w c v).activation = s.activation := by simp only [State.account]
@[simp] theorem State.account_pools (p : DictPath) (k : Nat) (w : Bool) (c v : Nat) : (s.account p k w c v).pools = s.pools := by simp only [State.account]
@[simp] theorem State.account_offered (p : DictPath) (k : Nat) (w : Bool) (c v : Nat) : (s.account p k w c v).offered = s.offered := by simp only [State.account]
@[simp] theorem State.account_offers (p : DictPath) (k : Nat) (w : Bool) (c v : Nat) : (s.account p k w c v).offers = s.offers := by simp only [State.account]
@[simp] theorem State.account_nqs (p : DictPath) (k : Nat) (w : Bool) (c v : Nat) : (s.account p k w c v).nqs = s.nqs := by simp only [State.account]
@[simp] theorem State.account_ce (p : DictPath) (k : Nat) (w : Bool) (c v : Nat) : (s.account p k w c v).ce = s.ce := by simp only [State.account]
@[simp] theorem State.account_ceSlots (p : DictPath) (k : Nat) (w : Bool) (c v : Nat) : (s.account p k w c v).ceSlots = s.ceSlots := by simp only [State.account]
@[simp] theorem State.account_ports (p : DictPath) (k : Nat) (w : Bool) (c v : Nat) : (s.account p k w c v).ports = s.ports := by simp only [State.account]
@[simp] theorem State.account_ints (p : DictPath) (k : Nat) (w : Bool) (c v : Nat) : (s.account p k w c v).ints = s.ints := by simp only [State.account]
@[simp] theorem State.account_xfers (p : DictPath) (k : Nat) (w : Bool) (c v : Nat) : (s.account p k w c v).xfers = s.xfers := by simp only [State.account]
@[simp] theorem State.account_fn (p : DictPath) (k : Nat) (w : Bool) (c v : Nat) : (s.account p k w c v).fn = s.fn := by simp only [State.account]
@[simp] theorem State.account_frozen (p : DictPath) (k : Nat) (w : Bool) (c v : Nat) : (s.account p k w c v).frozen = s.frozen := by simp only [State.account]
@[simp] theorem State.account_tlog (p : DictPath) (k : Nat) (w : Bool) (c v : Nat) : (s.account p k w c v).tlog = s.tlog := by simp only [State.account]

/-! `notePrev`. -/

@[simp] theorem State.notePrev_pending (p : DictPath) (k : Nat) (w : Bool) (o : Nat) : (s.notePrev p k w o).pending = s.pending := by cases p <;> rfl
@[simp] theorem State.notePrev_build (p : DictPath) (k : Nat) (w : Bool) (o : Nat) : (s.notePrev p k w o).build = s.build := by cases p <;> rfl
@[simp] theorem State.notePrev_phase (p : DictPath) (k : Nat) (w : Bool) (o : Nat) : (s.notePrev p k w o).phase = s.phase := by cases p <;> rfl
@[simp] theorem State.notePrev_resetPor (p : DictPath) (k : Nat) (w : Bool) (o : Nat) : (s.notePrev p k w o).resetPor = s.resetPor := by cases p <;> rfl
@[simp] theorem State.notePrev_porLow (p : DictPath) (k : Nat) (w : Bool) (o : Nat) : (s.notePrev p k w o).porLow = s.porLow := by cases p <;> rfl
@[simp] theorem State.notePrev_blkLow (p : DictPath) (k : Nat) (w : Bool) (o : Nat) : (s.notePrev p k w o).blkLow = s.blkLow := by cases p <;> rfl
@[simp] theorem State.notePrev_lostAtReset (p : DictPath) (k : Nat) (w : Bool) (o : Nat) : (s.notePrev p k w o).lostAtReset = s.lostAtReset := by cases p <;> rfl
@[simp] theorem State.notePrev_trefKhz (p : DictPath) (k : Nat) (w : Bool) (o : Nat) : (s.notePrev p k w o).trefKhz = s.trefKhz := by cases p <;> rfl
@[simp] theorem State.notePrev_fnclkSel (p : DictPath) (k : Nat) (w : Bool) (o : Nat) : (s.notePrev p k w o).fnclkSel = s.fnclkSel := by cases p <;> rfl
@[simp] theorem State.notePrev_testMode (p : DictPath) (k : Nat) (w : Bool) (o : Nat) : (s.notePrev p k w o).testMode = s.testMode := by cases p <;> rfl
@[simp] theorem State.notePrev_mbistBusy (p : DictPath) (k : Nat) (w : Bool) (o : Nat) : (s.notePrev p k w o).mbistBusy = s.mbistBusy := by cases p <;> rfl
@[simp] theorem State.notePrev_mbistDone (p : DictPath) (k : Nat) (w : Bool) (o : Nat) : (s.notePrev p k w o).mbistDone = s.mbistDone := by cases p <;> rfl
@[simp] theorem State.notePrev_mbistFail (p : DictPath) (k : Nat) (w : Bool) (o : Nat) : (s.notePrev p k w o).mbistFail = s.mbistFail := by cases p <;> rfl
@[simp] theorem State.notePrev_tref (p : DictPath) (k : Nat) (w : Bool) (o : Nat) : (s.notePrev p k w o).tref = s.tref := by cases p <;> rfl
@[simp] theorem State.notePrev_freeN (p : DictPath) (k : Nat) (w : Bool) (o : Nat) : (s.notePrev p k w o).freeN = s.freeN := by cases p <;> rfl
@[simp] theorem State.notePrev_dict (p : DictPath) (k : Nat) (w : Bool) (o : Nat) : (s.notePrev p k w o).dict = s.dict := by cases p <;> rfl
@[simp] theorem State.notePrev_mem (p : DictPath) (k : Nat) (w : Bool) (o : Nat) : (s.notePrev p k w o).mem = s.mem := by cases p <;> rfl
@[simp] theorem State.notePrev_modes (p : DictPath) (k : Nat) (w : Bool) (o : Nat) : (s.notePrev p k w o).modes = s.modes := by cases p <;> rfl
@[simp] theorem State.notePrev_raster (p : DictPath) (k : Nat) (w : Bool) (o : Nat) : (s.notePrev p k w o).raster = s.raster := by cases p <;> rfl
@[simp] theorem State.notePrev_orbit (p : DictPath) (k : Nat) (w : Bool) (o : Nat) : (s.notePrev p k w o).orbit = s.orbit := by cases p <;> rfl
@[simp] theorem State.notePrev_streams (p : DictPath) (k : Nat) (w : Bool) (o : Nat) : (s.notePrev p k w o).streams = s.streams := by cases p <;> rfl
@[simp] theorem State.notePrev_link (p : DictPath) (k : Nat) (w : Bool) (o : Nat) : (s.notePrev p k w o).link = s.link := by cases p <;> rfl
@[simp] theorem State.notePrev_cmds (p : DictPath) (k : Nat) (w : Bool) (o : Nat) : (s.notePrev p k w o).cmds = s.cmds := by cases p <;> rfl
@[simp] theorem State.notePrev_stampNext (p : DictPath) (k : Nat) (w : Bool) (o : Nat) : (s.notePrev p k w o).stampNext = s.stampNext := by cases p <;> rfl
@[simp] theorem State.notePrev_seqWritten (p : DictPath) (k : Nat) (w : Bool) (o : Nat) : (s.notePrev p k w o).seqWritten = s.seqWritten := by cases p <;> rfl
@[simp] theorem State.notePrev_deferred (p : DictPath) (k : Nat) (w : Bool) (o : Nat) : (s.notePrev p k w o).deferred = s.deferred := by cases p <;> rfl
@[simp] theorem State.notePrev_deferNew (p : DictPath) (k : Nat) (w : Bool) (o : Nat) : (s.notePrev p k w o).deferNew = s.deferNew := by cases p <;> rfl
@[simp] theorem State.notePrev_versions (p : DictPath) (k : Nat) (w : Bool) (o : Nat) : (s.notePrev p k w o).versions = s.versions := by cases p <;> rfl
@[simp] theorem State.notePrev_nextVer (p : DictPath) (k : Nat) (w : Bool) (o : Nat) : (s.notePrev p k w o).nextVer = s.nextVer := by cases p <;> rfl
@[simp] theorem State.notePrev_hostCws (p : DictPath) (k : Nat) (w : Bool) (o : Nat) : (s.notePrev p k w o).hostCws = s.hostCws := by cases p <;> rfl
@[simp] theorem State.notePrev_origins (p : DictPath) (k : Nat) (w : Bool) (o : Nat) : (s.notePrev p k w o).origins = s.origins := by cases p <;> rfl
@[simp] theorem State.notePrev_sbs (p : DictPath) (k : Nat) (w : Bool) (o : Nat) : (s.notePrev p k w o).sbs = s.sbs := by cases p <;> rfl
@[simp] theorem State.notePrev_allocReqs (p : DictPath) (k : Nat) (w : Bool) (o : Nat) : (s.notePrev p k w o).allocReqs = s.allocReqs := by cases p <;> rfl
@[simp] theorem State.notePrev_walking (p : DictPath) (k : Nat) (w : Bool) (o : Nat) : (s.notePrev p k w o).walking = s.walking := by cases p <;> rfl
@[simp] theorem State.notePrev_running (p : DictPath) (k : Nat) (w : Bool) (o : Nat) : (s.notePrev p k w o).running = s.running := by cases p <;> rfl
@[simp] theorem State.notePrev_interimBlocks (p : DictPath) (k : Nat) (w : Bool) (o : Nat) : (s.notePrev p k w o).interimBlocks = s.interimBlocks := by cases p <;> rfl
@[simp] theorem State.notePrev_zeroFrom (p : DictPath) (k : Nat) (w : Bool) (o : Nat) : (s.notePrev p k w o).zeroFrom = s.zeroFrom := by cases p <;> rfl
@[simp] theorem State.notePrev_stallFrom (p : DictPath) (k : Nat) (w : Bool) (o : Nat) : (s.notePrev p k w o).stallFrom = s.stallFrom := by cases p <;> rfl
@[simp] theorem State.notePrev_lostDies (p : DictPath) (k : Nat) (w : Bool) (o : Nat) : (s.notePrev p k w o).lostDies = s.lostDies := by cases p <;> rfl
@[simp] theorem State.notePrev_tokens (p : DictPath) (k : Nat) (w : Bool) (o : Nat) : (s.notePrev p k w o).tokens = s.tokens := by cases p <;> rfl
@[simp] theorem State.notePrev_blockLocks (p : DictPath) (k : Nat) (w : Bool) (o : Nat) : (s.notePrev p k w o).blockLocks = s.blockLocks := by cases p <;> rfl
@[simp] theorem State.notePrev_pins (p : DictPath) (k : Nat) (w : Bool) (o : Nat) : (s.notePrev p k w o).pins = s.pins := by cases p <;> rfl
@[simp] theorem State.notePrev_ops (p : DictPath) (k : Nat) (w : Bool) (o : Nat) : (s.notePrev p k w o).ops = s.ops := by cases p <;> rfl
@[simp] theorem State.notePrev_nextOp (p : DictPath) (k : Nat) (w : Bool) (o : Nat) : (s.notePrev p k w o).nextOp = s.nextOp := by cases p <;> rfl
@[simp] theorem State.notePrev_jobs (p : DictPath) (k : Nat) (w : Bool) (o : Nat) : (s.notePrev p k w o).jobs = s.jobs := by cases p <;> rfl
@[simp] theorem State.notePrev_nextJob (p : DictPath) (k : Nat) (w : Bool) (o : Nat) : (s.notePrev p k w o).nextJob = s.nextJob := by cases p <;> rfl
@[simp] theorem State.notePrev_rebuilds (p : DictPath) (k : Nat) (w : Bool) (o : Nat) : (s.notePrev p k w o).rebuilds = s.rebuilds := by cases p <;> rfl
@[simp] theorem State.notePrev_comet (p : DictPath) (k : Nat) (w : Bool) (o : Nat) : (s.notePrev p k w o).comet = s.comet := by cases p <;> rfl
@[simp] theorem State.notePrev_cometHeld (p : DictPath) (k : Nat) (w : Bool) (o : Nat) : (s.notePrev p k w o).cometHeld = s.cometHeld := by cases p <;> rfl
@[simp] theorem State.notePrev_slotsUsed (p : DictPath) (k : Nat) (w : Bool) (o : Nat) : (s.notePrev p k w o).slotsUsed = s.slotsUsed := by cases p <;> rfl
@[simp] theorem State.notePrev_slcOkOnce (p : DictPath) (k : Nat) (w : Bool) (o : Nat) : (s.notePrev p k w o).slcOkOnce = s.slcOkOnce := by cases p <;> rfl
@[simp] theorem State.notePrev_codes (p : DictPath) (k : Nat) (w : Bool) (o : Nat) : (s.notePrev p k w o).codes = s.codes := by cases p <;> rfl
@[simp] theorem State.notePrev_codeErr (p : DictPath) (k : Nat) (w : Bool) (o : Nat) : (s.notePrev p k w o).codeErr = s.codeErr := by cases p <;> rfl
@[simp] theorem State.notePrev_cal (p : DictPath) (k : Nat) (w : Bool) (o : Nat) : (s.notePrev p k w o).cal = s.cal := by cases p <;> rfl
@[simp] theorem State.notePrev_calLast (p : DictPath) (k : Nat) (w : Bool) (o : Nat) : (s.notePrev p k w o).calLast = s.calLast := by cases p <;> rfl
@[simp] theorem State.notePrev_calSnapFrom (p : DictPath) (k : Nat) (w : Bool) (o : Nat) : (s.notePrev p k w o).calSnapFrom = s.calSnapFrom := by cases p <;> rfl
@[simp] theorem State.notePrev_prot (p : DictPath) (k : Nat) (w : Bool) (o : Nat) : (s.notePrev p k w o).prot = s.prot := by cases p <;> rfl
@[simp] theorem State.notePrev_chans (p : DictPath) (k : Nat) (w : Bool) (o : Nat) : (s.notePrev p k w o).chans = s.chans := by cases p <;> rfl
@[simp] theorem State.notePrev_dies (p : DictPath) (k : Nat) (w : Bool) (o : Nat) : (s.notePrev p k w o).dies = s.dies := by cases p <;> rfl
@[simp] theorem State.notePrev_clusters (p : DictPath) (k : Nat) (w : Bool) (o : Nat) : (s.notePrev p k w o).clusters = s.clusters := by cases p <;> rfl
@[simp] theorem State.notePrev_ctxs (p : DictPath) (k : Nat) (w : Bool) (o : Nat) : (s.notePrev p k w o).ctxs = s.ctxs := by cases p <;> rfl
@[simp] theorem State.notePrev_activation (p : DictPath) (k : Nat) (w : Bool) (o : Nat) : (s.notePrev p k w o).activation = s.activation := by cases p <;> rfl
@[simp] theorem State.notePrev_pools (p : DictPath) (k : Nat) (w : Bool) (o : Nat) : (s.notePrev p k w o).pools = s.pools := by cases p <;> rfl
@[simp] theorem State.notePrev_offered (p : DictPath) (k : Nat) (w : Bool) (o : Nat) : (s.notePrev p k w o).offered = s.offered := by cases p <;> rfl
@[simp] theorem State.notePrev_offers (p : DictPath) (k : Nat) (w : Bool) (o : Nat) : (s.notePrev p k w o).offers = s.offers := by cases p <;> rfl
@[simp] theorem State.notePrev_nqs (p : DictPath) (k : Nat) (w : Bool) (o : Nat) : (s.notePrev p k w o).nqs = s.nqs := by cases p <;> rfl
@[simp] theorem State.notePrev_ce (p : DictPath) (k : Nat) (w : Bool) (o : Nat) : (s.notePrev p k w o).ce = s.ce := by cases p <;> rfl
@[simp] theorem State.notePrev_ceSlots (p : DictPath) (k : Nat) (w : Bool) (o : Nat) : (s.notePrev p k w o).ceSlots = s.ceSlots := by cases p <;> rfl
@[simp] theorem State.notePrev_ports (p : DictPath) (k : Nat) (w : Bool) (o : Nat) : (s.notePrev p k w o).ports = s.ports := by cases p <;> rfl
@[simp] theorem State.notePrev_ints (p : DictPath) (k : Nat) (w : Bool) (o : Nat) : (s.notePrev p k w o).ints = s.ints := by cases p <;> rfl
@[simp] theorem State.notePrev_xfers (p : DictPath) (k : Nat) (w : Bool) (o : Nat) : (s.notePrev p k w o).xfers = s.xfers := by cases p <;> rfl
@[simp] theorem State.notePrev_cfg (p : DictPath) (k : Nat) (w : Bool) (o : Nat) : (s.notePrev p k w o).cfg = s.cfg := by cases p <;> rfl
@[simp] theorem State.notePrev_fn (p : DictPath) (k : Nat) (w : Bool) (o : Nat) : (s.notePrev p k w o).fn = s.fn := by cases p <;> rfl
@[simp] theorem State.notePrev_frozen (p : DictPath) (k : Nat) (w : Bool) (o : Nat) : (s.notePrev p k w o).frozen = s.frozen := by cases p <;> rfl
@[simp] theorem State.notePrev_tlog (p : DictPath) (k : Nat) (w : Bool) (o : Nat) : (s.notePrev p k w o).tlog = s.tlog := by cases p <;> rfl

/-! `cometDiscard`. -/

@[simp] theorem State.cometDiscard_pending (p : CometHeld → Bool) : (s.cometDiscard p).pending = s.pending := by simp only [State.cometDiscard]
@[simp] theorem State.cometDiscard_build (p : CometHeld → Bool) : (s.cometDiscard p).build = s.build := by simp only [State.cometDiscard]
@[simp] theorem State.cometDiscard_phase (p : CometHeld → Bool) : (s.cometDiscard p).phase = s.phase := by simp only [State.cometDiscard]
@[simp] theorem State.cometDiscard_resetPor (p : CometHeld → Bool) : (s.cometDiscard p).resetPor = s.resetPor := by simp only [State.cometDiscard]
@[simp] theorem State.cometDiscard_porLow (p : CometHeld → Bool) : (s.cometDiscard p).porLow = s.porLow := by simp only [State.cometDiscard]
@[simp] theorem State.cometDiscard_blkLow (p : CometHeld → Bool) : (s.cometDiscard p).blkLow = s.blkLow := by simp only [State.cometDiscard]
@[simp] theorem State.cometDiscard_lostAtReset (p : CometHeld → Bool) : (s.cometDiscard p).lostAtReset = s.lostAtReset := by simp only [State.cometDiscard]
@[simp] theorem State.cometDiscard_trefKhz (p : CometHeld → Bool) : (s.cometDiscard p).trefKhz = s.trefKhz := by simp only [State.cometDiscard]
@[simp] theorem State.cometDiscard_fnclkSel (p : CometHeld → Bool) : (s.cometDiscard p).fnclkSel = s.fnclkSel := by simp only [State.cometDiscard]
@[simp] theorem State.cometDiscard_testMode (p : CometHeld → Bool) : (s.cometDiscard p).testMode = s.testMode := by simp only [State.cometDiscard]
@[simp] theorem State.cometDiscard_mbistBusy (p : CometHeld → Bool) : (s.cometDiscard p).mbistBusy = s.mbistBusy := by simp only [State.cometDiscard]
@[simp] theorem State.cometDiscard_mbistDone (p : CometHeld → Bool) : (s.cometDiscard p).mbistDone = s.mbistDone := by simp only [State.cometDiscard]
@[simp] theorem State.cometDiscard_mbistFail (p : CometHeld → Bool) : (s.cometDiscard p).mbistFail = s.mbistFail := by simp only [State.cometDiscard]
@[simp] theorem State.cometDiscard_tref (p : CometHeld → Bool) : (s.cometDiscard p).tref = s.tref := by simp only [State.cometDiscard]
@[simp] theorem State.cometDiscard_freeN (p : CometHeld → Bool) : (s.cometDiscard p).freeN = s.freeN := by simp only [State.cometDiscard]
@[simp] theorem State.cometDiscard_modes (p : CometHeld → Bool) : (s.cometDiscard p).modes = s.modes := by simp only [State.cometDiscard]
@[simp] theorem State.cometDiscard_raster (p : CometHeld → Bool) : (s.cometDiscard p).raster = s.raster := by simp only [State.cometDiscard]
@[simp] theorem State.cometDiscard_orbit (p : CometHeld → Bool) : (s.cometDiscard p).orbit = s.orbit := by simp only [State.cometDiscard]
@[simp] theorem State.cometDiscard_streams (p : CometHeld → Bool) : (s.cometDiscard p).streams = s.streams := by simp only [State.cometDiscard]
@[simp] theorem State.cometDiscard_link (p : CometHeld → Bool) : (s.cometDiscard p).link = s.link := by simp only [State.cometDiscard]
@[simp] theorem State.cometDiscard_cmds (p : CometHeld → Bool) : (s.cometDiscard p).cmds = s.cmds := by simp only [State.cometDiscard]
@[simp] theorem State.cometDiscard_stampNext (p : CometHeld → Bool) : (s.cometDiscard p).stampNext = s.stampNext := by simp only [State.cometDiscard]
@[simp] theorem State.cometDiscard_seqWritten (p : CometHeld → Bool) : (s.cometDiscard p).seqWritten = s.seqWritten := by simp only [State.cometDiscard]
@[simp] theorem State.cometDiscard_deferred (p : CometHeld → Bool) : (s.cometDiscard p).deferred = s.deferred := by simp only [State.cometDiscard]
@[simp] theorem State.cometDiscard_deferNew (p : CometHeld → Bool) : (s.cometDiscard p).deferNew = s.deferNew := by simp only [State.cometDiscard]
@[simp] theorem State.cometDiscard_versions (p : CometHeld → Bool) : (s.cometDiscard p).versions = s.versions := by simp only [State.cometDiscard]
@[simp] theorem State.cometDiscard_nextVer (p : CometHeld → Bool) : (s.cometDiscard p).nextVer = s.nextVer := by simp only [State.cometDiscard]
@[simp] theorem State.cometDiscard_hostCws (p : CometHeld → Bool) : (s.cometDiscard p).hostCws = s.hostCws := by simp only [State.cometDiscard]
@[simp] theorem State.cometDiscard_origins (p : CometHeld → Bool) : (s.cometDiscard p).origins = s.origins := by simp only [State.cometDiscard]
@[simp] theorem State.cometDiscard_sbs (p : CometHeld → Bool) : (s.cometDiscard p).sbs = s.sbs := by simp only [State.cometDiscard]
@[simp] theorem State.cometDiscard_allocReqs (p : CometHeld → Bool) : (s.cometDiscard p).allocReqs = s.allocReqs := by simp only [State.cometDiscard]
@[simp] theorem State.cometDiscard_walking (p : CometHeld → Bool) : (s.cometDiscard p).walking = s.walking := by simp only [State.cometDiscard]
@[simp] theorem State.cometDiscard_running (p : CometHeld → Bool) : (s.cometDiscard p).running = s.running := by simp only [State.cometDiscard]
@[simp] theorem State.cometDiscard_interimBlocks (p : CometHeld → Bool) : (s.cometDiscard p).interimBlocks = s.interimBlocks := by simp only [State.cometDiscard]
@[simp] theorem State.cometDiscard_zeroFrom (p : CometHeld → Bool) : (s.cometDiscard p).zeroFrom = s.zeroFrom := by simp only [State.cometDiscard]
@[simp] theorem State.cometDiscard_stallFrom (p : CometHeld → Bool) : (s.cometDiscard p).stallFrom = s.stallFrom := by simp only [State.cometDiscard]
@[simp] theorem State.cometDiscard_lostDies (p : CometHeld → Bool) : (s.cometDiscard p).lostDies = s.lostDies := by simp only [State.cometDiscard]
@[simp] theorem State.cometDiscard_tokens (p : CometHeld → Bool) : (s.cometDiscard p).tokens = s.tokens := by simp only [State.cometDiscard]
@[simp] theorem State.cometDiscard_blockLocks (p : CometHeld → Bool) : (s.cometDiscard p).blockLocks = s.blockLocks := by simp only [State.cometDiscard]
@[simp] theorem State.cometDiscard_pins (p : CometHeld → Bool) : (s.cometDiscard p).pins = s.pins := by simp only [State.cometDiscard]
@[simp] theorem State.cometDiscard_ops (p : CometHeld → Bool) : (s.cometDiscard p).ops = s.ops := by simp only [State.cometDiscard]
@[simp] theorem State.cometDiscard_nextOp (p : CometHeld → Bool) : (s.cometDiscard p).nextOp = s.nextOp := by simp only [State.cometDiscard]
@[simp] theorem State.cometDiscard_jobs (p : CometHeld → Bool) : (s.cometDiscard p).jobs = s.jobs := by simp only [State.cometDiscard]
@[simp] theorem State.cometDiscard_nextJob (p : CometHeld → Bool) : (s.cometDiscard p).nextJob = s.nextJob := by simp only [State.cometDiscard]
@[simp] theorem State.cometDiscard_rebuilds (p : CometHeld → Bool) : (s.cometDiscard p).rebuilds = s.rebuilds := by simp only [State.cometDiscard]
@[simp] theorem State.cometDiscard_comet (p : CometHeld → Bool) : (s.cometDiscard p).comet = s.comet := by simp only [State.cometDiscard]
@[simp] theorem State.cometDiscard_slcOkOnce (p : CometHeld → Bool) : (s.cometDiscard p).slcOkOnce = s.slcOkOnce := by simp only [State.cometDiscard]
@[simp] theorem State.cometDiscard_codes (p : CometHeld → Bool) : (s.cometDiscard p).codes = s.codes := by simp only [State.cometDiscard]
@[simp] theorem State.cometDiscard_codeErr (p : CometHeld → Bool) : (s.cometDiscard p).codeErr = s.codeErr := by simp only [State.cometDiscard]
@[simp] theorem State.cometDiscard_cal (p : CometHeld → Bool) : (s.cometDiscard p).cal = s.cal := by simp only [State.cometDiscard]
@[simp] theorem State.cometDiscard_calLast (p : CometHeld → Bool) : (s.cometDiscard p).calLast = s.calLast := by simp only [State.cometDiscard]
@[simp] theorem State.cometDiscard_calSnapFrom (p : CometHeld → Bool) : (s.cometDiscard p).calSnapFrom = s.calSnapFrom := by simp only [State.cometDiscard]
@[simp] theorem State.cometDiscard_prot (p : CometHeld → Bool) : (s.cometDiscard p).prot = s.prot := by simp only [State.cometDiscard]
@[simp] theorem State.cometDiscard_chans (p : CometHeld → Bool) : (s.cometDiscard p).chans = s.chans := by simp only [State.cometDiscard]
@[simp] theorem State.cometDiscard_dies (p : CometHeld → Bool) : (s.cometDiscard p).dies = s.dies := by simp only [State.cometDiscard]
@[simp] theorem State.cometDiscard_clusters (p : CometHeld → Bool) : (s.cometDiscard p).clusters = s.clusters := by simp only [State.cometDiscard]
@[simp] theorem State.cometDiscard_ctxs (p : CometHeld → Bool) : (s.cometDiscard p).ctxs = s.ctxs := by simp only [State.cometDiscard]
@[simp] theorem State.cometDiscard_activation (p : CometHeld → Bool) : (s.cometDiscard p).activation = s.activation := by simp only [State.cometDiscard]
@[simp] theorem State.cometDiscard_pools (p : CometHeld → Bool) : (s.cometDiscard p).pools = s.pools := by simp only [State.cometDiscard]
@[simp] theorem State.cometDiscard_offered (p : CometHeld → Bool) : (s.cometDiscard p).offered = s.offered := by simp only [State.cometDiscard]
@[simp] theorem State.cometDiscard_offers (p : CometHeld → Bool) : (s.cometDiscard p).offers = s.offers := by simp only [State.cometDiscard]
@[simp] theorem State.cometDiscard_nqs (p : CometHeld → Bool) : (s.cometDiscard p).nqs = s.nqs := by simp only [State.cometDiscard]
@[simp] theorem State.cometDiscard_ce (p : CometHeld → Bool) : (s.cometDiscard p).ce = s.ce := by simp only [State.cometDiscard]
@[simp] theorem State.cometDiscard_ceSlots (p : CometHeld → Bool) : (s.cometDiscard p).ceSlots = s.ceSlots := by simp only [State.cometDiscard]
@[simp] theorem State.cometDiscard_ports (p : CometHeld → Bool) : (s.cometDiscard p).ports = s.ports := by simp only [State.cometDiscard]
@[simp] theorem State.cometDiscard_ints (p : CometHeld → Bool) : (s.cometDiscard p).ints = s.ints := by simp only [State.cometDiscard]
@[simp] theorem State.cometDiscard_procs (p : CometHeld → Bool) : (s.cometDiscard p).procs = s.procs := by simp only [State.cometDiscard]
@[simp] theorem State.cometDiscard_xfers (p : CometHeld → Bool) : (s.cometDiscard p).xfers = s.xfers := by simp only [State.cometDiscard]
@[simp] theorem State.cometDiscard_cfg (p : CometHeld → Bool) : (s.cometDiscard p).cfg = s.cfg := by simp only [State.cometDiscard]
@[simp] theorem State.cometDiscard_fn (p : CometHeld → Bool) : (s.cometDiscard p).fn = s.fn := by simp only [State.cometDiscard]
@[simp] theorem State.cometDiscard_frozen (p : CometHeld → Bool) : (s.cometDiscard p).frozen = s.frozen := by simp only [State.cometDiscard]

/-! `finish`. -/

@[simp] theorem State.finish_pending (st status info : Nat) : (s.finish st status info).pending = s.pending := by simp only [State.finish]
@[simp] theorem State.finish_build (st status info : Nat) : (s.finish st status info).build = s.build := by simp only [State.finish]
@[simp] theorem State.finish_phase (st status info : Nat) : (s.finish st status info).phase = s.phase := by simp only [State.finish]
@[simp] theorem State.finish_resetPor (st status info : Nat) : (s.finish st status info).resetPor = s.resetPor := by simp only [State.finish]
@[simp] theorem State.finish_porLow (st status info : Nat) : (s.finish st status info).porLow = s.porLow := by simp only [State.finish]
@[simp] theorem State.finish_blkLow (st status info : Nat) : (s.finish st status info).blkLow = s.blkLow := by simp only [State.finish]
@[simp] theorem State.finish_lostAtReset (st status info : Nat) : (s.finish st status info).lostAtReset = s.lostAtReset := by simp only [State.finish]
@[simp] theorem State.finish_trefKhz (st status info : Nat) : (s.finish st status info).trefKhz = s.trefKhz := by simp only [State.finish]
@[simp] theorem State.finish_fnclkSel (st status info : Nat) : (s.finish st status info).fnclkSel = s.fnclkSel := by simp only [State.finish]
@[simp] theorem State.finish_testMode (st status info : Nat) : (s.finish st status info).testMode = s.testMode := by simp only [State.finish]
@[simp] theorem State.finish_mbistBusy (st status info : Nat) : (s.finish st status info).mbistBusy = s.mbistBusy := by simp only [State.finish]
@[simp] theorem State.finish_mbistDone (st status info : Nat) : (s.finish st status info).mbistDone = s.mbistDone := by simp only [State.finish]
@[simp] theorem State.finish_mbistFail (st status info : Nat) : (s.finish st status info).mbistFail = s.mbistFail := by simp only [State.finish]
@[simp] theorem State.finish_tref (st status info : Nat) : (s.finish st status info).tref = s.tref := by simp only [State.finish]
@[simp] theorem State.finish_freeN (st status info : Nat) : (s.finish st status info).freeN = s.freeN := by simp only [State.finish]
@[simp] theorem State.finish_mem (st status info : Nat) : (s.finish st status info).mem = s.mem := by simp only [State.finish]
@[simp] theorem State.finish_modes (st status info : Nat) : (s.finish st status info).modes = s.modes := by simp only [State.finish]
@[simp] theorem State.finish_raster (st status info : Nat) : (s.finish st status info).raster = s.raster := by simp only [State.finish]
@[simp] theorem State.finish_orbit (st status info : Nat) : (s.finish st status info).orbit = s.orbit := by simp only [State.finish]
@[simp] theorem State.finish_streams (st status info : Nat) : (s.finish st status info).streams = s.streams := by simp only [State.finish]
@[simp] theorem State.finish_stampNext (st status info : Nat) : (s.finish st status info).stampNext = s.stampNext := by simp only [State.finish]
@[simp] theorem State.finish_seqWritten (st status info : Nat) : (s.finish st status info).seqWritten = s.seqWritten := by simp only [State.finish]
@[simp] theorem State.finish_deferNew (st status info : Nat) : (s.finish st status info).deferNew = s.deferNew := by simp only [State.finish]
@[simp] theorem State.finish_versions (st status info : Nat) : (s.finish st status info).versions = s.versions := by simp only [State.finish]
@[simp] theorem State.finish_nextVer (st status info : Nat) : (s.finish st status info).nextVer = s.nextVer := by simp only [State.finish]
@[simp] theorem State.finish_hostCws (st status info : Nat) : (s.finish st status info).hostCws = s.hostCws := by simp only [State.finish]
@[simp] theorem State.finish_origins (st status info : Nat) : (s.finish st status info).origins = s.origins := by simp only [State.finish]
@[simp] theorem State.finish_sbs (st status info : Nat) : (s.finish st status info).sbs = s.sbs := by simp only [State.finish]
@[simp] theorem State.finish_allocReqs (st status info : Nat) : (s.finish st status info).allocReqs = s.allocReqs := by simp only [State.finish]
@[simp] theorem State.finish_walking (st status info : Nat) : (s.finish st status info).walking = s.walking := by simp only [State.finish]
@[simp] theorem State.finish_running (st status info : Nat) : (s.finish st status info).running = s.running := by simp only [State.finish]
@[simp] theorem State.finish_interimBlocks (st status info : Nat) : (s.finish st status info).interimBlocks = s.interimBlocks := by simp only [State.finish]
@[simp] theorem State.finish_zeroFrom (st status info : Nat) : (s.finish st status info).zeroFrom = s.zeroFrom := by simp only [State.finish]
@[simp] theorem State.finish_stallFrom (st status info : Nat) : (s.finish st status info).stallFrom = s.stallFrom := by simp only [State.finish]
@[simp] theorem State.finish_lostDies (st status info : Nat) : (s.finish st status info).lostDies = s.lostDies := by simp only [State.finish]
@[simp] theorem State.finish_tokens (st status info : Nat) : (s.finish st status info).tokens = s.tokens := by simp only [State.finish]
@[simp] theorem State.finish_blockLocks (st status info : Nat) : (s.finish st status info).blockLocks = s.blockLocks := by simp only [State.finish]
@[simp] theorem State.finish_pins (st status info : Nat) : (s.finish st status info).pins = s.pins := by simp only [State.finish]
@[simp] theorem State.finish_ops (st status info : Nat) : (s.finish st status info).ops = s.ops := by simp only [State.finish]
@[simp] theorem State.finish_nextOp (st status info : Nat) : (s.finish st status info).nextOp = s.nextOp := by simp only [State.finish]
@[simp] theorem State.finish_jobs (st status info : Nat) : (s.finish st status info).jobs = s.jobs := by simp only [State.finish]
@[simp] theorem State.finish_nextJob (st status info : Nat) : (s.finish st status info).nextJob = s.nextJob := by simp only [State.finish]
@[simp] theorem State.finish_rebuilds (st status info : Nat) : (s.finish st status info).rebuilds = s.rebuilds := by simp only [State.finish]
@[simp] theorem State.finish_comet (st status info : Nat) : (s.finish st status info).comet = s.comet := by simp only [State.finish]
@[simp] theorem State.finish_cometHeld (st status info : Nat) : (s.finish st status info).cometHeld = s.cometHeld := by simp only [State.finish]
@[simp] theorem State.finish_slotsUsed (st status info : Nat) : (s.finish st status info).slotsUsed = s.slotsUsed := by simp only [State.finish]
@[simp] theorem State.finish_slcOkOnce (st status info : Nat) : (s.finish st status info).slcOkOnce = s.slcOkOnce := by simp only [State.finish]
@[simp] theorem State.finish_codes (st status info : Nat) : (s.finish st status info).codes = s.codes := by simp only [State.finish]
@[simp] theorem State.finish_codeErr (st status info : Nat) : (s.finish st status info).codeErr = s.codeErr := by simp only [State.finish]
@[simp] theorem State.finish_cal (st status info : Nat) : (s.finish st status info).cal = s.cal := by simp only [State.finish]
@[simp] theorem State.finish_calLast (st status info : Nat) : (s.finish st status info).calLast = s.calLast := by simp only [State.finish]
@[simp] theorem State.finish_calSnapFrom (st status info : Nat) : (s.finish st status info).calSnapFrom = s.calSnapFrom := by simp only [State.finish]
@[simp] theorem State.finish_prot (st status info : Nat) : (s.finish st status info).prot = s.prot := by simp only [State.finish]
@[simp] theorem State.finish_chans (st status info : Nat) : (s.finish st status info).chans = s.chans := by simp only [State.finish]
@[simp] theorem State.finish_dies (st status info : Nat) : (s.finish st status info).dies = s.dies := by simp only [State.finish]
@[simp] theorem State.finish_clusters (st status info : Nat) : (s.finish st status info).clusters = s.clusters := by simp only [State.finish]
@[simp] theorem State.finish_ctxs (st status info : Nat) : (s.finish st status info).ctxs = s.ctxs := by simp only [State.finish]
@[simp] theorem State.finish_activation (st status info : Nat) : (s.finish st status info).activation = s.activation := by simp only [State.finish]
@[simp] theorem State.finish_offers (st status info : Nat) : (s.finish st status info).offers = s.offers := by simp only [State.finish]
@[simp] theorem State.finish_nqs (st status info : Nat) : (s.finish st status info).nqs = s.nqs := by simp only [State.finish]
@[simp] theorem State.finish_ce (st status info : Nat) : (s.finish st status info).ce = s.ce := by simp only [State.finish]
@[simp] theorem State.finish_ceSlots (st status info : Nat) : (s.finish st status info).ceSlots = s.ceSlots := by simp only [State.finish]
@[simp] theorem State.finish_ports (st status info : Nat) : (s.finish st status info).ports = s.ports := by simp only [State.finish]
@[simp] theorem State.finish_ints (st status info : Nat) : (s.finish st status info).ints = s.ints := by simp only [State.finish]
@[simp] theorem State.finish_procs (st status info : Nat) : (s.finish st status info).procs = s.procs := by simp only [State.finish]
@[simp] theorem State.finish_xfers (st status info : Nat) : (s.finish st status info).xfers = s.xfers := by simp only [State.finish]
@[simp] theorem State.finish_cfg (st status info : Nat) : (s.finish st status info).cfg = s.cfg := by simp only [State.finish]
@[simp] theorem State.finish_fn (st status info : Nat) : (s.finish st status info).fn = s.fn := by simp only [State.finish]
@[simp] theorem State.finish_frozen (st status info : Nat) : (s.finish st status info).frozen = s.frozen := by simp only [State.finish]
@[simp] theorem State.finish_tlog (st status info : Nat) : (s.finish st status info).tlog = s.tlog := by simp only [State.finish]

/-! `advance`. -/

@[simp] theorem State.advance_pending : (s.advance).pending = s.pending := by simp only [State.advance]
@[simp] theorem State.advance_build : (s.advance).build = s.build := by simp only [State.advance]
@[simp] theorem State.advance_phase : (s.advance).phase = s.phase := by simp only [State.advance]
@[simp] theorem State.advance_resetPor : (s.advance).resetPor = s.resetPor := by simp only [State.advance]
@[simp] theorem State.advance_porLow : (s.advance).porLow = s.porLow := by simp only [State.advance]
@[simp] theorem State.advance_blkLow : (s.advance).blkLow = s.blkLow := by simp only [State.advance]
@[simp] theorem State.advance_lostAtReset : (s.advance).lostAtReset = s.lostAtReset := by simp only [State.advance]
@[simp] theorem State.advance_trefKhz : (s.advance).trefKhz = s.trefKhz := by simp only [State.advance]
@[simp] theorem State.advance_fnclkSel : (s.advance).fnclkSel = s.fnclkSel := by simp only [State.advance]
@[simp] theorem State.advance_testMode : (s.advance).testMode = s.testMode := by simp only [State.advance]
@[simp] theorem State.advance_mbistBusy : (s.advance).mbistBusy = s.mbistBusy := by simp only [State.advance]
@[simp] theorem State.advance_mbistDone : (s.advance).mbistDone = s.mbistDone := by simp only [State.advance]
@[simp] theorem State.advance_mbistFail : (s.advance).mbistFail = s.mbistFail := by simp only [State.advance]
@[simp] theorem State.advance_tref : (s.advance).tref = s.tref := by simp only [State.advance]
@[simp] theorem State.advance_modes : (s.advance).modes = s.modes := by simp only [State.advance]
@[simp] theorem State.advance_raster : (s.advance).raster = s.raster := by simp only [State.advance]
@[simp] theorem State.advance_orbit : (s.advance).orbit = s.orbit := by simp only [State.advance]
@[simp] theorem State.advance_streams : (s.advance).streams = s.streams := by simp only [State.advance]
@[simp] theorem State.advance_stampNext : (s.advance).stampNext = s.stampNext := by simp only [State.advance]
@[simp] theorem State.advance_seqWritten : (s.advance).seqWritten = s.seqWritten := by simp only [State.advance]
@[simp] theorem State.advance_nextVer : (s.advance).nextVer = s.nextVer := by simp only [State.advance]
@[simp] theorem State.advance_hostCws : (s.advance).hostCws = s.hostCws := by simp only [State.advance]
@[simp] theorem State.advance_origins : (s.advance).origins = s.origins := by simp only [State.advance]
@[simp] theorem State.advance_walking : (s.advance).walking = s.walking := by simp only [State.advance]
@[simp] theorem State.advance_running : (s.advance).running = s.running := by simp only [State.advance]
@[simp] theorem State.advance_interimBlocks : (s.advance).interimBlocks = s.interimBlocks := by simp only [State.advance]
@[simp] theorem State.advance_zeroFrom : (s.advance).zeroFrom = s.zeroFrom := by simp only [State.advance]
@[simp] theorem State.advance_stallFrom : (s.advance).stallFrom = s.stallFrom := by simp only [State.advance]
@[simp] theorem State.advance_lostDies : (s.advance).lostDies = s.lostDies := by simp only [State.advance]
@[simp] theorem State.advance_tokens : (s.advance).tokens = s.tokens := by simp only [State.advance]
@[simp] theorem State.advance_blockLocks : (s.advance).blockLocks = s.blockLocks := by simp only [State.advance]
@[simp] theorem State.advance_pins : (s.advance).pins = s.pins := by simp only [State.advance]
@[simp] theorem State.advance_jobs : (s.advance).jobs = s.jobs := by simp only [State.advance]
@[simp] theorem State.advance_nextJob : (s.advance).nextJob = s.nextJob := by simp only [State.advance]
@[simp] theorem State.advance_rebuilds : (s.advance).rebuilds = s.rebuilds := by simp only [State.advance]
@[simp] theorem State.advance_comet : (s.advance).comet = s.comet := by simp only [State.advance]
@[simp] theorem State.advance_cometHeld : (s.advance).cometHeld = s.cometHeld := by simp only [State.advance]
@[simp] theorem State.advance_slotsUsed : (s.advance).slotsUsed = s.slotsUsed := by simp only [State.advance]
@[simp] theorem State.advance_codes : (s.advance).codes = s.codes := by simp only [State.advance]
@[simp] theorem State.advance_codeErr : (s.advance).codeErr = s.codeErr := by simp only [State.advance]
@[simp] theorem State.advance_cal : (s.advance).cal = s.cal := by simp only [State.advance]
@[simp] theorem State.advance_calLast : (s.advance).calLast = s.calLast := by simp only [State.advance]
@[simp] theorem State.advance_calSnapFrom : (s.advance).calSnapFrom = s.calSnapFrom := by simp only [State.advance]
@[simp] theorem State.advance_prot : (s.advance).prot = s.prot := by simp only [State.advance]
@[simp] theorem State.advance_chans : (s.advance).chans = s.chans := by simp only [State.advance]
@[simp] theorem State.advance_dies : (s.advance).dies = s.dies := by simp only [State.advance]
@[simp] theorem State.advance_clusters : (s.advance).clusters = s.clusters := by simp only [State.advance]
@[simp] theorem State.advance_ctxs : (s.advance).ctxs = s.ctxs := by simp only [State.advance]
@[simp] theorem State.advance_activation : (s.advance).activation = s.activation := by simp only [State.advance]
@[simp] theorem State.advance_offers : (s.advance).offers = s.offers := by simp only [State.advance]
@[simp] theorem State.advance_nqs : (s.advance).nqs = s.nqs := by simp only [State.advance]
@[simp] theorem State.advance_ce : (s.advance).ce = s.ce := by simp only [State.advance]
@[simp] theorem State.advance_ceSlots : (s.advance).ceSlots = s.ceSlots := by simp only [State.advance]
@[simp] theorem State.advance_ports : (s.advance).ports = s.ports := by simp only [State.advance]
@[simp] theorem State.advance_ints : (s.advance).ints = s.ints := by simp only [State.advance]
@[simp] theorem State.advance_procs : (s.advance).procs = s.procs := by simp only [State.advance]
@[simp] theorem State.advance_xfers : (s.advance).xfers = s.xfers := by simp only [State.advance]
@[simp] theorem State.advance_cfg : (s.advance).cfg = s.cfg := by simp only [State.advance]
@[simp] theorem State.advance_fn : (s.advance).fn = s.fn := by simp only [State.advance]
@[simp] theorem State.advance_frozen : (s.advance).frozen = s.frozen := by simp only [State.advance]

/-! `progress`. -/

@[simp] theorem State.progress_raster : (s.progress).raster = s.raster := by simp only [State.progress]
@[simp] theorem State.progress_nextVer : (s.progress).nextVer = s.nextVer := by simp only [State.progress]
@[simp] theorem State.progress_hostCws : (s.progress).hostCws = s.hostCws := by simp only [State.progress]
@[simp] theorem State.progress_origins : (s.progress).origins = s.origins := by simp only [State.progress]
@[simp] theorem State.progress_walking : (s.progress).walking = s.walking := by simp only [State.progress]
@[simp] theorem State.progress_running : (s.progress).running = s.running := by simp only [State.progress]
@[simp] theorem State.progress_interimBlocks : (s.progress).interimBlocks = s.interimBlocks := by simp only [State.progress]
@[simp] theorem State.progress_zeroFrom : (s.progress).zeroFrom = s.zeroFrom := by simp only [State.progress]
@[simp] theorem State.progress_stallFrom : (s.progress).stallFrom = s.stallFrom := by simp only [State.progress]
@[simp] theorem State.progress_lostDies : (s.progress).lostDies = s.lostDies := by simp only [State.progress]
@[simp] theorem State.progress_comet : (s.progress).comet = s.comet := by simp only [State.progress]
@[simp] theorem State.progress_codes : (s.progress).codes = s.codes := by simp only [State.progress]
@[simp] theorem State.progress_codeErr : (s.progress).codeErr = s.codeErr := by simp only [State.progress]
@[simp] theorem State.progress_calSnapFrom : (s.progress).calSnapFrom = s.calSnapFrom := by simp only [State.progress]
@[simp] theorem State.progress_clusters : (s.progress).clusters = s.clusters := by simp only [State.progress]
@[simp] theorem State.progress_ctxs : (s.progress).ctxs = s.ctxs := by simp only [State.progress]
@[simp] theorem State.progress_activation : (s.progress).activation = s.activation := by simp only [State.progress]
@[simp] theorem State.progress_offers : (s.progress).offers = s.offers := by simp only [State.progress]
@[simp] theorem State.progress_nqs : (s.progress).nqs = s.nqs := by simp only [State.progress]
@[simp] theorem State.progress_ints : (s.progress).ints = s.ints := by simp only [State.progress]
@[simp] theorem State.progress_procs : (s.progress).procs = s.procs := by simp only [State.progress]
@[simp] theorem State.progress_xfers : (s.progress).xfers = s.xfers := by simp only [State.progress]
@[simp] theorem State.progress_cfg : (s.progress).cfg = s.cfg := by simp only [State.progress]
@[simp] theorem State.progress_fn : (s.progress).fn = s.fn := by simp only [State.progress]
@[simp] theorem State.progress_frozen : (s.progress).frozen = s.frozen := by simp only [State.progress]

end Sys2Proof.Machine
end

