-- ==== Sys2Proof/Laws/Dict.lean ====
section
/-!
SUPPORT. Laws/Dict.lean: what a dictionary command does once its checks have passed.
-/

namespace Sys2Proof.Machine

open Sys2Proof

/-- A write that passes its checks does what the object's rule says, and is recorded. -/
theorem writeCmd_passes {s : State} {path : DictPath} {o : Obj} {v : W64} {i r : Nat} (f : State → Nat → State × Nat)
    (h : s.WritePasses path o v i r) :
    s.writeCmd path o v f i r = ((f s (o.keep v.toNat)).1.account path (o.at i r) true (f s (o.keep v.toNat)).2 0).notePrev
      path (o.at i r) true (if o.ty.bytes = 8 then 4 else 0) := by
  obtain ⟨⟨hp, hx⟩, hc⟩ := h
  unfold State.writeCmd
  rw [hp, hx]
  simp only [Bool.false_eq_true, if_false]
  unfold State.writeVia
  rw [hc]
  simp [rcOk, rcRange]

/-- A read that passes its checks does what the object's rule says, and is recorded. -/
theorem readCmd_passes {s : State} {path : DictPath} {o : Obj} {i r : Nat} (f : State → State × Nat × Nat)
    (h : s.ReadPasses path o i r) :
    s.readCmd path o f i r = ((f s).1.account path (o.at i r) false (f s).2.1 (f s).2.2).notePrev path (o.at i r) false 0 := by
  obtain ⟨⟨hp, hx⟩, ha, hc⟩ := h
  unfold State.readCmd
  rw [hp, hx]
  simp only [Bool.false_eq_true, if_false]
  unfold State.readVia
  rw [ha, hc]
  simp [rcOk]

/-- A value of an unsigned type without reserved bits is kept whole. -/
theorem Obj.keep_of_fits {o : Obj} {w v : Nat} (h : o.fits w v = true) (hs : o.ty.signed = false)
    (hb : (o.ty == .bool) = false) (hm : o.mask = 0xFFFFFFFFFFFFFFFF) : o.keep v = v := by
  have hv : v < 2 ^ (8 * o.ty.bytes) := by simpa [Obj.fits, hs, hb] using h
  have h64 : 2 ^ (8 * o.ty.bytes) ≤ 2 ^ 64 := Nat.pow_le_pow_right (by decide) (by cases o.ty <;> decide)
  have e : o.mask.toNat = 2 ^ 64 - 1 := by rw [hm]; rfl
  rw [Obj.keep, Nat.mod_eq_of_lt hv, e]
  exact (Nat.and_two_pow_sub_one_eq_mod v 64).trans (Nat.mod_eq_of_lt (by omega))

/-- What the checks of a write say of its value. -/
theorem writeCheck_ok {s : State} {path : DictPath} {o : Obj} {i r w v : Nat} (h : s.writeCheck path o i r w v = rcOk) :
    s.pathAllows path o i r true = true ∧ s.attrCheck o true = rcOk ∧ o.fits w v = true ∧ o.inRange (o.keep v) = true := by
  unfold State.writeCheck at h
  split at h
  · cases h
  · rename_i h1
    dsimp only at h
    split at h
    · rename_i h2; rw [h] at h2; simp at h2
    · rename_i h2
      split at h
      · cases h
      · rename_i h3
        simp at h1 h2 h3
        exact ⟨h1, h2, by simpa using h3.1, by simpa using h3.2⟩

end Sys2Proof.Machine
end

