-- ==== Sys2Proof/Laws/Mem.lean ====
section
/-!
SUPPORT. Laws/Mem.lean: sparse tables and memory: what a read gives after a write, and that every memory operation keeps the
canonical form.
-/

namespace Sys2Proof.Machine

open Sys2Proof

/-! ### Sparse tables -/

@[simp] theorem mapGet_nil {α : Type} (k : Nat) : mapGet ([] : NMap α) k = none := rfl

theorem mapGet_put_same {α : Type} (m : NMap α) (k : Nat) (v : α) : mapGet (mapPut m k v) k = some v := by
  induction m with
  | nil => simp [mapPut, mapGet]
  | cons p rest ih =>
    obtain ⟨a, b⟩ := p
    unfold mapPut
    split
    · simp [mapGet]
    · split
      · simp [mapGet]
      · rename_i h _
        simp [mapGet, h, ih]

theorem mapGet_put_other {α : Type} (m : NMap α) {k j : Nat} (v : α) (h : j ≠ k) :
    mapGet (mapPut m k v) j = mapGet m j := by
  induction m with
  | nil => simp [mapPut, mapGet, Ne.symm h]
  | cons p rest ih =>
    obtain ⟨a, b⟩ := p
    unfold mapPut
    split
    · rename_i e
      have e' : a = k := by simpa using e
      subst e'
      simp [mapGet, Ne.symm h]
    · split
      · simp [mapGet, Ne.symm h]
      · simp [mapGet, ih]

theorem mapGet_del_same {α : Type} (m : NMap α) (k : Nat) : mapGet (mapDel m k) k = none := by
  induction m with
  | nil => rfl
  | cons p rest ih =>
    obtain ⟨a, b⟩ := p
    by_cases e : a = k
    · subst e; simpa [mapDel] using ih
    · have : mapDel ((a, b) :: rest) k = (a, b) :: mapDel rest k := by simp [mapDel, e]
      rw [this, mapGet]; simp [e, ih]

theorem mapGet_del_other {α : Type} (m : NMap α) {k j : Nat} (h : j ≠ k) : mapGet (mapDel m k) j = mapGet m j := by
  induction m with
  | nil => rfl
  | cons p rest ih =>
    obtain ⟨a, b⟩ := p
    by_cases e : a = k
    · subst e
      have : mapDel ((a, b) :: rest) a = mapDel rest a := by simp [mapDel]
      rw [this, ih, mapGet]; simp [Ne.symm h]
    · have : mapDel ((a, b) :: rest) k = (a, b) :: mapDel rest k := by simp [mapDel, e]
      rw [this, mapGet, mapGet, ih]

/-! ### Stored objects -/

/-- The value of an object just set (R462). -/
@[simp] theorem State.obj_setObj_same (s : State) (o : Obj) (v : W64) (i r : Nat) : (s.setObj o v i r).obj o i r = v := by
  unfold State.obj State.setObj
  by_cases h : v = o.default i
  · simp [h, mapGet_del_same]
  · simp [h, mapGet_put_same]

/-- Another object keeps its value. -/
theorem State.obj_setObj_other (s : State) (o o' : Obj) (v : W64) (i r i' r' : Nat) (h : o'.at i' r' ≠ o.at i r) :
    (s.setObj o v i r).obj o' i' r' = s.obj o' i' r' := by
  unfold State.obj State.setObj
  by_cases hd : v = o.default i
  · simp [hd, mapGet_del_other _ h]
  · simp [hd, mapGet_put_other _ _ h]

/-- Time passing leaves every object but STAT_MODE_NS. -/
theorem State.obj_elapse (s : State) (dt : Nat) (o : Obj) (i r : Nat)
    (h : ∀ m, m < 8 → o.at i r ≠ Obj.STAT_MODE_NS.at m 0) : (s.elapse dt).obj o i r = s.obj o i r := by
  have hm : s.modes.current.num < 8 := by cases s.modes.current <;> decide
  exact State.obj_setObj_other s _ o _ _ _ _ _ (h _ hm)

/-! ### Memory -/

theorem keysRise_cons {α : Type} (k : Nat) (v : α) (m : NMap α) :
    keysRise ((k, v) :: m) = true ↔ (∀ p ∈ m, k < p.1) ∧ keysRise m = true := by
  induction m generalizing k v with
  | nil => simp [keysRise]
  | cons p rest ih =>
    obtain ⟨a, b⟩ := p
    constructor
    · intro h
      have h' : k < a ∧ keysRise ((a, b) :: rest) = true := by simpa [keysRise] using h
      refine ⟨?_, h'.2⟩
      intro q hq
      rcases List.mem_cons.mp hq with e | hq
      · subst e; exact h'.1
      · exact Nat.lt_trans h'.1 (((ih a b).mp h'.2).1 q hq)
    · intro h
      have : k < a := h.1 (a, b) (by simp)
      simp [keysRise, this, h.2]

theorem keysRise_append {α : Type} (m n : NMap α) (hm : keysRise m = true) (hn : keysRise n = true)
    (h : ∀ p ∈ m, ∀ q ∈ n, p.1 < q.1) : keysRise (m ++ n) = true := by
  induction m with
  | nil => simpa using hn
  | cons p rest ih =>
    obtain ⟨a, b⟩ := p
    have hc := (keysRise_cons a b rest).mp hm
    rw [List.cons_append, keysRise_cons]
    refine ⟨?_, ih hc.2 fun p hp q hq => h p (List.mem_cons_of_mem _ hp) q hq⟩
    intro q hq
    rcases List.mem_append.mp hq with hq | hq
    · exact hc.1 q hq
    · exact h (a, b) (by simp) q hq

theorem keysRise_filter {α : Type} (m : NMap α) (f : Nat × α → Bool) (hm : keysRise m = true) :
    keysRise (m.filter f) = true := by
  induction m with
  | nil => rfl
  | cons p rest ih =>
    obtain ⟨a, b⟩ := p
    have hc := (keysRise_cons a b rest).mp hm
    by_cases hf : f (a, b)
    · rw [List.filter_cons_of_pos hf, keysRise_cons]
      exact ⟨fun q hq => hc.1 q (List.mem_filter.mp hq).1, ih hc.2⟩
    · rw [List.filter_cons_of_neg hf]; exact ih hc.2

theorem cells_cons (a : Nat) (b : Byte) (bs : List Byte) :
    Memory.cells a (b :: bs) = if b = 0 then Memory.cells (a + 1) bs else (a, b) :: Memory.cells (a + 1) bs := by
  rw [Memory.cells]; simp only [beq_iff_eq]

/-- Where the cells of a string lie, that they hold no 0, and that they rise. -/
theorem cells_spec (a : Nat) (bs : List Byte) :
    (∀ c ∈ Memory.cells a bs, a ≤ c.1 ∧ c.1 < a + bs.length ∧ c.2 ≠ 0) ∧ keysRise (Memory.cells a bs) = true := by
  induction bs generalizing a with
  | nil => exact ⟨by simp [Memory.cells], rfl⟩
  | cons b bs ih =>
    have h := ih (a + 1)
    have inner : ∀ c ∈ Memory.cells (a + 1) bs, a ≤ c.1 ∧ c.1 < a + (b :: bs).length ∧ c.2 ≠ 0 := fun c hc => by
      obtain ⟨h1, h2, h3⟩ := h.1 c hc
      simp only [List.length_cons]
      exact ⟨by omega, by omega, h3⟩
    rw [cells_cons]
    by_cases hb : b = 0
    · rw [if_pos hb]; exact ⟨inner, h.2⟩
    · rw [if_neg hb]
      refine ⟨fun c hc => ?_, ?_⟩
      · rcases List.mem_cons.mp hc with e | hc
        · subst e; exact ⟨Nat.le_refl _, by simp, hb⟩
        · exact inner c hc
      · rw [keysRise_cons]
        exact ⟨fun q hq => by have := (h.1 q hq).1; omega, h.2⟩

/-- Every write keeps the canonical form. -/
theorem Memory.write_wf (m : List Host.Cell) (a : Nat) (bs : List Byte) (h : Memory.wf m = true) :
    Memory.wf (Memory.write m a bs) = true := by
  unfold Memory.wf at h ⊢
  rw [Bool.and_eq_true, List.all_eq_true] at h ⊢
  have hc := cells_spec a bs
  constructor
  · unfold Memory.write
    refine keysRise_append _ _ (keysRise_append _ _ (keysRise_filter _ _ h.1) hc.2 ?_) (keysRise_filter _ _ h.1) ?_
    · intro p hp q hq
      have hp := (List.mem_filter.mp hp).2
      have hq := (hc.1 q hq).1
      simp at hp
      omega
    · intro p hp q hq
      have hq := (List.mem_filter.mp hq).2
      simp at hq
      rcases List.mem_append.mp hp with hp | hp
      · have hp := (List.mem_filter.mp hp).2
        simp at hp
        omega
      · have := hc.1 p hp
        omega
  · intro c hm
    unfold Memory.write at hm
    rcases List.mem_append.mp hm with hm | hm
    · rcases List.mem_append.mp hm with hm | hm
      · exact h.2 c (List.mem_filter.mp hm).1
      · simpa using (hc.1 c hm).2.2
    · exact h.2 c (List.mem_filter.mp hm).1

/-- A number written keeps the canonical form. -/
theorem Memory.setNum_wf (m : List Host.Cell) (a n v : Nat) (h : Memory.wf m = true) :
    Memory.wf (Memory.setNum m a n v) = true := Memory.write_wf m a _ h

/-- What the end of a cycle leaves in memory is in canonical form. -/
theorem Memory.canon_wf (m : List Host.Cell) : Memory.wf (Memory.canon m) = true := by
  unfold Memory.canon
  by_cases h : Memory.wf m = true
  · simp [h]
  · simp only [h]
    have : ∀ (l acc : List Host.Cell), Memory.wf acc = true →
        Memory.wf (l.foldl (fun acc c => Memory.write acc c.1 [c.2]) acc) = true := by
      intro l
      induction l with
      | nil => intro acc ha; exact ha
      | cons c cs ih => intro acc ha; exact ih _ (Memory.write_wf acc c.1 [c.2] ha)
    exact this m [] rfl

/-- Memory already in canonical form stays as it is. -/
theorem Memory.canon_of_wf (m : List Host.Cell) (h : Memory.wf m = true) : Memory.canon m = m := by
  simp [Memory.canon, h]

theorem mapGet_append {α : Type} (m n : NMap α) (k : Nat) :
    mapGet (m ++ n) k = (mapGet m k).or (mapGet n k) := by
  induction m with
  | nil => simp
  | cons p rest ih =>
    obtain ⟨a, b⟩ := p
    rw [List.cons_append, mapGet, mapGet]
    split
    · simp
    · exact ih

theorem mapGet_filter {α : Type} (m : NMap α) (f : Nat → Bool) (k : Nat) :
    mapGet (m.filter fun c => f c.1) k = if f k then mapGet m k else none := by
  induction m with
  | nil => simp
  | cons p rest ih =>
    obtain ⟨a, b⟩ := p
    by_cases hf : f a
    · rw [List.filter_cons_of_pos (by simpa using hf), mapGet, mapGet]
      by_cases e : a = k
      · subst e; simp [hf]
      · simp [e, ih]
    · rw [List.filter_cons_of_neg (by simpa using hf), ih, mapGet]
      by_cases e : a = k
      · subst e; simp [hf]
      · simp [e]

theorem mapGet_mem {α : Type} (m : NMap α) (k : Nat) (v : α) (h : mapGet m k = some v) : (k, v) ∈ m := by
  induction m with
  | nil => simp at h
  | cons p rest ih =>
    obtain ⟨a, b⟩ := p
    rw [mapGet] at h
    by_cases e : a = k
    · subst e; simp at h; simp [h]
    · simp only [beq_iff_eq, e, if_false] at h; exact List.mem_cons_of_mem _ (ih h)

theorem cells_get (a : Nat) (bs : List Byte) (k : Nat) :
    (mapGet (Memory.cells a bs) k).getD 0 = if a ≤ k then bs.getD (k - a) 0 else 0 := by
  induction bs generalizing a with
  | nil => simp [Memory.cells]
  | cons b bs ih =>
    have e : (mapGet (Memory.cells a (b :: bs)) k).getD 0
        = if a = k then b else (mapGet (Memory.cells (a + 1) bs) k).getD 0 := by
      rw [cells_cons]
      by_cases hb : b = 0
      · rw [if_pos hb]
        by_cases h : a = k
        · rw [if_pos h, ih, if_neg (by omega), hb]
        · rw [if_neg h]
      · rw [if_neg hb, mapGet]
        by_cases h : a = k
        · simp [h]
        · simp only [beq_iff_eq, h, if_false]
    rw [e, ih]
    rcases Nat.lt_trichotomy a k with h | h | h
    · obtain ⟨d, rfl⟩ : ∃ d, k = a + 1 + d := ⟨k - (a + 1), by omega⟩
      have h1 : a + 1 + d - (a + 1) = d := by omega
      have h2 : a + 1 + d - a = d + 1 := by omega
      rw [if_neg (by omega), if_pos (by omega), if_pos (by omega), h1, h2, List.getD_cons_succ]
    · subst h; simp
    · rw [if_neg (by omega), if_neg (by omega), if_neg (by omega)]

theorem cells_outside (a : Nat) (bs : List Byte) (k : Nat) (h : k < a ∨ a + bs.length ≤ k) :
    mapGet (Memory.cells a bs) k = none := by
  cases hg : mapGet (Memory.cells a bs) k with
  | none => rfl
  | some v =>
    obtain ⟨h1, h2, _⟩ := (cells_spec a bs).1 _ (mapGet_mem _ _ _ hg)
    simp only at h1 h2
    omega

/-- One byte of memory after a write: the string's byte inside it, the old byte outside. -/
theorem Memory.byte_write (m : List Host.Cell) (a : Nat) (bs : List Byte) (k : Nat) :
    Memory.byte (Memory.write m a bs) k =
      if a ≤ k ∧ k < a + bs.length then bs.getD (k - a) 0 else Memory.byte m k := by
  unfold Memory.byte mapGetD Memory.write
  rw [mapGet_append, mapGet_append, mapGet_filter m (fun x => decide (x < a)) k,
    mapGet_filter m (fun x => decide (a + bs.length ≤ x)) k]
  by_cases h1 : k < a
  · rw [cells_outside a bs k (.inl h1), if_neg (by omega : ¬ (a ≤ k ∧ k < a + bs.length))]
    have h2 : ¬ (a + bs.length ≤ k) := by omega
    simp [h1, h2]
  · by_cases h2 : k < a + bs.length
    · have hc := cells_get a bs k
      rw [if_pos (by omega)] at hc
      rw [if_pos (by omega : a ≤ k ∧ k < a + bs.length), ← hc]
      have h3 : ¬ (a + bs.length ≤ k) := by omega
      simp [h1, h3]
    · have h3 : a + bs.length ≤ k := by omega
      rw [cells_outside a bs k (.inr h3), if_neg (by omega : ¬ (a ≤ k ∧ k < a + bs.length))]
      simp [h1, h3]

/-- A fold whose steps keep the canonical form keeps it. -/
theorem foldl_wf {α : Type} (f : List Host.Cell → α → List Host.Cell) (hf : ∀ m x, Memory.wf m = true → Memory.wf (f m x) = true)
    (l : List α) : ∀ m, Memory.wf m = true → Memory.wf (l.foldl f m) = true := by
  induction l with
  | nil => exact fun _ h => h
  | cons x l ih => exact fun m h => ih _ (hf m x h)

/-- The effect of a port's write keeps the canonical form, whole or in part (R514, R515), as does what a reset leaves of it. -/
theorem MpReq.apply_wf (r : MpReq) (m : List Host.Cell) (h : Memory.wf m = true) : Memory.wf (r.apply m) = true := by
  refine foldl_wf _ (fun m i hm => ?_) _ m h
  split
  · exact Memory.write_wf _ _ _ hm
  · exact hm

theorem MpReq.applySome_wf (r : MpReq) (pick : Nat) (m : List Host.Cell) (h : Memory.wf m = true) :
    Memory.wf (r.applySome pick m) = true := by
  refine foldl_wf _ (fun m i hm => ?_) _ m h
  split
  · exact Memory.write_wf _ _ _ hm
  · exact hm

theorem State.memAtReset_wf (s : State) (h : Memory.wf s.mem = true) : Memory.wf s.memAtReset = true := by
  refine foldl_wf _ (fun m x hm => ?_) _ s.mem h
  split
  · exact MpReq.apply_wf _ _ hm
  · exact hm

end Sys2Proof.Machine
end

