-- ==== Sys2Proof/Laws/Settle.lean ====
section
/-!
SUPPORT. Laws/Settle.lean: what the end of a core cycle leaves as it is (`unitWatch`, `poolWatch`, `settle`), field by field,
and what it makes of the rest.
-/

namespace Sys2Proof.Machine

open Sys2Proof

/-- A fold keeps what each of its steps keeps. -/
theorem foldl_keeps {α β γ : Type} (view : α → γ) (step : α → β → α) (h : ∀ a b, view (step a b) = view a) (l : List β)
    (a : α) : view (l.foldl step a) = view a := by
  induction l generalizing a with
  | nil => rfl
  | cons b bs ih => rw [List.foldl_cons, ih, h]

/-- What a view sees of a pool brought up to date, if it sees neither pools nor notices. -/
theorem poolWatch_keeps {γ : Type} (view : State → γ) (hp : ∀ s p f, view (State.updPool s p f) = view s)
    (hn : ∀ s k c x fs, view (State.classNotice s k c x fs) = view s) (s : State) (p : Nat) :
    view (s.poolWatch p) = view s := by
  unfold State.poolWatch
  dsimp only
  split
  · rfl
  · split
    · rw [hn, hp]
    · rw [hp]

/-- What a view sees of the units brought up to date, if it sees neither notices nor owed OK_WITH_NOTICEs. -/
theorem unitWatch_keeps {γ : Type} (view : State → γ)
    (hn : ∀ s k u fs h c, view (State.unitNotice s k u fs h c) = view s)
    (ho : ∀ (s : State) l, view { s with slcOkOnce := l } = view s) (before s : State) :
    view (before.unitWatch s) = view s := by
  unfold State.unitWatch
  refine foldl_keeps view _ (fun a u => ?_) _ _
  dsimp only
  split
  · rfl
  · split
    · rfl
    · split
      · rw [ho, hn]
      · rw [hn]

/-- What a view sees of the watchers of a cycle's end. -/
theorem watch_keeps {γ : Type} (view : State → γ) (hp : ∀ s p f, view (State.updPool s p f) = view s)
    (hc : ∀ s k c x fs, view (State.classNotice s k c x fs) = view s)
    (hn : ∀ s k u fs h c, view (State.unitNotice s k u fs h c) = view s)
    (ho : ∀ (s : State) l, view { s with slcOkOnce := l } = view s) (before s : State) :
    view (before.watch s) = view s := by
  rw [State.watch, foldl_keeps view _ (fun a p => poolWatch_keeps view hp hc a p), unitWatch_keeps view hn ho]

variable (before after : State)

@[simp] theorem State.enterCycle_pending : (before.enterCycle after).pending = before.pending := (rfl)
@[simp] theorem State.enterCycle_build : (before.enterCycle after).build = before.build := (rfl)
@[simp] theorem State.enterCycle_resetPor : (before.enterCycle after).resetPor = before.resetPor := (rfl)
@[simp] theorem State.enterCycle_porLow : (before.enterCycle after).porLow = before.porLow := (rfl)
@[simp] theorem State.enterCycle_blkLow : (before.enterCycle after).blkLow = before.blkLow := (rfl)
@[simp] theorem State.enterCycle_lostAtReset : (before.enterCycle after).lostAtReset = before.lostAtReset := (rfl)
@[simp] theorem State.enterCycle_trefKhz : (before.enterCycle after).trefKhz = before.trefKhz := (rfl)
@[simp] theorem State.enterCycle_fnclkSel : (before.enterCycle after).fnclkSel = before.fnclkSel := (rfl)
@[simp] theorem State.enterCycle_testMode : (before.enterCycle after).testMode = before.testMode := (rfl)
@[simp] theorem State.enterCycle_mbistBusy : (before.enterCycle after).mbistBusy = before.mbistBusy := (rfl)
@[simp] theorem State.enterCycle_mbistDone : (before.enterCycle after).mbistDone = before.mbistDone := (rfl)
@[simp] theorem State.enterCycle_mbistFail : (before.enterCycle after).mbistFail = before.mbistFail := (rfl)
@[simp] theorem State.enterCycle_tref : (before.enterCycle after).tref = before.tref := (rfl)
@[simp] theorem State.enterCycle_phase : (before.enterCycle after).phase = after.phase := (rfl)
@[simp] theorem State.enterCycle_freeN : (before.enterCycle after).freeN = after.freeN := (rfl)
@[simp] theorem State.enterCycle_dict : (before.enterCycle after).dict = after.dict := (rfl)
@[simp] theorem State.enterCycle_modes : (before.enterCycle after).modes = after.modes := (rfl)
@[simp] theorem State.enterCycle_raster : (before.enterCycle after).raster = after.raster := (rfl)
@[simp] theorem State.enterCycle_orbit : (before.enterCycle after).orbit = after.orbit := (rfl)
@[simp] theorem State.enterCycle_streams : (before.enterCycle after).streams = after.streams := (rfl)
@[simp] theorem State.enterCycle_cmds : (before.enterCycle after).cmds = after.cmds := (rfl)
@[simp] theorem State.enterCycle_stampNext : (before.enterCycle after).stampNext = after.stampNext := (rfl)
@[simp] theorem State.enterCycle_seqWritten : (before.enterCycle after).seqWritten = after.seqWritten := (rfl)
@[simp] theorem State.enterCycle_versions : (before.enterCycle after).versions = after.versions := (rfl)
@[simp] theorem State.enterCycle_nextVer : (before.enterCycle after).nextVer = after.nextVer := (rfl)
@[simp] theorem State.enterCycle_hostCws : (before.enterCycle after).hostCws = after.hostCws := (rfl)
@[simp] theorem State.enterCycle_origins : (before.enterCycle after).origins = after.origins := (rfl)
@[simp] theorem State.enterCycle_sbs : (before.enterCycle after).sbs = after.sbs := (rfl)
@[simp] theorem State.enterCycle_allocReqs : (before.enterCycle after).allocReqs = after.allocReqs := (rfl)
@[simp] theorem State.enterCycle_walking : (before.enterCycle after).walking = after.walking := (rfl)
@[simp] theorem State.enterCycle_running : (before.enterCycle after).running = after.running := (rfl)
@[simp] theorem State.enterCycle_interimBlocks : (before.enterCycle after).interimBlocks = after.interimBlocks := (rfl)
@[simp] theorem State.enterCycle_zeroFrom : (before.enterCycle after).zeroFrom = after.zeroFrom := (rfl)
@[simp] theorem State.enterCycle_stallFrom : (before.enterCycle after).stallFrom = after.stallFrom := (rfl)
@[simp] theorem State.enterCycle_lostDies : (before.enterCycle after).lostDies = after.lostDies := (rfl)
@[simp] theorem State.enterCycle_tokens : (before.enterCycle after).tokens = after.tokens := (rfl)
@[simp] theorem State.enterCycle_blockLocks : (before.enterCycle after).blockLocks = after.blockLocks := (rfl)
@[simp] theorem State.enterCycle_pins : (before.enterCycle after).pins = after.pins := (rfl)
@[simp] theorem State.enterCycle_ops : (before.enterCycle after).ops = after.ops := (rfl)
@[simp] theorem State.enterCycle_nextOp : (before.enterCycle after).nextOp = after.nextOp := (rfl)
@[simp] theorem State.enterCycle_jobs : (before.enterCycle after).jobs = after.jobs := (rfl)
@[simp] theorem State.enterCycle_nextJob : (before.enterCycle after).nextJob = after.nextJob := (rfl)
@[simp] theorem State.enterCycle_rebuilds : (before.enterCycle after).rebuilds = after.rebuilds := (rfl)
@[simp] theorem State.enterCycle_comet : (before.enterCycle after).comet = after.comet := (rfl)
@[simp] theorem State.enterCycle_cometHeld : (before.enterCycle after).cometHeld = after.cometHeld := (rfl)
@[simp] theorem State.enterCycle_slotsUsed : (before.enterCycle after).slotsUsed = after.slotsUsed := (rfl)
@[simp] theorem State.enterCycle_slcOkOnce : (before.enterCycle after).slcOkOnce = after.slcOkOnce := (rfl)
@[simp] theorem State.enterCycle_codes : (before.enterCycle after).codes = after.codes := (rfl)
@[simp] theorem State.enterCycle_codeErr : (before.enterCycle after).codeErr = after.codeErr := (rfl)
@[simp] theorem State.enterCycle_cal : (before.enterCycle after).cal = after.cal := (rfl)
@[simp] theorem State.enterCycle_calLast : (before.enterCycle after).calLast = after.calLast := (rfl)
@[simp] theorem State.enterCycle_calSnapFrom : (before.enterCycle after).calSnapFrom = after.calSnapFrom := (rfl)
@[simp] theorem State.enterCycle_prot : (before.enterCycle after).prot = after.prot := (rfl)
@[simp] theorem State.enterCycle_chans : (before.enterCycle after).chans = after.chans := (rfl)
@[simp] theorem State.enterCycle_dies : (before.enterCycle after).dies = after.dies := (rfl)
@[simp] theorem State.enterCycle_clusters : (before.enterCycle after).clusters = after.clusters := (rfl)
@[simp] theorem State.enterCycle_ctxs : (before.enterCycle after).ctxs = after.ctxs := (rfl)
@[simp] theorem State.enterCycle_activation : (before.enterCycle after).activation = after.activation := (rfl)
@[simp] theorem State.enterCycle_pools : (before.enterCycle after).pools = after.pools := (rfl)
@[simp] theorem State.enterCycle_nqs : (before.enterCycle after).nqs = after.nqs := (rfl)
@[simp] theorem State.enterCycle_ce : (before.enterCycle after).ce = after.ce := (rfl)
@[simp] theorem State.enterCycle_ceSlots : (before.enterCycle after).ceSlots = after.ceSlots := (rfl)
@[simp] theorem State.enterCycle_ports : (before.enterCycle after).ports = after.ports := (rfl)
@[simp] theorem State.enterCycle_procs : (before.enterCycle after).procs = after.procs := (rfl)
@[simp] theorem State.enterCycle_xfers : (before.enterCycle after).xfers = after.xfers := (rfl)
@[simp] theorem State.enterCycle_cfg : (before.enterCycle after).cfg = after.cfg := (rfl)
@[simp] theorem State.enterCycle_fn : (before.enterCycle after).fn = after.fn := (rfl)
@[simp] theorem State.enterCycle_frozen : (before.enterCycle after).frozen = after.frozen := (rfl)
@[simp] theorem State.enterCycle_offered : (before.enterCycle after).offered = [] := (rfl)
@[simp] theorem State.enterCycle_deferNew : (before.enterCycle after).deferNew = [] := (rfl)
theorem State.enterCycle_mem : (before.enterCycle after).mem = Memory.canon after.mem := (rfl)
theorem State.enterCycle_deferred : (before.enterCycle after).deferred = after.deferred ++ after.deferNew := (rfl)
theorem State.enterCycle_tlog : (before.enterCycle after).tlog = after.tlog.enter := (rfl)
theorem State.enterCycle_offers :
    (before.enterCycle after).offers = after.offers ++ sortBy noticeLe after.offered := (rfl)
theorem State.enterCycle_link : (before.enterCycle after).link = after.linkWatch := (rfl)
theorem State.enterCycle_ints : (before.enterCycle after).ints = { after.ints with coal := after.coalAll } := (rfl)

@[simp] theorem State.watch_pending : (before.watch after).pending = after.pending :=
  watch_keeps State.pending (fun _ _ _ => (rfl)) (fun _ _ _ _ _ => (rfl)) (fun s _ _ _ _ _ => by simp) (fun _ _ => (rfl)) before after
@[simp] theorem State.watch_build : (before.watch after).build = after.build :=
  watch_keeps State.build (fun _ _ _ => (rfl)) (fun _ _ _ _ _ => (rfl)) (fun s _ _ _ _ _ => by simp) (fun _ _ => (rfl)) before after
@[simp] theorem State.watch_phase : (before.watch after).phase = after.phase :=
  watch_keeps State.phase (fun _ _ _ => (rfl)) (fun _ _ _ _ _ => (rfl)) (fun s _ _ _ _ _ => by simp) (fun _ _ => (rfl)) before after
@[simp] theorem State.watch_resetPor : (before.watch after).resetPor = after.resetPor :=
  watch_keeps State.resetPor (fun _ _ _ => (rfl)) (fun _ _ _ _ _ => (rfl)) (fun s _ _ _ _ _ => by simp) (fun _ _ => (rfl)) before after
@[simp] theorem State.watch_porLow : (before.watch after).porLow = after.porLow :=
  watch_keeps State.porLow (fun _ _ _ => (rfl)) (fun _ _ _ _ _ => (rfl)) (fun s _ _ _ _ _ => by simp) (fun _ _ => (rfl)) before after
@[simp] theorem State.watch_blkLow : (before.watch after).blkLow = after.blkLow :=
  watch_keeps State.blkLow (fun _ _ _ => (rfl)) (fun _ _ _ _ _ => (rfl)) (fun s _ _ _ _ _ => by simp) (fun _ _ => (rfl)) before after
@[simp] theorem State.watch_lostAtReset : (before.watch after).lostAtReset = after.lostAtReset :=
  watch_keeps State.lostAtReset (fun _ _ _ => (rfl)) (fun _ _ _ _ _ => (rfl)) (fun s _ _ _ _ _ => by simp) (fun _ _ => (rfl)) before after
@[simp] theorem State.watch_trefKhz : (before.watch after).trefKhz = after.trefKhz :=
  watch_keeps State.trefKhz (fun _ _ _ => (rfl)) (fun _ _ _ _ _ => (rfl)) (fun s _ _ _ _ _ => by simp) (fun _ _ => (rfl)) before after
@[simp] theorem State.watch_fnclkSel : (before.watch after).fnclkSel = after.fnclkSel :=
  watch_keeps State.fnclkSel (fun _ _ _ => (rfl)) (fun _ _ _ _ _ => (rfl)) (fun s _ _ _ _ _ => by simp) (fun _ _ => (rfl)) before after
@[simp] theorem State.watch_testMode : (before.watch after).testMode = after.testMode :=
  watch_keeps State.testMode (fun _ _ _ => (rfl)) (fun _ _ _ _ _ => (rfl)) (fun s _ _ _ _ _ => by simp) (fun _ _ => (rfl)) before after
@[simp] theorem State.watch_mbistBusy : (before.watch after).mbistBusy = after.mbistBusy :=
  watch_keeps State.mbistBusy (fun _ _ _ => (rfl)) (fun _ _ _ _ _ => (rfl)) (fun s _ _ _ _ _ => by simp) (fun _ _ => (rfl)) before after
@[simp] theorem State.watch_mbistDone : (before.watch after).mbistDone = after.mbistDone :=
  watch_keeps State.mbistDone (fun _ _ _ => (rfl)) (fun _ _ _ _ _ => (rfl)) (fun s _ _ _ _ _ => by simp) (fun _ _ => (rfl)) before after
@[simp] theorem State.watch_mbistFail : (before.watch after).mbistFail = after.mbistFail :=
  watch_keeps State.mbistFail (fun _ _ _ => (rfl)) (fun _ _ _ _ _ => (rfl)) (fun s _ _ _ _ _ => by simp) (fun _ _ => (rfl)) before after
@[simp] theorem State.watch_tref : (before.watch after).tref = after.tref :=
  watch_keeps State.tref (fun _ _ _ => (rfl)) (fun _ _ _ _ _ => (rfl)) (fun s _ _ _ _ _ => by simp) (fun _ _ => (rfl)) before after
@[simp] theorem State.watch_freeN : (before.watch after).freeN = after.freeN :=
  watch_keeps State.freeN (fun _ _ _ => (rfl)) (fun _ _ _ _ _ => (rfl)) (fun s _ _ _ _ _ => by simp) (fun _ _ => (rfl)) before after
@[simp] theorem State.watch_dict : (before.watch after).dict = after.dict :=
  watch_keeps State.dict (fun _ _ _ => (rfl)) (fun _ _ _ _ _ => (rfl)) (fun s _ _ _ _ _ => by simp) (fun _ _ => (rfl)) before after
@[simp] theorem State.watch_mem : (before.watch after).mem = after.mem :=
  watch_keeps State.mem (fun _ _ _ => (rfl)) (fun _ _ _ _ _ => (rfl)) (fun s _ _ _ _ _ => by simp) (fun _ _ => (rfl)) before after
@[simp] theorem State.watch_modes : (before.watch after).modes = after.modes :=
  watch_keeps State.modes (fun _ _ _ => (rfl)) (fun _ _ _ _ _ => (rfl)) (fun s _ _ _ _ _ => by simp) (fun _ _ => (rfl)) before after
@[simp] theorem State.watch_raster : (before.watch after).raster = after.raster :=
  watch_keeps State.raster (fun _ _ _ => (rfl)) (fun _ _ _ _ _ => (rfl)) (fun s _ _ _ _ _ => by simp) (fun _ _ => (rfl)) before after
@[simp] theorem State.watch_orbit : (before.watch after).orbit = after.orbit :=
  watch_keeps State.orbit (fun _ _ _ => (rfl)) (fun _ _ _ _ _ => (rfl)) (fun s _ _ _ _ _ => by simp) (fun _ _ => (rfl)) before after
@[simp] theorem State.watch_streams : (before.watch after).streams = after.streams :=
  watch_keeps State.streams (fun _ _ _ => (rfl)) (fun _ _ _ _ _ => (rfl)) (fun s _ _ _ _ _ => by simp) (fun _ _ => (rfl)) before after
@[simp] theorem State.watch_link : (before.watch after).link = after.link :=
  watch_keeps State.link (fun _ _ _ => (rfl)) (fun _ _ _ _ _ => (rfl)) (fun s _ _ _ _ _ => by simp) (fun _ _ => (rfl)) before after
@[simp] theorem State.watch_cmds : (before.watch after).cmds = after.cmds :=
  watch_keeps State.cmds (fun _ _ _ => (rfl)) (fun _ _ _ _ _ => (rfl)) (fun s _ _ _ _ _ => by simp) (fun _ _ => (rfl)) before after
@[simp] theorem State.watch_stampNext : (before.watch after).stampNext = after.stampNext :=
  watch_keeps State.stampNext (fun _ _ _ => (rfl)) (fun _ _ _ _ _ => (rfl)) (fun s _ _ _ _ _ => by simp) (fun _ _ => (rfl)) before after
@[simp] theorem State.watch_seqWritten : (before.watch after).seqWritten = after.seqWritten :=
  watch_keeps State.seqWritten (fun _ _ _ => (rfl)) (fun _ _ _ _ _ => (rfl)) (fun s _ _ _ _ _ => by simp) (fun _ _ => (rfl)) before after
@[simp] theorem State.watch_deferred : (before.watch after).deferred = after.deferred :=
  watch_keeps State.deferred (fun _ _ _ => (rfl)) (fun _ _ _ _ _ => (rfl)) (fun s _ _ _ _ _ => by simp) (fun _ _ => (rfl)) before after
@[simp] theorem State.watch_deferNew : (before.watch after).deferNew = after.deferNew :=
  watch_keeps State.deferNew (fun _ _ _ => (rfl)) (fun _ _ _ _ _ => (rfl)) (fun s _ _ _ _ _ => by simp) (fun _ _ => (rfl)) before after
@[simp] theorem State.watch_versions : (before.watch after).versions = after.versions :=
  watch_keeps State.versions (fun _ _ _ => (rfl)) (fun _ _ _ _ _ => (rfl)) (fun s _ _ _ _ _ => by simp) (fun _ _ => (rfl)) before after
@[simp] theorem State.watch_nextVer : (before.watch after).nextVer = after.nextVer :=
  watch_keeps State.nextVer (fun _ _ _ => (rfl)) (fun _ _ _ _ _ => (rfl)) (fun s _ _ _ _ _ => by simp) (fun _ _ => (rfl)) before after
@[simp] theorem State.watch_hostCws : (before.watch after).hostCws = after.hostCws :=
  watch_keeps State.hostCws (fun _ _ _ => (rfl)) (fun _ _ _ _ _ => (rfl)) (fun s _ _ _ _ _ => by simp) (fun _ _ => (rfl)) before after
@[simp] theorem State.watch_origins : (before.watch after).origins = after.origins :=
  watch_keeps State.origins (fun _ _ _ => (rfl)) (fun _ _ _ _ _ => (rfl)) (fun s _ _ _ _ _ => by simp) (fun _ _ => (rfl)) before after
@[simp] theorem State.watch_sbs : (before.watch after).sbs = after.sbs :=
  watch_keeps State.sbs (fun _ _ _ => (rfl)) (fun _ _ _ _ _ => (rfl)) (fun s _ _ _ _ _ => by simp) (fun _ _ => (rfl)) before after
@[simp] theorem State.watch_allocReqs : (before.watch after).allocReqs = after.allocReqs :=
  watch_keeps State.allocReqs (fun _ _ _ => (rfl)) (fun _ _ _ _ _ => (rfl)) (fun s _ _ _ _ _ => by simp) (fun _ _ => (rfl)) before after
@[simp] theorem State.watch_walking : (before.watch after).walking = after.walking :=
  watch_keeps State.walking (fun _ _ _ => (rfl)) (fun _ _ _ _ _ => (rfl)) (fun s _ _ _ _ _ => by simp) (fun _ _ => (rfl)) before after
@[simp] theorem State.watch_running : (before.watch after).running = after.running :=
  watch_keeps State.running (fun _ _ _ => (rfl)) (fun _ _ _ _ _ => (rfl)) (fun s _ _ _ _ _ => by simp) (fun _ _ => (rfl)) before after
@[simp] theorem State.watch_interimBlocks : (before.watch after).interimBlocks = after.interimBlocks :=
  watch_keeps State.interimBlocks (fun _ _ _ => (rfl)) (fun _ _ _ _ _ => (rfl)) (fun s _ _ _ _ _ => by simp) (fun _ _ => (rfl)) before after
@[simp] theorem State.watch_zeroFrom : (before.watch after).zeroFrom = after.zeroFrom :=
  watch_keeps State.zeroFrom (fun _ _ _ => (rfl)) (fun _ _ _ _ _ => (rfl)) (fun s _ _ _ _ _ => by simp) (fun _ _ => (rfl)) before after
@[simp] theorem State.watch_stallFrom : (before.watch after).stallFrom = after.stallFrom :=
  watch_keeps State.stallFrom (fun _ _ _ => (rfl)) (fun _ _ _ _ _ => (rfl)) (fun s _ _ _ _ _ => by simp) (fun _ _ => (rfl)) before after
@[simp] theorem State.watch_lostDies : (before.watch after).lostDies = after.lostDies :=
  watch_keeps State.lostDies (fun _ _ _ => (rfl)) (fun _ _ _ _ _ => (rfl)) (fun s _ _ _ _ _ => by simp) (fun _ _ => (rfl)) before after
@[simp] theorem State.watch_tokens : (before.watch after).tokens = after.tokens :=
  watch_keeps State.tokens (fun _ _ _ => (rfl)) (fun _ _ _ _ _ => (rfl)) (fun s _ _ _ _ _ => by simp) (fun _ _ => (rfl)) before after
@[simp] theorem State.watch_blockLocks : (before.watch after).blockLocks = after.blockLocks :=
  watch_keeps State.blockLocks (fun _ _ _ => (rfl)) (fun _ _ _ _ _ => (rfl)) (fun s _ _ _ _ _ => by simp) (fun _ _ => (rfl)) before after
@[simp] theorem State.watch_pins : (before.watch after).pins = after.pins :=
  watch_keeps State.pins (fun _ _ _ => (rfl)) (fun _ _ _ _ _ => (rfl)) (fun s _ _ _ _ _ => by simp) (fun _ _ => (rfl)) before after
@[simp] theorem State.watch_ops : (before.watch after).ops = after.ops :=
  watch_keeps State.ops (fun _ _ _ => (rfl)) (fun _ _ _ _ _ => (rfl)) (fun s _ _ _ _ _ => by simp) (fun _ _ => (rfl)) before after
@[simp] theorem State.watch_nextOp : (before.watch after).nextOp = after.nextOp :=
  watch_keeps State.nextOp (fun _ _ _ => (rfl)) (fun _ _ _ _ _ => (rfl)) (fun s _ _ _ _ _ => by simp) (fun _ _ => (rfl)) before after
@[simp] theorem State.watch_jobs : (before.watch after).jobs = after.jobs :=
  watch_keeps State.jobs (fun _ _ _ => (rfl)) (fun _ _ _ _ _ => (rfl)) (fun s _ _ _ _ _ => by simp) (fun _ _ => (rfl)) before after
@[simp] theorem State.watch_nextJob : (before.watch after).nextJob = after.nextJob :=
  watch_keeps State.nextJob (fun _ _ _ => (rfl)) (fun _ _ _ _ _ => (rfl)) (fun s _ _ _ _ _ => by simp) (fun _ _ => (rfl)) before after
@[simp] theorem State.watch_rebuilds : (before.watch after).rebuilds = after.rebuilds :=
  watch_keeps State.rebuilds (fun _ _ _ => (rfl)) (fun _ _ _ _ _ => (rfl)) (fun s _ _ _ _ _ => by simp) (fun _ _ => (rfl)) before after
@[simp] theorem State.watch_comet : (before.watch after).comet = after.comet :=
  watch_keeps State.comet (fun _ _ _ => (rfl)) (fun _ _ _ _ _ => (rfl)) (fun s _ _ _ _ _ => by simp) (fun _ _ => (rfl)) before after
@[simp] theorem State.watch_cometHeld : (before.watch after).cometHeld = after.cometHeld :=
  watch_keeps State.cometHeld (fun _ _ _ => (rfl)) (fun _ _ _ _ _ => (rfl)) (fun s _ _ _ _ _ => by simp) (fun _ _ => (rfl)) before after
@[simp] theorem State.watch_slotsUsed : (before.watch after).slotsUsed = after.slotsUsed :=
  watch_keeps State.slotsUsed (fun _ _ _ => (rfl)) (fun _ _ _ _ _ => (rfl)) (fun s _ _ _ _ _ => by simp) (fun _ _ => (rfl)) before after
@[simp] theorem State.watch_codes : (before.watch after).codes = after.codes :=
  watch_keeps State.codes (fun _ _ _ => (rfl)) (fun _ _ _ _ _ => (rfl)) (fun s _ _ _ _ _ => by simp) (fun _ _ => (rfl)) before after
@[simp] theorem State.watch_codeErr : (before.watch after).codeErr = after.codeErr :=
  watch_keeps State.codeErr (fun _ _ _ => (rfl)) (fun _ _ _ _ _ => (rfl)) (fun s _ _ _ _ _ => by simp) (fun _ _ => (rfl)) before after
@[simp] theorem State.watch_cal : (before.watch after).cal = after.cal :=
  watch_keeps State.cal (fun _ _ _ => (rfl)) (fun _ _ _ _ _ => (rfl)) (fun s _ _ _ _ _ => by simp) (fun _ _ => (rfl)) before after
@[simp] theorem State.watch_calLast : (before.watch after).calLast = after.calLast :=
  watch_keeps State.calLast (fun _ _ _ => (rfl)) (fun _ _ _ _ _ => (rfl)) (fun s _ _ _ _ _ => by simp) (fun _ _ => (rfl)) before after
@[simp] theorem State.watch_calSnapFrom : (before.watch after).calSnapFrom = after.calSnapFrom :=
  watch_keeps State.calSnapFrom (fun _ _ _ => (rfl)) (fun _ _ _ _ _ => (rfl)) (fun s _ _ _ _ _ => by simp) (fun _ _ => (rfl)) before after
@[simp] theorem State.watch_prot : (before.watch after).prot = after.prot :=
  watch_keeps State.prot (fun _ _ _ => (rfl)) (fun _ _ _ _ _ => (rfl)) (fun s _ _ _ _ _ => by simp) (fun _ _ => (rfl)) before after
@[simp] theorem State.watch_chans : (before.watch after).chans = after.chans :=
  watch_keeps State.chans (fun _ _ _ => (rfl)) (fun _ _ _ _ _ => (rfl)) (fun s _ _ _ _ _ => by simp) (fun _ _ => (rfl)) before after
@[simp] theorem State.watch_dies : (before.watch after).dies = after.dies :=
  watch_keeps State.dies (fun _ _ _ => (rfl)) (fun _ _ _ _ _ => (rfl)) (fun s _ _ _ _ _ => by simp) (fun _ _ => (rfl)) before after
@[simp] theorem State.watch_clusters : (before.watch after).clusters = after.clusters :=
  watch_keeps State.clusters (fun _ _ _ => (rfl)) (fun _ _ _ _ _ => (rfl)) (fun s _ _ _ _ _ => by simp) (fun _ _ => (rfl)) before after
@[simp] theorem State.watch_ctxs : (before.watch after).ctxs = after.ctxs :=
  watch_keeps State.ctxs (fun _ _ _ => (rfl)) (fun _ _ _ _ _ => (rfl)) (fun s _ _ _ _ _ => by simp) (fun _ _ => (rfl)) before after
@[simp] theorem State.watch_activation : (before.watch after).activation = after.activation :=
  watch_keeps State.activation (fun _ _ _ => (rfl)) (fun _ _ _ _ _ => (rfl)) (fun s _ _ _ _ _ => by simp) (fun _ _ => (rfl)) before after
@[simp] theorem State.watch_offers : (before.watch after).offers = after.offers :=
  watch_keeps State.offers (fun _ _ _ => (rfl)) (fun _ _ _ _ _ => (rfl)) (fun s _ _ _ _ _ => by simp) (fun _ _ => (rfl)) before after
@[simp] theorem State.watch_nqs : (before.watch after).nqs = after.nqs :=
  watch_keeps State.nqs (fun _ _ _ => (rfl)) (fun _ _ _ _ _ => (rfl)) (fun s _ _ _ _ _ => by simp) (fun _ _ => (rfl)) before after
@[simp] theorem State.watch_ce : (before.watch after).ce = after.ce :=
  watch_keeps State.ce (fun _ _ _ => (rfl)) (fun _ _ _ _ _ => (rfl)) (fun s _ _ _ _ _ => by simp) (fun _ _ => (rfl)) before after
@[simp] theorem State.watch_ceSlots : (before.watch after).ceSlots = after.ceSlots :=
  watch_keeps State.ceSlots (fun _ _ _ => (rfl)) (fun _ _ _ _ _ => (rfl)) (fun s _ _ _ _ _ => by simp) (fun _ _ => (rfl)) before after
@[simp] theorem State.watch_ports : (before.watch after).ports = after.ports :=
  watch_keeps State.ports (fun _ _ _ => (rfl)) (fun _ _ _ _ _ => (rfl)) (fun s _ _ _ _ _ => by simp) (fun _ _ => (rfl)) before after
@[simp] theorem State.watch_ints : (before.watch after).ints = after.ints :=
  watch_keeps State.ints (fun _ _ _ => (rfl)) (fun _ _ _ _ _ => (rfl)) (fun s _ _ _ _ _ => by simp) (fun _ _ => (rfl)) before after
@[simp] theorem State.watch_procs : (before.watch after).procs = after.procs :=
  watch_keeps State.procs (fun _ _ _ => (rfl)) (fun _ _ _ _ _ => (rfl)) (fun s _ _ _ _ _ => by simp) (fun _ _ => (rfl)) before after
@[simp] theorem State.watch_xfers : (before.watch after).xfers = after.xfers :=
  watch_keeps State.xfers (fun _ _ _ => (rfl)) (fun _ _ _ _ _ => (rfl)) (fun s _ _ _ _ _ => by simp) (fun _ _ => (rfl)) before after
@[simp] theorem State.watch_cfg : (before.watch after).cfg = after.cfg :=
  watch_keeps State.cfg (fun _ _ _ => (rfl)) (fun _ _ _ _ _ => (rfl)) (fun s _ _ _ _ _ => by simp) (fun _ _ => (rfl)) before after
@[simp] theorem State.watch_fn : (before.watch after).fn = after.fn :=
  watch_keeps State.fn (fun _ _ _ => (rfl)) (fun _ _ _ _ _ => (rfl)) (fun s _ _ _ _ _ => by simp) (fun _ _ => (rfl)) before after
@[simp] theorem State.watch_frozen : (before.watch after).frozen = after.frozen :=
  watch_keeps State.frozen (fun _ _ _ => (rfl)) (fun _ _ _ _ _ => (rfl)) (fun s _ _ _ _ _ => by simp) (fun _ _ => (rfl)) before after
@[simp] theorem State.watch_tlog : (before.watch after).tlog = after.tlog :=
  watch_keeps State.tlog (fun _ _ _ => (rfl)) (fun _ _ _ _ _ => (rfl)) (fun s _ _ _ _ _ => by simp) (fun _ _ => (rfl)) before after

@[simp] theorem State.settle_pending : (before.settle after).pending = before.pending := by rw [State.settle, State.enterCycle_pending]
@[simp] theorem State.settle_build : (before.settle after).build = before.build := by rw [State.settle, State.enterCycle_build]
@[simp] theorem State.settle_phase : (before.settle after).phase = after.phase := by
  rw [State.settle, State.enterCycle_phase, State.watch_phase]
@[simp] theorem State.settle_resetPor : (before.settle after).resetPor = before.resetPor := by rw [State.settle, State.enterCycle_resetPor]
@[simp] theorem State.settle_porLow : (before.settle after).porLow = before.porLow := by rw [State.settle, State.enterCycle_porLow]
@[simp] theorem State.settle_blkLow : (before.settle after).blkLow = before.blkLow := by rw [State.settle, State.enterCycle_blkLow]
@[simp] theorem State.settle_lostAtReset : (before.settle after).lostAtReset = before.lostAtReset := by rw [State.settle, State.enterCycle_lostAtReset]
@[simp] theorem State.settle_trefKhz : (before.settle after).trefKhz = before.trefKhz := by rw [State.settle, State.enterCycle_trefKhz]
@[simp] theorem State.settle_fnclkSel : (before.settle after).fnclkSel = before.fnclkSel := by rw [State.settle, State.enterCycle_fnclkSel]
@[simp] theorem State.settle_testMode : (before.settle after).testMode = before.testMode := by rw [State.settle, State.enterCycle_testMode]
@[simp] theorem State.settle_mbistBusy : (before.settle after).mbistBusy = before.mbistBusy := by rw [State.settle, State.enterCycle_mbistBusy]
@[simp] theorem State.settle_mbistDone : (before.settle after).mbistDone = before.mbistDone := by rw [State.settle, State.enterCycle_mbistDone]
@[simp] theorem State.settle_mbistFail : (before.settle after).mbistFail = before.mbistFail := by rw [State.settle, State.enterCycle_mbistFail]
@[simp] theorem State.settle_tref : (before.settle after).tref = before.tref := by rw [State.settle, State.enterCycle_tref]
@[simp] theorem State.settle_freeN : (before.settle after).freeN = after.freeN := by
  rw [State.settle, State.enterCycle_freeN, State.watch_freeN]
@[simp] theorem State.settle_dict : (before.settle after).dict = after.dict := by
  rw [State.settle, State.enterCycle_dict, State.watch_dict]
@[simp] theorem State.settle_modes : (before.settle after).modes = after.modes := by
  rw [State.settle, State.enterCycle_modes, State.watch_modes]
@[simp] theorem State.settle_raster : (before.settle after).raster = after.raster := by
  rw [State.settle, State.enterCycle_raster, State.watch_raster]
@[simp] theorem State.settle_orbit : (before.settle after).orbit = after.orbit := by
  rw [State.settle, State.enterCycle_orbit, State.watch_orbit]
@[simp] theorem State.settle_streams : (before.settle after).streams = after.streams := by
  rw [State.settle, State.enterCycle_streams, State.watch_streams]
@[simp] theorem State.settle_cmds : (before.settle after).cmds = after.cmds := by
  rw [State.settle, State.enterCycle_cmds, State.watch_cmds]
@[simp] theorem State.settle_stampNext : (before.settle after).stampNext = after.stampNext := by
  rw [State.settle, State.enterCycle_stampNext, State.watch_stampNext]
@[simp] theorem State.settle_seqWritten : (before.settle after).seqWritten = after.seqWritten := by
  rw [State.settle, State.enterCycle_seqWritten, State.watch_seqWritten]
@[simp] theorem State.settle_versions : (before.settle after).versions = after.versions := by
  rw [State.settle, State.enterCycle_versions, State.watch_versions]
@[simp] theorem State.settle_nextVer : (before.settle after).nextVer = after.nextVer := by
  rw [State.settle, State.enterCycle_nextVer, State.watch_nextVer]
@[simp] theorem State.settle_hostCws : (before.settle after).hostCws = after.hostCws := by
  rw [State.settle, State.enterCycle_hostCws, State.watch_hostCws]
@[simp] theorem State.settle_origins : (before.settle after).origins = after.origins := by
  rw [State.settle, State.enterCycle_origins, State.watch_origins]
@[simp] theorem State.settle_sbs : (before.settle after).sbs = after.sbs := by
  rw [State.settle, State.enterCycle_sbs, State.watch_sbs]
@[simp] theorem State.settle_allocReqs : (before.settle after).allocReqs = after.allocReqs := by
  rw [State.settle, State.enterCycle_allocReqs, State.watch_allocReqs]
@[simp] theorem State.settle_walking : (before.settle after).walking = after.walking := by
  rw [State.settle, State.enterCycle_walking, State.watch_walking]
@[simp] theorem State.settle_running : (before.settle after).running = after.running := by
  rw [State.settle, State.enterCycle_running, State.watch_running]
@[simp] theorem State.settle_interimBlocks : (before.settle after).interimBlocks = after.interimBlocks := by
  rw [State.settle, State.enterCycle_interimBlocks, State.watch_interimBlocks]
@[simp] theorem State.settle_zeroFrom : (before.settle after).zeroFrom = after.zeroFrom := by
  rw [State.settle, State.enterCycle_zeroFrom, State.watch_zeroFrom]
@[simp] theorem State.settle_stallFrom : (before.settle after).stallFrom = after.stallFrom := by
  rw [State.settle, State.enterCycle_stallFrom, State.watch_stallFrom]
@[simp] theorem State.settle_lostDies : (before.settle after).lostDies = after.lostDies := by
  rw [State.settle, State.enterCycle_lostDies, State.watch_lostDies]
@[simp] theorem State.settle_tokens : (before.settle after).tokens = after.tokens := by
  rw [State.settle, State.enterCycle_tokens, State.watch_tokens]
@[simp] theorem State.settle_blockLocks : (before.settle after).blockLocks = after.blockLocks := by
  rw [State.settle, State.enterCycle_blockLocks, State.watch_blockLocks]
@[simp] theorem State.settle_pins : (before.settle after).pins = after.pins := by
  rw [State.settle, State.enterCycle_pins, State.watch_pins]
@[simp] theorem State.settle_ops : (before.settle after).ops = after.ops := by
  rw [State.settle, State.enterCycle_ops, State.watch_ops]
@[simp] theorem State.settle_nextOp : (before.settle after).nextOp = after.nextOp := by
  rw [State.settle, State.enterCycle_nextOp, State.watch_nextOp]
@[simp] theorem State.settle_jobs : (before.settle after).jobs = after.jobs := by
  rw [State.settle, State.enterCycle_jobs, State.watch_jobs]
@[simp] theorem State.settle_nextJob : (before.settle after).nextJob = after.nextJob := by
  rw [State.settle, State.enterCycle_nextJob, State.watch_nextJob]
@[simp] theorem State.settle_rebuilds : (before.settle after).rebuilds = after.rebuilds := by
  rw [State.settle, State.enterCycle_rebuilds, State.watch_rebuilds]
@[simp] theorem State.settle_comet : (before.settle after).comet = after.comet := by
  rw [State.settle, State.enterCycle_comet, State.watch_comet]
@[simp] theorem State.settle_cometHeld : (before.settle after).cometHeld = after.cometHeld := by
  rw [State.settle, State.enterCycle_cometHeld, State.watch_cometHeld]
@[simp] theorem State.settle_slotsUsed : (before.settle after).slotsUsed = after.slotsUsed := by
  rw [State.settle, State.enterCycle_slotsUsed, State.watch_slotsUsed]
@[simp] theorem State.settle_codes : (before.settle after).codes = after.codes := by
  rw [State.settle, State.enterCycle_codes, State.watch_codes]
@[simp] theorem State.settle_codeErr : (before.settle after).codeErr = after.codeErr := by
  rw [State.settle, State.enterCycle_codeErr, State.watch_codeErr]
@[simp] theorem State.settle_cal : (before.settle after).cal = after.cal := by
  rw [State.settle, State.enterCycle_cal, State.watch_cal]
@[simp] theorem State.settle_calLast : (before.settle after).calLast = after.calLast := by
  rw [State.settle, State.enterCycle_calLast, State.watch_calLast]
@[simp] theorem State.settle_calSnapFrom : (before.settle after).calSnapFrom = after.calSnapFrom := by
  rw [State.settle, State.enterCycle_calSnapFrom, State.watch_calSnapFrom]
@[simp] theorem State.settle_prot : (before.settle after).prot = after.prot := by
  rw [State.settle, State.enterCycle_prot, State.watch_prot]
@[simp] theorem State.settle_chans : (before.settle after).chans = after.chans := by
  rw [State.settle, State.enterCycle_chans, State.watch_chans]
@[simp] theorem State.settle_dies : (before.settle after).dies = after.dies := by
  rw [State.settle, State.enterCycle_dies, State.watch_dies]
@[simp] theorem State.settle_clusters : (before.settle after).clusters = after.clusters := by
  rw [State.settle, State.enterCycle_clusters, State.watch_clusters]
@[simp] theorem State.settle_ctxs : (before.settle after).ctxs = after.ctxs := by
  rw [State.settle, State.enterCycle_ctxs, State.watch_ctxs]
@[simp] theorem State.settle_activation : (before.settle after).activation = after.activation := by
  rw [State.settle, State.enterCycle_activation, State.watch_activation]
@[simp] theorem State.settle_nqs : (before.settle after).nqs = after.nqs := by
  rw [State.settle, State.enterCycle_nqs, State.watch_nqs]
@[simp] theorem State.settle_ce : (before.settle after).ce = after.ce := by
  rw [State.settle, State.enterCycle_ce, State.watch_ce]
@[simp] theorem State.settle_ceSlots : (before.settle after).ceSlots = after.ceSlots := by
  rw [State.settle, State.enterCycle_ceSlots, State.watch_ceSlots]
@[simp] theorem State.settle_ports : (before.settle after).ports = after.ports := by
  rw [State.settle, State.enterCycle_ports, State.watch_ports]
@[simp] theorem State.settle_procs : (before.settle after).procs = after.procs := by
  rw [State.settle, State.enterCycle_procs, State.watch_procs]
@[simp] theorem State.settle_xfers : (before.settle after).xfers = after.xfers := by
  rw [State.settle, State.enterCycle_xfers, State.watch_xfers]
@[simp] theorem State.settle_cfg : (before.settle after).cfg = after.cfg := by
  rw [State.settle, State.enterCycle_cfg, State.watch_cfg]
@[simp] theorem State.settle_fn : (before.settle after).fn = after.fn := by
  rw [State.settle, State.enterCycle_fn, State.watch_fn]
@[simp] theorem State.settle_frozen : (before.settle after).frozen = after.frozen := by
  rw [State.settle, State.enterCycle_frozen, State.watch_frozen]

@[simp] theorem State.settle_offered : (before.settle after).offered = [] := by rw [State.settle, State.enterCycle_offered]
@[simp] theorem State.settle_deferNew : (before.settle after).deferNew = [] := by
  rw [State.settle, State.enterCycle_deferNew]
@[simp] theorem State.settle_mem : (before.settle after).mem = Memory.canon after.mem := by
  rw [State.settle, State.enterCycle_mem, State.watch_mem]
@[simp] theorem State.settle_deferred : (before.settle after).deferred = after.deferred ++ after.deferNew := by
  rw [State.settle, State.enterCycle_deferred, State.watch_deferred, State.watch_deferNew]
@[simp] theorem State.settle_tlog : (before.settle after).tlog = after.tlog.enter := by
  rw [State.settle, State.enterCycle_tlog, State.watch_tlog]

end Sys2Proof.Machine
end

