-- ==== Sys2Proof/Laws/Step.lean ====
section
/-!
SUPPORT. Laws/Step.lean: what every command of the functional block has in common: it is stopped by test mode, passed over in
reset and while SRAM is cleared, and otherwise takes its time and settles; and what a settled cycle satisfies.
-/

namespace Sys2Proof.Machine

open Sys2Proof

/-- A pin's row runs through `functional` once initialization has ended. -/
theorem onPin_up (s : State) (dt : Nat) (pin f : State → State) (hh : s.phase ≠ .held) (hc : s.phase ≠ .clearing) :
    s.onPin dt pin f = s.functional dt f := by
  unfold State.onPin State.functional
  split <;> simp_all

/-- A credit's row runs through `functional` once initialization has ended. -/
theorem credited_up (s : State) (dt p : Nat) (f : MpPort → MpPort) (hc : s.phase ≠ .clearing) :
    s.credited dt p f = s.functional dt (State.credit p f) := by
  simp [State.credited, hc]

/-- A row of a pin or a credit runs through `functional`, with the time it brings, once initialization has ended. -/
theorem exec_pin (i : Instr) (h : i.isPin = true) :
    ∃ f : State → State, ∀ s, s.phase ≠ .held → s.phase ≠ .clearing → exec i s = s.functional i.dt f := by
  cases i
  case rasValidRise => exact ⟨_, fun s hh hc => by
    dsimp only [exec, execRasValidRise, execRasValidFall, execSleepInd, Instr.dt]; exact onPin_up s _ _ _ hh hc⟩
  case rasValidFall => exact ⟨_, fun s hh hc => by
    dsimp only [exec, execRasValidRise, execRasValidFall, execSleepInd, Instr.dt]; exact onPin_up s _ _ _ hh hc⟩
  case sleepInd => exact ⟨_, fun s hh hc => by
    dsimp only [exec, execRasValidRise, execRasValidFall, execSleepInd, Instr.dt]; exact onPin_up s _ _ _ hh hc⟩
  case mpCmdCredit => exact ⟨_, fun s _ hc => by
    dsimp only [exec, execMpCmdCredit, execMpWrCredit, Instr.dt]; exact credited_up s _ _ _ hc⟩
  case mpWrCredit => exact ⟨_, fun s _ hc => by
    dsimp only [exec, execMpCmdCredit, execMpWrCredit, Instr.dt]; exact credited_up s _ _ _ hc⟩
  all_goals cases h

/-- Every row but the resets, the self-test, the pins, INIT_DONE and BW_FETCH runs through `functional`, with the time it
brings. -/
theorem exec_functional (i : Instr) (h : i.isReset = false) (hn : i.isPin = false) (hi : ∀ dt, i ≠ .initDone dt)
    (hb : ∀ dt a p q l, i ≠ .bwFetch dt a p q l) : ∃ f : State → State, ∀ s, exec i s = s.functional i.dt f := by
  cases i
  case rasValidRise => cases hn
  case rasValidFall => cases hn
  case sleepInd => cases hn
  case mpCmdCredit => cases hn
  case mpWrCredit => cases hn
  case initDone dt => exact absurd rfl (hi dt)
  case porst => cases h
  case blkrst => cases h
  case mbistStart => cases h
  case mbistDone => cases h
  case protReady => exact ⟨_, fun _ => by dsimp only [exec, execProtReady, Instr.dt]⟩
  case mode => exact ⟨_, fun _ => by dsimp only [exec, execMode, Instr.dt]⟩
  case park => exact ⟨_, fun _ => by dsimp only [exec, execPark, Instr.dt]⟩
  case modeRequest => exact ⟨_, fun _ => by dsimp only [exec, execModeRequest, Instr.dt]⟩
  case sanitizeEnter => exact ⟨_, fun _ => by dsimp only [exec, execSanitizeEnter, Instr.dt]⟩
  case parkEntryDone => exact ⟨_, fun _ => by dsimp only [exec, execParkEntryDone, Instr.dt]⟩
  case parkWake => exact ⟨_, fun _ => by dsimp only [exec, execParkWake, Instr.dt]⟩
  case frameBoundary => exact ⟨_, fun _ => by dsimp only [exec, execFrameBoundary, Instr.dt]⟩
  case lineBoundary => exact ⟨_, fun _ => by dsimp only [exec, execLineBoundary, Instr.dt]⟩
  case rasterLossTimeout => exact ⟨_, fun _ => by dsimp only [exec, execRasterLossTimeout, Instr.dt]⟩
  case virtualFrameBoundary => exact ⟨_, fun _ => by dsimp only [exec, execVirtualFrameBoundary, Instr.dt]⟩
  case virtualLineBoundary => exact ⟨_, fun _ => by dsimp only [exec, execVirtualLineBoundary, Instr.dt]⟩
  case newTake => exact ⟨_, fun _ => by dsimp only [exec, execNewTake, Instr.dt]⟩
  case orbitTick => exact ⟨_, fun _ => by dsimp only [exec, execOrbitTick, Instr.dt]⟩
  case orbitStandbyWrite => exact ⟨_, fun _ => by dsimp only [exec, execOrbitStandbyWrite, Instr.dt]⟩
  case linkReady => exact ⟨_, fun _ => by dsimp only [exec, execLinkReady, Instr.dt]⟩
  case readyDrop => exact ⟨_, fun _ => by dsimp only [exec, execReadyDrop, Instr.dt]⟩
  case crdt => exact ⟨_, fun _ => by dsimp only [exec, execCrdt, Instr.dt]⟩
  case linkUp => exact ⟨_, fun _ => by dsimp only [exec, execLinkUp, Instr.dt]⟩
  case linkDown => exact ⟨_, fun _ => by dsimp only [exec, execLinkDown, Instr.dt]⟩
  case linkEcho => exact ⟨_, fun _ => by dsimp only [exec, execLinkEcho, Instr.dt]⟩
  case creditReturn => exact ⟨_, fun _ => by dsimp only [exec, execCreditReturn, Instr.dt]⟩
  case data => exact ⟨_, fun _ => by dsimp only [exec, execData, Instr.dt]⟩
  case qrst => exact ⟨_, fun _ => by dsimp only [exec, execQrst, Instr.dt]⟩
  case qrstDone => exact ⟨_, fun _ => by dsimp only [exec, execQrstDone, Instr.dt]⟩
  case xrdyGrant => exact ⟨_, fun _ => by dsimp only [exec, execXrdyGrant, Instr.dt]⟩
  case windowExpired => exact ⟨_, fun _ => by dsimp only [exec, execWindowExpired, Instr.dt]⟩
  case hostLinkStall => exact ⟨_, fun _ => by dsimp only [exec, execHostLinkStall, Instr.dt]⟩
  case packetSend => exact ⟨_, fun _ => by dsimp only [exec, execPacketSend, Instr.dt]⟩
  case read => exact ⟨_, fun _ => by dsimp only [exec, execRead, Instr.dt]⟩
  case write => exact ⟨_, fun _ => by dsimp only [exec, execWrite, Instr.dt]⟩
  case flush => exact ⟨_, fun _ => by dsimp only [exec, execFlush, Instr.dt]⟩
  case discard => exact ⟨_, fun _ => by dsimp only [exec, execDiscard, Instr.dt]⟩
  case secureDiscard => exact ⟨_, fun _ => by dsimp only [exec, execSecureDiscard, Instr.dt]⟩
  case fence => exact ⟨_, fun _ => by dsimp only [exec, execFence, Instr.dt]⟩
  case streamOpen => exact ⟨_, fun _ => by dsimp only [exec, execStreamOpen, Instr.dt]⟩
  case streamClose => exact ⟨_, fun _ => by dsimp only [exec, execStreamClose, Instr.dt]⟩
  case copy => exact ⟨_, fun _ => by dsimp only [exec, execCopy, Instr.dt]⟩
  case erase => exact ⟨_, fun _ => by dsimp only [exec, execErase, Instr.dt]⟩
  case rawRead => exact ⟨_, fun _ => by dsimp only [exec, execRawRead, Instr.dt]⟩
  case rawProgram => exact ⟨_, fun _ => by dsimp only [exec, execRawProgram, Instr.dt]⟩
  case scrub => exact ⟨_, fun _ => by dsimp only [exec, execScrub, Instr.dt]⟩
  case calibrate => exact ⟨_, fun _ => by dsimp only [exec, execCalibrate, Instr.dt]⟩
  case fold => exact ⟨_, fun _ => by dsimp only [exec, execFold, Instr.dt]⟩
  case blankCheck => exact ⟨_, fun _ => by dsimp only [exec, execBlankCheck, Instr.dt]⟩
  case purge => exact ⟨_, fun _ => by dsimp only [exec, execPurge, Instr.dt]⟩
  case replayScan => exact ⟨_, fun _ => by dsimp only [exec, execReplayScan, Instr.dt]⟩
  case activateMicrocode => exact ⟨_, fun _ => by dsimp only [exec, execActivateMicrocode, Instr.dt]⟩
  case parityRebuild => exact ⟨_, fun _ => by dsimp only [exec, execParityRebuild, Instr.dt]⟩
  case lswGo => exact ⟨_, fun _ => by dsimp only [exec, execLswGo, Instr.dt]⟩
  case commandStart => exact ⟨_, fun _ => by dsimp only [exec, execCommandStart, Instr.dt]⟩
  case writeAccept => exact ⟨_, fun _ => by dsimp only [exec, execWriteAccept, Instr.dt]⟩
  case bufWaitTimeout => exact ⟨_, fun _ => by dsimp only [exec, execBufWaitTimeout, Instr.dt]⟩
  case bufGrant => exact ⟨_, fun _ => by dsimp only [exec, execBufGrant, Instr.dt]⟩
  case programDone => exact ⟨_, fun _ => by dsimp only [exec, execProgramDone, Instr.dt]⟩
  case eraseDone => exact ⟨_, fun _ => by dsimp only [exec, execEraseDone, Instr.dt]⟩
  case codewordDecoded => exact ⟨_, fun _ => by dsimp only [exec, execCodewordDecoded, Instr.dt]⟩
  case roWaitExpired => exact ⟨_, fun _ => by dsimp only [exec, execRoWaitExpired, Instr.dt]⟩
  case parSpill => exact ⟨_, fun _ => by dsimp only [exec, execParSpill, Instr.dt]⟩
  case allocEnable => exact ⟨_, fun _ => by dsimp only [exec, execAllocEnable, Instr.dt]⟩
  case allocWalkDone => exact ⟨_, fun _ => by dsimp only [exec, execAllocWalkDone, Instr.dt]⟩
  case allocRequest => exact ⟨_, fun _ => by dsimp only [exec, execAllocRequest, Instr.dt]⟩
  case bgBlankCheck => exact ⟨_, fun _ => by dsimp only [exec, execBgBlankCheck, Instr.dt]⟩
  case autoErase => exact ⟨_, fun _ => by dsimp only [exec, execAutoErase, Instr.dt]⟩
  case blockRetire => exact ⟨_, fun _ => by dsimp only [exec, execBlockRetire, Instr.dt]⟩
  case blockClassSet => exact ⟨_, fun _ => by dsimp only [exec, execBlockClassSet, Instr.dt]⟩
  case mapUnderlay => exact ⟨_, fun _ => by dsimp only [exec, execMapUnderlay, Instr.dt]⟩
  case mapSafeSeqRead => exact ⟨_, fun _ => by dsimp only [exec, execMapSafeSeqRead, Instr.dt]⟩
  case dieFailed => exact ⟨_, fun _ => by dsimp only [exec, execDieFailed, Instr.dt]⟩
  case admissionResume => exact ⟨_, fun _ => by dsimp only [exec, execAdmissionResume, Instr.dt]⟩
  case enum => exact ⟨_, fun _ => by dsimp only [exec, execEnum, Instr.dt]⟩
  case enumDone => exact ⟨_, fun _ => by dsimp only [exec, execEnumDone, Instr.dt]⟩
  case failChannel => exact ⟨_, fun _ => by dsimp only [exec, execFailChannel, Instr.dt]⟩
  case chDieFail => exact ⟨_, fun _ => by dsimp only [exec, execChDieFail, Instr.dt]⟩
  case statusPoll => exact ⟨_, fun _ => by dsimp only [exec, execStatusPoll, Instr.dt]⟩
  case rbRise => exact ⟨_, fun _ => by dsimp only [exec, execRbRise, Instr.dt]⟩
  case dieOpTimeout => exact ⟨_, fun _ => by dsimp only [exec, execDieOpTimeout, Instr.dt]⟩
  case lunResetDone => exact ⟨_, fun _ => by dsimp only [exec, execLunResetDone, Instr.dt]⟩
  case phyFault => exact ⟨_, fun _ => by dsimp only [exec, execPhyFault, Instr.dt]⟩
  case channelRecoveryDone => exact ⟨_, fun _ => by dsimp only [exec, execChannelRecoveryDone, Instr.dt]⟩
  case recoverTimeout => exact ⟨_, fun _ => by dsimp only [exec, execRecoverTimeout, Instr.dt]⟩
  case idCheck => exact ⟨_, fun _ => by dsimp only [exec, execIdCheck, Instr.dt]⟩
  case suspendBudgetExpired => exact ⟨_, fun _ => by dsimp only [exec, execSuspendBudgetExpired, Instr.dt]⟩
  case cometRead => exact ⟨_, fun _ => by dsimp only [exec, execCometRead, Instr.dt]⟩
  case mbCtrl => exact ⟨_, fun _ => by dsimp only [exec, execMbCtrl, Instr.dt]⟩
  case mbFieldWrite => exact ⟨_, fun _ => by dsimp only [exec, execMbFieldWrite, Instr.dt]⟩
  case mbHandover => exact ⟨_, fun _ => by dsimp only [exec, execMbHandover, Instr.dt]⟩
  case tempPoll => exact ⟨_, fun _ => by dsimp only [exec, execTempPoll, Instr.dt]⟩
  case calAgeTrigger => exact ⟨_, fun _ => by dsimp only [exec, execCalAgeTrigger, Instr.dt]⟩
  case calibrationRun => exact ⟨_, fun _ => by dsimp only [exec, execCalibrationRun, Instr.dt]⟩
  case calHoldExpired => exact ⟨_, fun _ => by dsimp only [exec, execCalHoldExpired, Instr.dt]⟩
  case calSnapshotRead => exact ⟨_, fun _ => by dsimp only [exec, execCalSnapshotRead, Instr.dt]⟩
  case calRestore => exact ⟨_, fun _ => by dsimp only [exec, execCalRestore, Instr.dt]⟩
  case codeDescWrite => exact ⟨_, fun _ => by dsimp only [exec, execCodeDescWrite, Instr.dt]⟩
  case protLevelRaise => exact ⟨_, fun _ => by dsimp only [exec, execProtLevelRaise, Instr.dt]⟩
  case bootRegionWrite => exact ⟨_, fun _ => by dsimp only [exec, execBootRegionWrite, Instr.dt]⟩
  case rawAreaWrite => exact ⟨_, fun _ => by dsimp only [exec, execRawAreaWrite, Instr.dt]⟩
  case bwCtrlWrite => exact ⟨_, fun _ => by dsimp only [exec, execBwCtrlWrite, Instr.dt]⟩
  case bwFetch dt a p q l => exact absurd rfl (hb dt a p q l)
  case psaveDataWrite => exact ⟨_, fun _ => by dsimp only [exec, execPsaveDataWrite, Instr.dt]⟩
  case rmpKey1 => exact ⟨_, fun _ => by dsimp only [exec, execRmpKey1, Instr.dt]⟩
  case rmpKey2 => exact ⟨_, fun _ => by dsimp only [exec, execRmpKey2, Instr.dt]⟩
  case rmpArmLapse => exact ⟨_, fun _ => by dsimp only [exec, execRmpArmLapse, Instr.dt]⟩
  case eraseUser => exact ⟨_, fun _ => by dsimp only [exec, execEraseUser, Instr.dt]⟩
  case eraseAll => exact ⟨_, fun _ => by dsimp only [exec, execEraseAll, Instr.dt]⟩
  case lower => exact ⟨_, fun _ => by dsimp only [exec, execLower, Instr.dt]⟩
  case sanitizeDone => exact ⟨_, fun _ => by dsimp only [exec, execSanitizeDone, Instr.dt]⟩
  case pfail => exact ⟨_, fun _ => by dsimp only [exec, execPfail, Instr.dt]⟩
  case drainDone => exact ⟨_, fun _ => by dsimp only [exec, execDrainDone, Instr.dt]⟩
  case ucodeLoad => exact ⟨_, fun _ => by dsimp only [exec, execUcodeLoad, Instr.dt]⟩
  case dieOpDispatch => exact ⟨_, fun _ => by dsimp only [exec, execDieOpDispatch, Instr.dt]⟩
  case microword => exact ⟨_, fun _ => by dsimp only [exec, execMicroword, Instr.dt]⟩
  case ucodeWatchdog => exact ⟨_, fun _ => by dsimp only [exec, execUcodeWatchdog, Instr.dt]⟩
  case ucodeSwap => exact ⟨_, fun _ => by dsimp only [exec, execUcodeSwap, Instr.dt]⟩
  case poolEnable => exact ⟨_, fun _ => by dsimp only [exec, execPoolEnable, Instr.dt]⟩
  case bufAlloc => exact ⟨_, fun _ => by dsimp only [exec, execBufAlloc, Instr.dt]⟩
  case bufFree => exact ⟨_, fun _ => by dsimp only [exec, execBufFree, Instr.dt]⟩
  case bufFreeAddr => exact ⟨_, fun _ => by dsimp only [exec, execBufFreeAddr, Instr.dt]⟩
  case bufRef => exact ⟨_, fun _ => by dsimp only [exec, execBufRef, Instr.dt]⟩
  case noticeOffer => exact ⟨_, fun _ => by dsimp only [exec, execNoticeOffer, Instr.dt]⟩
  case heldNoticeEnter => exact ⟨_, fun _ => by dsimp only [exec, execHeldNoticeEnter, Instr.dt]⟩
  case nqFlushTimeout => exact ⟨_, fun _ => by dsimp only [exec, execNqFlushTimeout, Instr.dt]⟩
  case nqPop => exact ⟨_, fun _ => by dsimp only [exec, execNqPop, Instr.dt]⟩
  case nqTry => exact ⟨_, fun _ => by dsimp only [exec, execNqTry, Instr.dt]⟩
  case nqBlockExpired => exact ⟨_, fun _ => by dsimp only [exec, execNqBlockExpired, Instr.dt]⟩
  case flushNq => exact ⟨_, fun _ => by dsimp only [exec, execFlushNq, Instr.dt]⟩
  case clearNq => exact ⟨_, fun _ => by dsimp only [exec, execClearNq, Instr.dt]⟩
  case ceStart => exact ⟨_, fun _ => by dsimp only [exec, execCeStart, Instr.dt]⟩
  case ceAbort => exact ⟨_, fun _ => by dsimp only [exec, execCeAbort, Instr.dt]⟩
  case ceDone => exact ⟨_, fun _ => by dsimp only [exec, execCeDone, Instr.dt]⟩
  case mpRdBeat => exact ⟨_, fun _ => by dsimp only [exec, execMpRdBeat, Instr.dt]⟩
  case mpAck => exact ⟨_, fun _ => by dsimp only [exec, execMpAck, Instr.dt]⟩
  case intClaim => exact ⟨_, fun _ => by dsimp only [exec, execIntClaim, Instr.dt]⟩
  case intEoi => exact ⟨_, fun _ => by dsimp only [exec, execIntEoi, Instr.dt]⟩
  case intSoft => exact ⟨_, fun _ => by dsimp only [exec, execIntSoft, Instr.dt]⟩
  case coalTimer => exact ⟨_, fun _ => by dsimp only [exec, execCoalTimer, Instr.dt]⟩
  case closaRead => exact ⟨_, fun _ => by dsimp only [exec, execClosaRead, Instr.dt]⟩
  case closaWrite => exact ⟨_, fun _ => by dsimp only [exec, execClosaWrite, Instr.dt]⟩
  case uploadBegin => exact ⟨_, fun _ => by dsimp only [exec, execUploadBegin, Instr.dt]⟩
  case uploadSeg => exact ⟨_, fun _ => by dsimp only [exec, execUploadSeg, Instr.dt]⟩
  case downloadBegin => exact ⟨_, fun _ => by dsimp only [exec, execDownloadBegin, Instr.dt]⟩
  case downloadSeg => exact ⟨_, fun _ => by dsimp only [exec, execDownloadSeg, Instr.dt]⟩
  case abandon => exact ⟨_, fun _ => by dsimp only [exec, execAbandon, Instr.dt]⟩
  case cfgDownloadOpen => exact ⟨_, fun _ => by dsimp only [exec, execCfgDownloadOpen, Instr.dt]⟩
  case cfgDownloadAppend => exact ⟨_, fun _ => by dsimp only [exec, execCfgDownloadAppend, Instr.dt]⟩
  case cfgAbandon => exact ⟨_, fun _ => by dsimp only [exec, execCfgAbandon, Instr.dt]⟩
  case cfgUploadOpen => exact ⟨_, fun _ => by dsimp only [exec, execCfgUploadOpen, Instr.dt]⟩
  case cfgUploadRead => exact ⟨_, fun _ => by dsimp only [exec, execCfgUploadRead, Instr.dt]⟩
  case cfgWriteLatch => exact ⟨_, fun _ => by dsimp only [exec, execCfgWriteLatch, Instr.dt]⟩
  case dictSegTimeout => exact ⟨_, fun _ => by dsimp only [exec, execDictSegTimeout, Instr.dt]⟩
  case objectWrite => exact ⟨_, fun _ => by dsimp only [exec, execObjectWrite, Instr.dt]⟩
  case fnStatusFrame => exact ⟨_, fun _ => by dsimp only [exec, execFnStatusFrame, Instr.dt]⟩
  case fnBusoff => exact ⟨_, fun _ => by dsimp only [exec, execFnBusoff, Instr.dt]⟩
  case fnBusoffRecover => exact ⟨_, fun _ => by dsimp only [exec, execFnBusoffRecover, Instr.dt]⟩
  case statFreeze => exact ⟨_, fun _ => by dsimp only [exec, execStatFreeze, Instr.dt]⟩
  case tlogRecord => exact ⟨_, fun _ => by dsimp only [exec, execTlogRecord, Instr.dt]⟩
  case tlogMark => exact ⟨_, fun _ => by dsimp only [exec, execTlogMark, Instr.dt]⟩
  case tlogClear => exact ⟨_, fun _ => by dsimp only [exec, execTlogClear, Instr.dt]⟩
  case tlogImageRead => exact ⟨_, fun _ => by dsimp only [exec, execTlogImageRead, Instr.dt]⟩
  case eyeScanOverrun => exact ⟨_, fun _ => by dsimp only [exec, execEyeScanOverrun, Instr.dt]⟩
  case bwFetchWaitExpired => exact ⟨_, fun _ => by dsimp only [exec, execBwFetchWaitExpired, Instr.dt]⟩
  all_goals exact ⟨_, fun _ => by dsimp only [exec, execSeal, Instr.dt]⟩

theorem functional_test (s : State) (dt : Nat) (f : State → State) (h : s.testMode = true) :
    s.functional dt f = .fault .testModeUndefined := by simp [State.functional, h]

theorem functional_held (s : State) (dt : Nat) (f : State → State) (h : s.testMode = false) (hp : s.phase = .held) :
    s.functional dt f = .next s := by simp [State.functional, h, hp]

theorem functional_clearing (s : State) (dt : Nat) (f : State → State) (h : s.testMode = false)
    (hp : s.phase = .clearing) : s.functional dt f = .next (s.elapse dt) := by simp [State.functional, h, hp]

theorem functional_up (s : State) (dt : Nat) (f : State → State) (h : s.Up) :
    s.functional dt f = .next ((s.elapse dt).settle (f (s.elapse dt))) := by
  simp [State.functional, h.1, h.2]

theorem functional_scanning (s : State) (dt : Nat) (f : State → State) (h : s.testMode = false)
    (hp : s.phase = .scanning) : s.functional dt f = .next ((s.elapse dt).settle (f (s.elapse dt))) := by
  simp [State.functional, h, hp]

theorem insertBy_length {α : Type} (le : α → α → Bool) (x : α) (l : List α) :
    (insertBy le x l).length = l.length + 1 := by
  induction l with
  | nil => rfl
  | cons y ys ih =>
    rw [insertBy]
    split <;> simp [ih]

/-- The end of a cycle leaves the invariant of every step. -/
theorem settle_inv (b a : State) : (b.settle a).Inv := by
  refine ⟨by rw [State.settle_mem]; exact Memory.canon_wf _, State.settle_offered b a, State.settle_deferNew b a, ?_, ?_⟩
  · rw [State.settle_tlog]; rfl
  · rw [State.settle_tlog, TlogSt.enter, List.length_take]; exact Nat.min_le_left _ _

/-- A command that runs through `functional` completes on a running block, in the settled state of its meaning. -/
theorem completes_up {i : Instr} {s : State} {dt : Nat} {f : State → State} {P : State → Prop}
    (h : exec i s = s.functional dt f) (hu : s.Up) (hp : P ((s.elapse dt).settle (f (s.elapse dt)))) : Completes i s P :=
  ⟨_, by rw [h, functional_up _ _ _ hu], hp⟩

end Sys2Proof.Machine
end

