-- ==== Sys2Proof/Laws/Frame.lean ====
section
/-!
SUPPORT. Laws/Frame.lean: a field that a meaning leaves exactly as it is stays the same through the end of the cycle.
-/

namespace Sys2Proof.Machine

open Sys2Proof

/-- A field exactly as it was, what is gathered within the cycle included. -/
def Field.kept (f : Field) (s t : State) : Prop :=
  match f with
  | .deferred => t.deferred = s.deferred ∧ t.deferNew = s.deferNew
  | .pending => t.pending = s.pending
  | .build => t.build = s.build
  | .phase => t.phase = s.phase
  | .resetPor => t.resetPor = s.resetPor
  | .porLow => t.porLow = s.porLow
  | .blkLow => t.blkLow = s.blkLow
  | .lostAtReset => t.lostAtReset = s.lostAtReset
  | .trefKhz => t.trefKhz = s.trefKhz
  | .fnclkSel => t.fnclkSel = s.fnclkSel
  | .testMode => t.testMode = s.testMode
  | .mbistBusy => t.mbistBusy = s.mbistBusy
  | .mbistDone => t.mbistDone = s.mbistDone
  | .mbistFail => t.mbistFail = s.mbistFail
  | .freeN => t.freeN = s.freeN
  | .dict => t.dict = s.dict
  | .mem => t.mem = s.mem
  | .modes => t.modes = s.modes
  | .raster => t.raster = s.raster
  | .orbit => t.orbit = s.orbit
  | .streams => t.streams = s.streams
  | .link => t.link = s.link
  | .cmds => t.cmds = s.cmds
  | .stampNext => t.stampNext = s.stampNext
  | .seqWritten => t.seqWritten = s.seqWritten
  | .versions => t.versions = s.versions
  | .nextVer => t.nextVer = s.nextVer
  | .hostCws => t.hostCws = s.hostCws
  | .origins => t.origins = s.origins
  | .sbs => t.sbs = s.sbs
  | .allocReqs => t.allocReqs = s.allocReqs
  | .walking => t.walking = s.walking
  | .running => t.running = s.running
  | .interimBlocks => t.interimBlocks = s.interimBlocks
  | .zeroFrom => t.zeroFrom = s.zeroFrom
  | .stallFrom => t.stallFrom = s.stallFrom
  | .lostDies => t.lostDies = s.lostDies
  | .tokens => t.tokens = s.tokens
  | .blockLocks => t.blockLocks = s.blockLocks
  | .pins => t.pins = s.pins
  | .ops => t.ops = s.ops
  | .nextOp => t.nextOp = s.nextOp
  | .jobs => t.jobs = s.jobs
  | .nextJob => t.nextJob = s.nextJob
  | .rebuilds => t.rebuilds = s.rebuilds
  | .comet => t.comet = s.comet
  | .cometHeld => t.cometHeld = s.cometHeld
  | .slotsUsed => t.slotsUsed = s.slotsUsed
  | .slcOkOnce => t.slcOkOnce = s.slcOkOnce
  | .codes => t.codes = s.codes
  | .codeErr => t.codeErr = s.codeErr
  | .cal => t.cal = s.cal
  | .calLast => t.calLast = s.calLast
  | .calSnapFrom => t.calSnapFrom = s.calSnapFrom
  | .prot => t.prot = s.prot
  | .chans => t.chans = s.chans
  | .dies => t.dies = s.dies
  | .clusters => t.clusters = s.clusters
  | .ctxs => t.ctxs = s.ctxs
  | .activation => t.activation = s.activation
  | .pools => t.pools = s.pools
  | .offers => t.offers = s.offers
  | .nqs => t.nqs = s.nqs
  | .ce => t.ce = s.ce
  | .ceSlots => t.ceSlots = s.ceSlots
  | .ports => t.ports = s.ports
  | .ints => t.ints = s.ints
  | .procs => t.procs = s.procs
  | .xfers => t.xfers = s.xfers
  | .cfg => t.cfg = s.cfg
  | .fn => t.fn = s.fn
  | .frozen => t.frozen = s.frozen
  | .tlog => t.tlog = s.tlog

theorem poolWatch_pool (s : State) (p q : Nat) : (s.poolWatch p).pool q = { s.pool q with low := ((s.poolWatch p).pool q).low } := by
  have upd : ∀ (x : Bool), (s.updPool p fun y => { y with low := x }).pool q
      = { s.pool q with low := ((s.updPool p fun y => { y with low := x }).pool q).low } := by
    intro x
    unfold State.updPool State.pool
    by_cases h : q = p
    · subst h; simp [mapUpd, mapGetD, mapGet_put_same]
    · simp [mapUpd, mapGetD, mapGet_put_other _ _ h]
  unfold State.poolWatch
  dsimp only
  split
  · rfl
  · split
    · exact upd _
    · exact upd _

theorem watch_pool (b a : State) (q : Nat) : (b.watch a).pool q = { a.pool q with low := ((b.watch a).pool q).low } := by
  have h0 : (b.unitWatch a).pools = a.pools :=
    unitWatch_keeps State.pools (fun s _ _ _ _ _ => by simp) (fun _ _ => (rfl)) b a
  have h0' : (b.unitWatch a).pool q = a.pool q := by unfold State.pool; rw [h0]
  unfold State.watch
  rw [← h0']
  generalize b.unitWatch a = c
  generalize List.range 5 = l
  induction l generalizing c with
  | nil => rfl
  | cons p ps ih => rw [List.foldl_cons, ih (c.poolWatch p), poolWatch_pool c p q]

theorem distinct_mem (l : List Nat) (u : Nat) (h : u ∈ l) : u ∈ distinct l := by
  have main : ∀ (l acc : List Nat), (u ∈ l ∨ u ∈ acc) →
      u ∈ l.foldl (fun acc x => if acc.contains x then acc else acc ++ [x]) acc := by
    intro l
    induction l with
    | nil => intro acc h; simpa using h
    | cons x xs ih =>
      intro acc h
      rw [List.foldl_cons]
      apply ih
      by_cases hx : acc.contains x
      · rw [if_pos hx]
        rcases h with h | h
        · rcases List.mem_cons.mp h with e | h
          · subst e; exact .inr (by simpa using hx)
          · exact .inl h
        · exact .inr h
      · rw [if_neg hx]
        rcases h with h | h
        · rcases List.mem_cons.mp h with e | h
          · subst e; exact .inr (by simp)
          · exact .inl h
        · exact .inr (by simp [h])
  exact main l [] (.inl h)

theorem watch_ok (b a : State) : ∀ u ∈ a.slcOkOnce, u ∈ (b.watch a).slcOkOnce := by
  intro u hu
  have h1 : ∀ (l : List Nat) (c : State), (l.foldl State.poolWatch c).slcOkOnce = c.slcOkOnce := fun l c =>
    foldl_keeps State.slcOkOnce _ (fun s p =>
      poolWatch_keeps State.slcOkOnce (fun _ _ _ => (rfl)) (fun _ _ _ _ _ => (rfl)) s p) l c
  unfold State.watch
  rw [h1]
  unfold State.unitWatch
  generalize List.range 16 = l
  revert u
  have : ∀ (l : List Nat) (c : State) (u : Nat), u ∈ c.slcOkOnce →
      u ∈ (l.foldl (fun acc u =>
        if !(a.unitEnabled u) then acc
        else
          let new := a.unitState u
          if new < 2 || b.unitState u == new then acc
          else
            let a1 := acc.unitNotice (unitStateKind new) (some u)
              [(1, u), (4, a.sparePm (classFamily (a.unitClass u))), (4, a.unitFreeMib u)]
            if new ≤ 3 then { a1 with slcOkOnce := distinct (a1.slcOkOnce ++ [u]) } else a1) c).slcOkOnce := by
    intro l
    induction l with
    | nil => intro c u h; exact h
    | cons x xs ih =>
      intro c u h
      rw [List.foldl_cons]
      apply ih
      dsimp only
      split
      · exact h
      · split
        · exact h
        · split
          · apply distinct_mem; simp [h]
          · simpa using h
  intro u hu
  exact this l a u hu

/-- The end of a cycle leaves the link as it is, but for what `LinkSt.Ends` allows. -/
theorem linkWatch_ends (s : State) : s.link.Ends s.linkWatch := by
  refine ⟨s.returned s.link.owe0 + min 15 (s.link.owe0 - s.returned s.link.owe0),
    s.returned s.link.owe1 + min 15 (s.link.owe1 - s.returned s.link.owe1), ?_, ?_, ?_⟩
  · have : s.returned s.link.owe0 ≤ s.link.owe0 := Nat.min_le_left _ _
    omega
  · have : s.returned s.link.owe1 ≤ s.link.owe1 := Nat.min_le_left _ _
    omega
  · unfold State.linkWatch
    simp only [Nat.sub_sub]

theorem LinkSt.ends_refl (l : LinkSt) : l.Ends l := ⟨0, 0, Nat.zero_le _, Nat.zero_le _, rfl⟩

/-- The end of a cycle leaves the link as the meaning left it. -/
theorem settle_link (b a : State) : a.link.Ends (b.settle a).link := by
  have e : (b.settle a).link = (b.watch a).linkWatch := by rw [State.settle, State.enterCycle_link]
  have h := linkWatch_ends (b.watch a)
  rw [State.watch_link] at h
  rwa [e]

/-- The end of a cycle keeps what the meaning kept: from a state of the invariant, a field left exactly as it was by the
meaning, after time has passed, is the same in the sense of `Field.same`. -/
theorem settle_same (s : State) (dt : Nat) (a : State) (f : Field) (hs : s.Inv) (h : f.kept (s.elapse dt) a) :
    f.same s ((s.elapse dt).settle a) := by
  cases f
  case dict =>
    intro k hk
    have h : a.dict = (s.elapse dt).dict := h
    rw [State.settle_dict, h]
    have hm : s.modes.current.num < 8 := by cases s.modes.current <;> decide
    have hk := hk _ hm
    show mapGet (s.bump Obj.STAT_MODE_NS _ 0 _).dict k = _
    unfold State.bump State.setObjN State.setObj
    dsimp only
    split
    · exact mapGet_del_other _ hk
    · exact mapGet_put_other _ _ hk
  case offers =>
    have h : a.offers = s.offers := by simpa [Field.kept] using h
    have e : ((s.elapse dt).settle a).offers = a.offers ++ sortBy noticeLe ((s.elapse dt).watch a).offered := by
      rw [State.settle, State.enterCycle_offers, State.watch_offers]
    unfold Field.same
    dsimp only
    rw [e, h]
    exact List.prefix_append _ _
  case link =>
    have h : a.link = s.link := by simpa [Field.kept] using h
    have e := settle_link (s.elapse dt) a
    rw [h] at e
    exact e
  case ints =>
    have h : a.ints = s.ints := by simpa [Field.kept] using h
    unfold Field.same
    dsimp only
    rw [State.settle, State.enterCycle_ints, State.watch_ints, h]
  case pools =>
    have h : a.pools = s.pools := by simpa [Field.kept] using h
    intro q
    have e : ((s.elapse dt).settle a).pool q = ((s.elapse dt).watch a).pool q := by
      unfold State.pool; rw [State.settle, State.enterCycle_pools]
    have e2 : a.pool q = s.pool q := by unfold State.pool; rw [h]
    rw [e, watch_pool, e2]
  case slcOkOnce =>
    have h : a.slcOkOnce = s.slcOkOnce := by simpa [Field.kept] using h
    intro u hu
    rw [State.settle, State.enterCycle_slcOkOnce]
    exact watch_ok _ _ u (h ▸ hu)
  case mem =>
    have h : a.mem = s.mem := by simpa [Field.kept] using h
    unfold Field.same
    dsimp only
    rw [State.settle_mem, h, Memory.canon_of_wf _ hs.1]
  case deferred =>
    have h : a.deferred = s.deferred ∧ a.deferNew = s.deferNew := by simpa [Field.kept] using h
    unfold Field.same
    dsimp only
    rw [State.settle_deferred, h.1, h.2, hs.2.2.1, List.append_nil]
  case tlog =>
    have h : a.tlog = s.tlog := by simpa [Field.kept] using h
    have hr := hs.2.2.2.1
    have hq := hs.2.2.2.2
    have h0 : s.tlog.queue.length - 32 = 0 := by omega
    have e : s.tlog.enter = { s.tlog with raised := [] } := by
      unfold TlogSt.enter
      rw [hr, show sortBy eventLe [] = [] from rfl]
      dsimp only
      rw [List.append_nil, List.take_of_length_le hq, h0]
      simp
    have e2 : ({ s.tlog with raised := [] } : TlogSt) = s.tlog := by rw [← hr]
    unfold Field.same
    dsimp only
    rw [State.settle_tlog, h, e, e2]
  all_goals (revert h; simp [Field.kept, Field.same])

/-- Time alone changes nothing but what time changes. -/
theorem elapse_same (s : State) (dt : Nat) (f : Field) : f.same s (s.elapse dt) := by
  cases f
  case dict =>
    intro k hk
    have hm : s.modes.current.num < 8 := by cases s.modes.current <;> decide
    have hk := hk _ hm
    show mapGet (s.bump Obj.STAT_MODE_NS _ 0 _).dict k = _
    unfold State.bump State.setObjN State.setObj
    dsimp only
    split
    · exact mapGet_del_other _ hk
    · exact mapGet_put_other _ _ hk
  case pools => intro p; rfl
  case slcOkOnce => intro u h; exact h
  case offers => exact List.prefix_refl _
  case link => exact LinkSt.ends_refl _
  all_goals rfl

/-- A field is the same as itself. -/
theorem same_refl (s : State) (f : Field) : f.same s s := by
  cases f
  case dict => intro k hk; rfl
  case pools => intro p; rfl
  case slcOkOnce => intro u h; exact h
  case offers => exact List.prefix_refl _
  case link => exact LinkSt.ends_refl _
  all_goals rfl

/-- A field that a meaning leaves as it is stays the same through the command, in every phase. -/
theorem functional_same {s t : State} {dt : Nat} {g : State → State} {f : Field} (hs : s.Inv) (h : s.functional dt g = .next t)
    (k : f.kept (s.elapse dt) (g (s.elapse dt))) : f.same s t := by
  unfold State.functional at h
  split at h
  · cases h
  · split at h
    · cases h; exact same_refl _ _
    · cases h; exact elapse_same _ _ _
    · cases h; exact settle_same _ _ _ _ hs k

end Sys2Proof.Machine
end

