-- ==== Sys2Proof/WellFormed.lean ====
section
/-!
DEFINITION. WellFormed.lean: the widths the spec gives the operands of a command: what can stand on the block's pins and
ports at all. A command outside them is no input of the block.
-/

namespace Sys2Proof

/-- A processor is numbered 0 to 7 (R5). -/
def Path.wf : Path → Bool
  | .host => true
  | .lsw p => p < 8

/-- A CMD packet's beats, or a processor's number. -/
def CmdVia.wf : CmdVia → Bool
  | .host payload _ _ lastBytes vc _ => lastBytes < 256 && vc < 2 && payload.length < 65536
  | .lsw p => p < 8

def DictPath.wf : DictPath → Bool
  | .cfg p => p < 8
  | _ => true

/-- BYTES has eight bits, VC one (R67), a payload at most 65,535 bytes (R69). -/
def Packet.wf (p : Packet) : Bool := p.lastBytes < 256 && p.vc < 2 && p.payload.length < 65536

/-- A CAN FD frame carries at most 64 bytes; a base identifier has 11 bits, an extended one 29 (R479). -/
def ClosaSrc.wf : ClosaSrc → Bool
  | .mreq p => p.wf
  | .fn id kind data => data.length ≤ 64 && (if kind == .extended then id < 2 ^ 29 else id < 2 ^ 11)

/-- LEFT and RIGHT are signed bytes, LANE 0 to 9, the counts 16 bits (R229). -/
def EyeWord.wf (e : EyeWord) : Bool :=
  e.slot < 16 && e.lane < 10 && -128 ≤ e.left && e.left < 128 && -128 ≤ e.right && e.right < 128
    && e.errors < 65536 && e.samples < 65536

/-- A die slot of a channel: at most three copies of the parameter page (R231), fields as wide as a parameter page has them, eye-result
words of its own slot. -/
def DieReport.wf (r : DieReport) : Bool :=
  r.slot < 16 && r.copies.length ≤ 3 && r.planes < 256 && r.blocks < 2 ^ 32 && r.pages < 2 ^ 32 && r.pageBytes < 2 ^ 32
    && r.luns < 256 && r.cellBits < 256 && (r.trained.getD []).all fun w => w.wf && w.slot == r.slot

/-- A record page of one of the two system dies carries 16,384 payload bytes (R341). -/
def PoolPage.wf (p : PoolPage) : Bool := p.sysDie < 2 && p.bytes.length == 16384

/-- Channels, dies, blocks, queues, processors, pools, ports, groups and sequencers as the largest build numbers them. -/
def Instr.wf : Instr → Bool
  | .mode _ p _ | .park _ p _ | .read _ p _ | .write _ p _ | .flush _ p _ | .discard _ p _ | .secureDiscard _ p _
  | .fence _ p _ | .streamOpen _ p _ | .streamClose _ p _ | .copy _ p _ | .erase _ p _ | .rawRead _ p _
  | .rawProgram _ p _ | .scrub _ p _ | .calibrate _ p _ | .fold _ p _ | .blankCheck _ p _ | .purge _ p _
  | .replayScan _ p _ | .activateMicrocode _ p _ | .parityRebuild _ p _ => p.wf
  | .modeRequest _ p _ | .newTake _ p _ | .orbitStandbyWrite _ p _ | .lswGo _ p _ | .allocEnable _ p _
  | .blockRetire _ p _ | .blockClassSet _ p _ | .mapUnderlay _ p _ | .mapSafeSeqRead _ p | .calSnapshotRead _ p
  | .calRestore _ p _ | .protLevelRaise _ p _ | .seal _ p _ | .bootRegionWrite _ p _ | .rawAreaWrite _ p _
  | .bwCtrlWrite _ p _ | .psaveDataWrite _ p _ _ | .rmpKey1 _ p _ | .rmpKey2 _ p _ | .rmpArmLapse _ p
  | .eraseUser _ p _ | .eraseAll _ p _ | .lower _ p _ | .ucodeLoad _ p _ | .poolEnable _ p _ | .statFreeze _ p _
  | .tlogMark _ p _ | .tlogClear _ p _ | .tlogImageRead _ p => p.wf
  | .codeDescWrite _ p code _ => p.wf && code < 4
  | .flushNq _ p q | .clearNq _ p q => p.wf && q < 8
  | .ceStart _ p ch _ | .ceAbort _ p ch => p.wf && ch < 16
  | .enum _ p ch | .failChannel _ p ch => p.wf && ch < 64
  | .chDieFail _ p ch _ | .mbCtrl _ p ch _ => p.wf && ch < 64
  | .mbFieldWrite _ p ch sub _ => p.wf && ch < 64 && sub < 256
  | .enumDone _ ch reps => ch < 64 && reps.all DieReport.wf
  | .frameBoundary _ n => n < 2 ^ 32
  | .lineBoundary _ n => n < 2 ^ 16
  | .virtualLineBoundary _ n => n < 2 ^ 16
  | .crdt _ pkt _ | .linkUp _ pkt _ | .linkDown _ pkt _ | .linkEcho _ pkt _ | .data _ pkt | .qrst _ pkt => pkt.wf
  | .creditReturn _ a b => a < 16 && b < 16
  | .windowExpired _ w => w < 65536
  | .bufGrant _ pool => pool < 5
  | .bufAlloc _ proc pool => proc < 8 && pool < 256
  | .programDone _ d _ | .eraseDone _ d _ | .dieOpTimeout _ d | .suspendBudgetExpired _ d | .tempPoll _ d _
  | .calAgeTrigger _ d | .calHoldExpired _ d | .statusPoll _ d _ => d < 1024
  | .lunResetDone _ d _ _ _ | .idCheck _ d _ _ => d < 1024
  | .dieFailed _ d cause opcode => d < 1024 && cause < 256 && opcode < 256
  | .calibrationRun _ d _ temps _ eyes => d < 1024 && temps.all (fun t => t.1 < 1024) && eyes.all EyeWord.wf
  | .bgBlankCheck _ d plane block zeros => d < 1024 && plane < 8 && block < 65536 && zeros < 2 ^ 32
  | .rbRise _ ch ce => ch < 64 && ce < 16
  | .phyFault _ ch cause phy => ch < 64 && cause < 256 && phy < 256
  | .channelRecoveryDone _ ch | .recoverTimeout _ ch | .mbHandover _ ch | .eyeScanOverrun _ ch => ch < 64
  | .cometRead _ st => st < 64
  | .roWaitExpired _ _ cl => cl < 8
  | .protReady _ a b spent pages => a.wf && b.wf && spent.all (fun d => d < 1024) && pages.all PoolPage.wf
  | .bwFetch _ a _ _ _ => a < 2 ^ 32
  | .dieOpDispatch _ seq => seq < 68
  | .microword _ seq ctx _ | .ucodeWatchdog _ seq ctx => seq < 68 && ctx < 16
  | .bufFree _ p _ | .bufFreeAddr _ p _ | .bufRef _ p _ | .intClaim _ p | .intEoi _ p _ | .intSoft _ p _
  | .sleepInd _ p _ | .nqBlockExpired _ p => p < 8
  | .heldNoticeEnter _ q | .nqFlushTimeout _ q => q < 8
  | .nqPop _ p q | .nqTry _ p q => p < 8 && q < 8
  | .ceDone _ ch => ch < 16
  | .mpCmdCredit _ port | .mpWrCredit _ port => port < 8
  | .mpRdBeat _ port tag beat _ _ => port < 8 && tag < 4096 && beat.length == 64
  | .mpAck _ port tag _ => port < 8 && tag < 4096
  | .coalTimer _ g => g < 32
  | .closaRead _ src | .closaWrite _ src | .uploadBegin _ src | .uploadSeg _ src | .downloadBegin _ src
  | .downloadSeg _ src | .abandon _ src => src.wf
  | .cfgDownloadOpen _ p idx sub _ | .cfgDownloadAppend _ p idx sub _ | .cfgWriteLatch _ p idx sub _ =>
      p < 8 && idx < 65536 && sub < 256
  | .cfgAbandon _ p idx sub | .cfgUploadOpen _ p idx sub | .cfgUploadRead _ p idx sub => p < 8 && idx < 65536 && sub < 256
  | .objectWrite _ p idx sub off _ => p < 8 && idx < 65536 && sub < 256 && off < 16
  | .dictSegTimeout _ x => x < 265
  | .porst .. | .blkrst .. | .initDone .. | .mbistStart .. | .mbistDone .. | .sanitizeEnter .. | .parkEntryDone ..
  | .parkWake .. | .rasValidFall .. | .rasValidRise .. | .rasterLossTimeout .. | .virtualFrameBoundary .. | .orbitTick ..
  | .linkReady .. | .readyDrop .. | .qrstDone .. | .xrdyGrant .. | .hostLinkStall .. | .packetSend .. | .commandStart ..
  | .writeAccept .. | .bufWaitTimeout .. | .parSpill .. | .allocWalkDone .. | .allocRequest .. | .autoErase ..
  | .codewordDecoded .. | .admissionResume .. | .bwFetchWaitExpired .. | .sanitizeDone .. | .pfail .. | .drainDone .. | .ucodeSwap ..
  | .noticeOffer .. | .fnStatusFrame .. | .fnBusoff .. | .fnBusoffRecover .. | .tlogRecord .. => true

end Sys2Proof
end

