-- ==== Sys2Proof/Tests/Slice0.lean ====
section
/-!
SUPPORT. Tests/Slice0.lean: an ill-formed command for each check of WellFormed, one-step tests on small states, whose expected
values come from the spec, and for each statement with hypotheses a state and operands that meet them.
-/

namespace Sys2Proof.Tests

open Sys2Proof Sys2Proof.Machine

/-! ### Ill-formed commands -/

theorem test_wf_path : (Instr.mode 0 (.lsw 8) 0).wf = false := by decide
theorem test_wf_dictPath : (Instr.modeRequest 0 (.cfg 8) 1).wf = false := by decide
theorem test_wf_code : (Instr.codeDescWrite 0 .mreq 4 []).wf = false := by decide
theorem test_wf_noticeQueue : (Instr.clearNq 0 .mreq 8).wf = false ∧ (Instr.nqPop 0 0 8).wf = false ∧
    (Instr.heldNoticeEnter 0 8).wf = false := by decide
theorem test_wf_ceChannel : (Instr.ceAbort 0 .mreq 16).wf = false ∧ (Instr.ceDone 0 16).wf = false := by decide
theorem test_wf_channel : (Instr.enum 0 .mreq 64).wf = false ∧ (Instr.mbFieldWrite 0 .mreq 0 256 0).wf = false ∧
    (Instr.rbRise 0 0 16).wf = false ∧ (Instr.mbHandover 0 64).wf = false ∧ (Instr.phyFault 0 0 256 0).wf = false := by decide
theorem test_wf_reports : (Instr.enumDone 0 0 [{ slot := 16 }]).wf = false ∧
    (Instr.protReady 0 { slot := 0 } { slot := 1 } [] [{ sysDie := 2, plane := 0, block := 0, page := 0, bytes := [] }]).wf = false ∧
    (Instr.calibrationRun 0 0 true [] [] [{ slot := 0, lane := 10, left := 0, right := 0, errors := 0, samples := 0 }]).wf
      = false := by decide
theorem test_wf_raster : (Instr.frameBoundary 0 (2 ^ 32)).wf = false ∧ (Instr.lineBoundary 0 65536).wf = false ∧
    (Instr.virtualLineBoundary 0 65536).wf = false := by decide
theorem test_wf_packet : (Instr.data 0 { hdr := 0, vc := 2 }).wf = false ∧ (Instr.creditReturn 0 16 0).wf = false ∧
    (Instr.windowExpired 0 65536).wf = false := by decide
theorem test_wf_buffers : (Instr.bufGrant 0 5).wf = false ∧ (Instr.bufAlloc 0 8 0).wf = false ∧
    (Instr.bufFree 0 8 0).wf = false := by decide
theorem test_wf_dies : (Instr.programDone 0 1024 true).wf = false ∧ (Instr.idCheck 0 1024 0 0).wf = false ∧
    (Instr.dieFailed 0 0 256 0).wf = false ∧ (Instr.bgBlankCheck 0 0 8 0 0).wf = false := by decide
theorem test_wf_streams : (Instr.cometRead 0 64).wf = false ∧ (Instr.roWaitExpired 0 0 8).wf = false ∧
    (Instr.codewordDecoded 0 0).wf = true := by decide
theorem test_wf_sequencer : (Instr.dieOpDispatch 0 68).wf = false ∧ (Instr.microword 0 0 16 {}).wf = false ∧
    (Instr.bwFetch 0 (2 ^ 32) none none []).wf = false := by decide
theorem test_wf_ports : (Instr.mpCmdCredit 0 8).wf = false ∧ (Instr.mpRdBeat 0 0 0 [] true false).wf = false ∧
    (Instr.mpAck 0 0 4096 false).wf = false ∧ (Instr.coalTimer 0 32).wf = false := by decide
theorem test_wf_closa : (Instr.closaRead 0 (.fn (2 ^ 11) .fd [])).wf = false ∧
    (Instr.abandon 0 (.fn 0 .fd (List.replicate 65 0))).wf = false ∧ (Instr.objectWrite 0 0 0 0 16 0).wf = false ∧
    (Instr.cfgAbandon 0 0 0 256).wf = false ∧ (Instr.cfgDownloadOpen 0 8 0 0 0).wf = false ∧
    (Instr.dictSegTimeout 0 265).wf = false := by decide

/-! ### Small states -/

/-- The block right after initialization and the pool scan. -/
def up : State := { State.reset with phase := .running, prot := { State.reset.prot with ready := true } }

/-- The block in a mode. -/
def inMode (m : Mode) : State := { up with modes := { current := m } }

/-- The host link UP with ample credit. -/
def linked : State := { up with link := { st := 3, peer0 := 64, peer1 := 4096, tx0 := 64, tx1 := 4096 } }

/-- The state a command answers, if it answers one. -/
def after (i : Instr) (s : State) : State :=
  match exec i s with
  | .next t => t
  | _ => s

/-- The table gives no row bits: no word spells a command. -/
theorem test_decode_none : decodeTableWord 0 0 = none := by decide

/-! ### The machine, resets and modes -/

/-- R36, R522: after BLKRST_N falls the block is in OPEN; a command while it is 0 has no effect. -/
theorem test_blkrst : (after (.blkrst 0 true) (inMode .review)).modes.current = .openMode ∧
    (after (.fnBusoff 5) (after (.blkrst 0 true) up)).tref = 0 := by decide

/-- R510: BIST in test mode alone. -/
theorem test_mbist : (after (.mbistStart 0) { up with testMode := true }).mbistBusy = true ∧
    (after (.mbistStart 0) up).mbistBusy = false := by decide

theorem witness_OnlyTestModeStops : (inMode .openMode).testMode = false ∧ (Instr.pfail 1).isReset = false ∧
    ({ up with phase := .held } : State).phase = .held ∧ (∀ dt, Instr.pfail 1 ≠ .initDone dt) ∧
    (∀ dt a p q l, Instr.pfail 1 ≠ .bwFetch dt a p q l) := by
  refine ⟨rfl, rfl, rfl, ?_, ?_⟩ <;> intros <;> intro h <;> cases h

theorem witness_OnlyTestModeStops_pins :
    (let s : State := { State.reset with phase := .held }; s.testMode = false ∧ s.phase = .held ∧ 7 < s.ints.sleep.length) ∧
    State.reset.testMode = false ∧ State.reset.phase = .clearing ∧ 7 < State.reset.build.clusters ∧ (State.reset.port 7).wait = [] ∧
    (Instr.pfail 1).isPin = false := by decide

theorem witness_RunningCommandsTakeTheirTime : up.Up ∧ (Instr.pfail 1).isReset = false := ⟨⟨rfl, rfl⟩, rfl⟩

theorem witness_StepKeepsInvariant : up.Inv ∧ step up = .next up := ⟨⟨rfl, rfl, rfl, rfl, by decide⟩, rfl⟩

theorem witness_ModeAfterReset : up.porLow = false ∧ up.phase ≠ .held := by decide

theorem witness_ResetRowsComplete :
    up.porLow = false ∧ ({ up with porLow := true } : State).porLow = true ∧ up.phase ≠ .held ∧
    (let s : State := { State.reset with phase := .held, blkLow := true, trefKhz := 25000 }
     s.phase = .held ∧ s.blkLow = true ∧ s.porLow = false ∧ 25000 ≤ s.trefKhz ∧ s.trefKhz ≤ 200000) ∧
    ({ up with trefKhz := 24999 } : State).trefKhz < 25000 ∧ 200000 < ({ up with trefKhz := 200001 } : State).trefKhz ∧
    (State.reset.testMode = false ∧ State.reset.phase = .clearing) ∧
    (let s : State := { up with testMode := true, mbistBusy := true }; s.testMode = true ∧ s.mbistBusy = true) := by decide

theorem witness_ResetFrame : (Instr.blkrst 0 true).isReset = true ∧
    exec (.blkrst 0 true) up = .next (after (.blkrst 0 true) up) ∧
    exec (.porst 0 false 25000 true false) up = .next (after (.porst 0 false 25000 true false) up) ∧
    exec (.mbistDone 0 true) up = .next up := ⟨rfl, rfl, rfl, rfl⟩

/-- R28, R30: from OPEN, REVIEW waits for the frame and OFFLOAD takes effect at once; from SANITIZE all but OPEN is refused. -/
theorem test_modeRequest : (after (.modeRequest 1 (.cfg 0) 4) up).modes.pending = some { mode := .review } ∧
    (after (.modeRequest 1 (.cfg 0) 5) up).modes.current = .offload ∧
    (after (.modeRequest 1 (.cfg 0) 5) (inMode .sanitize)).modes.lastRefusal = 6 := by decide

/-- One state for each row of R30's table: a mode asked for from each kind of mode, a stream open and none. -/
def modeCases : List (State × W64) :=
  [(inMode .sanitize, 5), ({ inMode .sanitize with prot := { up.prot with sanRunning := true } }, 1), (inMode .sanitize, 1),
   ({ inMode .review with streams := [{ isOpen := true }] }, 1), (up, 3), (up, 7), (up, 0), (inMode .service, 5),
   (inMode .record, 1), (up, 2)]

theorem witness_ModeRequestFollowsTable : ∀ c ∈ modeCases, c.1.Up ∧ (c.1.elapse 1).WritePasses (.cfg 0) Obj.MODE_REQUEST c.2 ∧
    (c.1.elapse 1).prot.pfail = false ∧ (c.1.elapse 1).modes.current ≠ .park ∧
    Mode.ofNum c.2.toNat ≠ (c.1.elapse 1).modes.current := by
  unfold State.Up State.WritePasses State.Reaches; decide

theorem witness_ModeRequestFollowsTable_branches :
    (inMode .review).streamOpen = false ∧ ({ inMode .review with streams := [{ isOpen := true }] } : State).streamOpen = true ∧
    (up.elapse 1).slcPoolFree < (up.elapse 1).objN Obj.BURST_ENTRY_FREE ∧
    (let s := up.setObjN Obj.BURST_ENTRY_FREE 0
     (s.elapse 1).objN Obj.BURST_ENTRY_FREE ≤ (s.elapse 1).slcPoolFree) := by decide

/-- The block in RECORD-BURST with its own request for another mode waiting, and in OPEN with a request of firmware's. -/
def ownRequest : State := { inMode .recordBurst with modes := { current := .recordBurst, pending := some { mode := .record, byBlock := true } } }
def asked : State := { up with modes := { pending := some { mode := .review } } }

/-- The block about to enter SANITIZE, and PARK. -/
def draining : State := { up with modes := { pending := some { mode := .sanitize }, draining := true } }
def parking : State := { up with modes := { pending := some { mode := .park }, parkEntry := true } }

/-- A COPY that waits in PARK. -/
def parked : State :=
  { inMode .park with cmds := [{ hdr := BitVec.ofNat 256 (0x20 * 2 ^ 64), path := .host, stamp := 1, pos := {}, time := 0 }] }

theorem test_parkEntryDone : (after (.parkEntryDone 1) parking).modes.current = .park ∧
    (after (.sanitizeEnter 1) draining).modes.current = .sanitize ∧
    (after (.parkWake 1) parked).modes.current = .openMode := by decide

theorem witness_ModeEntryRowsComplete :
    (up.Up ∧ (up.elapse 1).WritePasses (.cfg 0) Obj.MODE_REQUEST 1 ∧ (up.elapse 1).prot.pfail = false ∧
      (up.elapse 1).modes.current = Mode.ofNum 1 ∧ up.modes.current ≠ .park ∧ up.modes.pending = none) ∧
    ((inMode .park).Up ∧ ((inMode .park).elapse 1).WritePasses (.cfg 0) Obj.MODE_REQUEST 0 ∧ Mode.ofNum 0 = .park) ∧
    ((asked.elapse 1).WritePasses (.cfg 0) Obj.MODE_REQUEST 1 ∧ asked.modes.current = Mode.ofNum 1 ∧ asked.modes.pending ≠ none) ∧
    ((ownRequest.elapse 1).WritePasses (.cfg 0) Obj.MODE_REQUEST 3 ∧ ownRequest.modes.current = Mode.ofNum 3 ∧
      ∃ r, ownRequest.modes.pending = some r ∧ r.byBlock = true) ∧
    (let s : State := { up with prot := { up.prot with pfail := true } }
     s.Up ∧ (s.elapse 1).WritePasses (.cfg 0) Obj.MODE_REQUEST 5 ∧ (s.elapse 1).prot.pfail = true) ∧
    (draining.modes.pending = some { mode := .sanitize } ∧ draining.modes.draining = true ∧ draining.cmds = [] ∧
      draining.versions = [] ∧ draining.jobs = [] ∧ (∀ o ∈ draining.ops, o.kind.ofCommand = false) ∧
      ({ draining with jobs := [{ id := 7, purpose := .read 4 0, ppa := 0, unit := 0, lba := 0, cls := 3, stamp := 4 }] } : State).jobs ≠ []) ∧
    (parking.modes.pending = some { mode := .park } ∧ parking.modes.parkEntry = true ∧ parking.modes.parkRestarted = false ∧
      parking.modes.parkFlushed = false ∧ (∀ o ∈ parking.ops, o.started = false) ∧
      ({ parking with modes := { parking.modes with parkRestarted := true } } : State).modes.parkRestarted = true) ∧
    (parked.Up ∧ parked.modes.current = .park ∧ parked.prot.pfail = false ∧
      (∃ c ∈ parked.cmds, c.isEnded = false ∧ (parked.elapse 1).needsMedia c = true) ∧ up.modes.current ≠ .park) := by
  unfold State.Up State.WritePasses State.Reaches
  refine ⟨?_, ?_, ?_, ⟨by decide, by decide, _, rfl, rfl⟩, ?_, ?_, ?_, ?_, by decide, by decide, ⟨_, List.mem_cons_self, by decide⟩, by decide⟩ <;>
    ((repeat' apply And.intro) <;> decide)

/-! ### The raster and the orbit -/

/-- The camera raster present at frame 7, line 3, its last strobe at time 0. -/
def camera : State :=
  { up with raster := { pos := { frame := 7, line := 3 }, validIn := true, present := true, lastFrameAt := some 0,
                        lastLineAt := some 0, intervals := [1000] } }

/-- R38, R41: a frame number that does not rise opens a new epoch with cause 1; a strobe within 100 ns is refused. -/
theorem test_frameBoundary : (after (.frameBoundary 20 7) camera).raster.pos.epoch = 1 ∧
    (after (.frameBoundary 20 7) camera).raster.lastCause = 1 ∧
    (after (.frameBoundary 20 8) camera).raster.pos = { epoch := 0, frame := 8, line := 0 } ∧
    (after (.frameBoundary 5 8) camera).objN Obj.RAS_STROBE_ERR = 1 := by decide +kernel

/-- R39: a line number that does not rise is refused. -/
theorem test_lineBoundary : (after (.lineBoundary 20 4) camera).raster.pos.line = 4 ∧
    (after (.lineBoundary 20 3) camera).raster.pos.line = 3 := by decide

theorem witness_FrameBoundaryCompletes : camera.Up ∧ camera.raster.validIn = true ∧
    spaced camera.raster.lastFrameAt (camera.elapse 10).now = true ∧ spaced camera.raster.lastFrameAt (camera.elapse 9).now = false ∧
    (camera.elapse 10).epochCause 7 = 1 ∧ (camera.elapse 10).epochCause 8 = 0 ∧ up.raster.validIn = false := by
  unfold State.Up; (repeat' apply And.intro) <;> decide

theorem witness_RasterStrobesComplete : up.raster.present = false ∧
    (spaced camera.raster.lastLineAt (camera.elapse 10).now = true ∧ camera.raster.pos.line.toNat < min 65535 4) ∧
    min 65535 3 ≤ camera.raster.pos.line.toNat ∧
    (0 + (camera.elapse 200).objN Obj.RAS_LOSS_FRAMES * camera.raster.frameNs ≤ (camera.elapse 200).now) ∧
    (up.raster.boundaryAt + up.raster.vPeriod ≤ (up.elapse 4166667).now) ∧
    (∃ at_, up.raster.lineTime 1 = some at_ ∧ at_ ≤ (up.elapse 4200).now ∧ up.raster.absentAt < at_) := by
  refine ⟨by decide, by decide, by decide, by decide, by decide, 41666, by decide, by decide, by decide⟩

theorem witness_ModeAndRasterFrame : up.Inv ∧
    exec (.modeRequest 1 (.cfg 0) 2) up = .next (after (.modeRequest 1 (.cfg 0) 2) up) ∧
    exec (.lineBoundary 20 4) camera = .next (after (.lineBoundary 20 4) camera) ∧
    exec (.parkWake 1) parked = .next (after (.parkWake 1) parked) := ⟨⟨rfl, rfl, rfl, rfl, by decide⟩, rfl, rfl, rfl⟩

/-- A table of one frame with no slots. -/
def emptyTable : OrbitTable :=
  { generation := 1, frames := 1, cls := 1, slots := 0, groups := 0, tprogNs := 0, periodNs := 256000,
    masks := List.replicate 256 0 }

theorem witness_OrbitRowsComplete :
    (up.Up ∧ (up.elapse 1).WritePasses (.cfg 0) Obj.NEW_TAKE 1) ∧
    (let s : State := { inMode .record with orbit := { active := some emptyTable, tick := 255 }, raster := { lines := 0 } }
     s.orbitTable = some emptyTable ∧ s.orbit.tick < emptyTable.ticks ∧ (s.elapse 1).tickDue emptyTable s.orbit.tick = true) ∧
    (let s := up.setObjN Obj.ORBIT_MANUAL 1
     (s.elapse 1).TransferPasses (.cfg 0) Obj.ORBIT_STANDBY true 4128 ∧ (s.elapse 1).tableOk [] = false) := by
  unfold State.Up State.WritePasses State.TransferPasses State.Reaches
  refine ⟨?_, ⟨rfl, ?_⟩, ?_⟩ <;> (repeat' apply And.intro) <;> decide

/-- The first 28 bytes of a table without slots: one frame, class 1, a period of 256,000 ns; then 4,096 bytes of masks. -/
def tableHead : List Byte := [1, 0, 0, 0, 1, 1, 0, 0, 0, 0, 0, 0, 0, 0, 0, 0, 0, 0xE8, 3, 0] ++ List.replicate 8 0
def tableMasks : List Byte := List.replicate 4096 0

theorem crcBit_lt (c : Nat) (h : c < 2 ^ 32) : crcBit c < 2 ^ 32 := by
  unfold crcBit; split
  · exact Nat.xor_lt_two_pow (by omega) (by decide)
  · omega

theorem crc32c_lt (bs : List Byte) : crc32c bs < 2 ^ 32 := by
  have h : ∀ (bs : List Byte) (c : Nat), c < 2 ^ 32 → bs.foldl crcByte c < 2 ^ 32 := by
    intro bs
    induction bs with
    | nil => exact fun _ h => h
    | cons b bs ih =>
      intro c h
      have hb : b.toNat < 2 ^ 32 := by have := b.isLt; omega
      exact ih _ (by unfold crcByte; repeat (first | exact Nat.xor_lt_two_pow h hb | apply crcBit_lt))
  exact Nat.xor_lt_two_pow (h bs _ (by decide)) (by decide)

theorem masks_zero (pre : List Byte) (h : pre.length = 32) (k : Nat) :
    leAt (pre ++ tableMasks) (32 + 16 * k) 16 = 0 := by
  have hb : ∀ i, byteAt (pre ++ tableMasks) (32 + 16 * k + i) = 0 := fun i => by
    rw [byteAt, List.getD_eq_getElem?_getD, List.getElem?_append_right (by omega), tableMasks, List.getElem?_replicate]
    split <;> rfl
  simp only [leAt, hb]; decide

theorem slots_none (g : Nat) (t : OrbitTable) (h : t.masks = List.replicate 256 0) : t.slotTicks g = [] := by
  rw [OrbitTable.slotTicks, h, List.filter_eq_nil_iff]
  intro k _
  rw [List.getD_eq_getElem?_getD, List.getElem?_replicate]
  split <;> simp [tbit]

/-- A manual table that passes the checks of R52. -/
theorem witness_OrbitRowsComplete_table (c : Nat) (hc : c = crc32c (tableHead ++ tableMasks)) :
    up.tableOk (tableHead ++ leBytes 4 c ++ tableMasks) = true := by
  have hlt : c < 2 ^ 32 := hc ▸ crc32c_lt _
  have hk : ∀ k, leAt (tableHead ++ leBytes 4 c ++ tableMasks) (32 + 16 * k) 16 = 0 := masks_zero _ rfl
  have h4 : leAt (tableHead ++ leBytes 4 c ++ tableMasks) 28 4 = c := by
    show (BitVec.ofNat 8 c).toNat + 256 * ((BitVec.ofNat 8 (c / 256)).toNat + 256 * ((BitVec.ofNat 8 (c / 256 / 256)).toNat
      + 256 * ((BitVec.ofNat 8 (c / 256 / 256 / 256)).toNat + 256 * 0))) = c
    simp only [BitVec.toNat_ofNat]; omega
  have hm : (OrbitTable.ofImage (tableHead ++ leBytes 4 c ++ tableMasks)).masks = List.replicate 256 0 := by
    simp only [OrbitTable.ofImage, hk, List.map_const', List.length_range]
  have hf : (OrbitTable.ofImage (tableHead ++ leBytes 4 c ++ tableMasks)).frames = 1 := rfl
  have hd : (tableHead ++ leBytes 4 c ++ tableMasks).drop 32 = tableMasks := rfl
  have ht : (tableHead ++ leBytes 4 c ++ tableMasks).take 28 = tableHead := rfl
  have hl : (tableHead ++ leBytes 4 c ++ tableMasks).length = 4128 := by
    rw [List.length_append, tableMasks, List.length_replicate]; rfl
  unfold State.tableOk
  simp only [h4, slots_none _ _ hm, hf, hd, ht, hl, ← hc]
  simp

/-! ### The host link -/

/-- A packet of one beat without a payload: its type, and its fields. -/
def ctl (ty fields : Nat) : Packet := { hdr := BitVec.ofNat 256 (ty + fields), beats := 1, lastBytes := 32 }

/-- The link in a state. -/
def linkAt (st : Nat) : State := { up with link := { st } }

/-- R73: a CRDT of 4 and 65 beats brings UP_WAIT; one of 3 takes the link down with code 14. -/
theorem test_crdt : (after (.crdt 1 (ctl 8 (4 * 2 ^ 32 + 65 * 2 ^ 64)) 16) (linkAt 1)).link.st = 2 ∧
    (after (.crdt 1 (ctl 8 (3 * 2 ^ 32 + 65 * 2 ^ 64)) 16) (linkAt 1)).link.lastError = 14 := by decide

/-- R89, R91: a packet one LCLK too close is dropped with code 15; READY low in UP takes the link down with code 12. -/
theorem test_packet_faults : (after (.crdt 1 (ctl 8 (4 * 2 ^ 32 + 65 * 2 ^ 64)) 15) (linkAt 1)).link.lastError = 15 ∧
    (after (.readyDrop 1) linked).link.lastError = 12 ∧ (after (.readyDrop 1) linked).link.st = 0 := by decide

theorem witness_LinkUpRowsComplete : (up.link.st = 0 ∧ up.link.crdtIn = none) ∧
    (∀ st ∈ [0, 1], ((linkAt st).elapse 1).Takes 8 0 (some 16) (ctl 8 (4 * 2 ^ 32 + 65 * 2 ^ 64))) ∧
    ((linkAt 2).elapse 1).Takes 9 1 (some 16) (ctl 9 (2 ^ 32)) ∧ ((linkAt 2).elapse 1).Takes 9 1 (some 16) (ctl 9 (2 ^ 32 + 2 ^ 40)) ∧
    tbit (asPacket 9 1 (ctl 9 (2 ^ 32 + 2 ^ 40)).hdr).toNat 40 = true ∧ (linked.elapse 1).Takes 9 1 (some 16) (ctl 9 (2 ^ 32)) ∧
    ((linkAt 1).elapse 1).Takes 8 0 (some 16) (ctl 8 (4 * 2 ^ 32 + 64 * 2 ^ 64)) ∧
    ({ linkAt 0 with link := { crdtIn := some (4, 65) } } : State).link.crdtIn = some (4, 65) := by
  have g : ∀ g : Nat, some 16 = some g → 16 ≤ g := fun g h => by cases h; decide
  refine ⟨by decide, ?_, ⟨?_, ?_, g, by decide⟩, ⟨?_, ?_, g, by decide⟩, by decide, ⟨?_, ?_, g, by decide⟩,
    ⟨.inl (by decide), ⟨rfl, by decide, .inl rfl⟩, g, by decide⟩, rfl⟩
  · intro st h
    have h : st = 0 ∨ st = 1 := by simpa using h
    rcases h with rfl | rfl
    · exact ⟨.inr (.inr rfl), ⟨rfl, by decide, .inl rfl⟩, g, by decide⟩
    · exact ⟨.inr (.inr rfl), ⟨rfl, by decide, .inl rfl⟩, g, by decide⟩
  all_goals first | exact .inl (by decide) | exact ⟨rfl, by decide, .inr (.inl rfl)⟩

theorem witness_LinkGoesDown : linked.link.st ≠ 0 ∧ (linked.elapse 1).Takes 9 2 (some 16) (ctl 9 (2 * 2 ^ 32)) ∧
    (Instr.data 1 { ctl 3 0 with beats := 66 }).packet = some (3, 0, none, { ctl 3 0 with beats := 66 }) ∧
    (Instr.flush 1 (.host (vc := 1)) (ctl 1 0).hdr).packet
      = some (1, 0, none, { ctl 1 (3 * 2 ^ 64) with vc := 1 }) ∧ (linked.elapse 1).Listens 3 ∧
    (let s : State := { linked with link := { linked.link with rx1 := 4096 } }
     (s.elapse 1).rxSpace 1 < (ctl 1 0).beats ∧ (s.elapse 1).rxSpace 0 = 256) ∧ (linkAt 0).link.st = 0 := by
  refine ⟨by decide, ⟨.inl (by decide), ⟨rfl, by decide, .inr (.inl rfl)⟩, fun g h => by cases h; decide, by decide⟩, rfl, by decide,
    .inl (by decide), by decide, rfl⟩

theorem witness_BadPacketsAreDropped :
    (Instr.data 1 (ctl 3 0)).packet = some (3, 0, none, ctl 3 0) ∧ (linked.elapse 1).Listens 3 ∧
    (linked.elapse 1).Framed 3 (ctl 3 0) ∧ (linked.elapse 1).packetFault { ctl 3 0 with hdr := asPacket 3 0 (ctl 3 0).hdr } = some 4 ∧
    (Instr.linkEcho 1 (ctl 9 (4 * 2 ^ 32)) 15).packet = some (9, 4, some 15, ctl 9 (4 * 2 ^ 32)) ∧
    ((ctl 8 0).lastBytes ≠ (32 + 1) % 256 ∧ (ctl 8 0).beats ≠ (32 + 65535 + 255) / 256) := by
  refine ⟨rfl, .inl (by decide), ⟨rfl, by decide, .inr (.inr (by decide))⟩, by decide, rfl, by decide⟩

theorem witness_CreditRowsComplete : (linked.link.st ≠ 0 ∧ linked.link.peer0 ≠ 0 ∧ (linkAt 0).link.st = 0) ∧
    (let s : State := { linked with link := { linked.link with short1 := some 0 } }
     0 + (s.elapse 10000000).objN Obj.HL_STALL_NS ≤ (s.elapse 10000000).now ∧ s.link.stall1 = false) ∧
    (let s : State := { linked with link := { linked.link with out1 := [.data 4 0 4 0 true [1]] } }
     (s.elapse 1).nextPacket = some (.data 4 0 4 0 true [1])) ∧
    (let s : State := { linked with link := { linked.link with short0 := some 0 } }
     0 + (s.elapse 10000000).objN Obj.HL_STALL_NS ≤ (s.elapse 10000000).now ∧ s.link.short1 = none ∧ s.link.stall0 = false) ∧
    (let s : State := { linked with link := { linked.link with out0 := [.link 5 0 false 0] } }
     (s.elapse 1).nextPacket = some (.link 5 0 false 0)) ∧ (linked.elapse 1).nextPacket = none := by decide

/-- A WRITE of one sector that has started, with one window of 4,096 bytes open; the DATA that fills it; and a WRITE of two sectors
whose second window has its buffer. -/
def aWindow : Window := { id := 9, stamp := 5, offset := 0, len := 4096, sentAt := some 0, timeout := 1000000 }
def writing : State :=
  { linked with
    cmds := [{ hdr := BitVec.ofNat 256 (2 * 2 ^ 64 + 2 ^ 144), path := .host, stamp := 5, phase := .started, bufs := [(0, 0)] }]
    link := { linked.link with windows := [aWindow] } }
def dataPkt : Packet :=
  { hdr := BitVec.ofNat 256 (3 + 4096 * 2 ^ 16 + 9 * 2 ^ 64), payload := List.replicate 4096 7, beats := 17, lastBytes := 32, vc := 1 }
def grantCmd : Cmd :=
  { hdr := BitVec.ofNat 256 (2 * 2 ^ 64 + 2 * 2 ^ 144), path := .host, stamp := 5, phase := .started, granted := 4096, drawn := 8192
    bufs := [(0, 0)] }
def granting : State := { writing with cmds := [grantCmd] }

theorem witness_WindowRowsComplete :
    ((writing.elapse 1).Takes 3 0 none dataPkt ∧ (writing.elapse 1).dataWindow (asPacket 3 0 dataPkt.hdr) = some aWindow ∧
      writing.cmd? 5 = writing.cmds[0]?) ∧
    ((granting.elapse 1).cmd? 5 = some grantCmd ∧ (granting.elapse 1).windowHeld grantCmd = true ∧
      (granting.elapse 1).grantsHeld grantCmd = false ∧ (granting.elapse 1).overBudget = false ∧
      (granting.link.windows.filter fun w => w.stamp == 5).length < (granting.elapse 1).objN Obj.XRDY_AHEAD ∧
      (granting.elapse 1).repeatChecks grantCmd = none ∧ (granting.elapse 1).windowHeld { grantCmd with drawn := 8191 } = false) ∧
    writing.link.windows.find? (fun x => x.id == 9 && x.sentAt.any fun t => t + x.timeout ≤ (writing.elapse 100000).now)
      = some aWindow ∧
    writing.link.windows.find? (fun x => x.id == 9 && x.sentAt.any fun t => t + x.timeout ≤ (writing.elapse 99999).now) = none ∧
    (linked.elapse 1).Takes 9 4 (some 16) (ctl 9 (4 * 2 ^ 32)) ∧
    (linked.elapse 1).Takes 0xA 0 none (ctl 0xA 0) ∧ (linked.elapse 1).Takes 0xA 0 none (ctl 0xA (2 ^ 96)) ∧
    (let s : State := { linked with link := { linked.link with qrsts := [{ qtag := 1, qmask := 1, covered := [5] }] } }
     ∀ st ∈ [5], s.cmd? st = none) ∧
    (∃ st ∈ [5], writing.cmd? st ≠ none) := by
  have g : ∀ g : Nat, none = some g → 16 ≤ g := fun g h => by cases h
  refine ⟨⟨⟨.inl (by decide), ⟨rfl, by decide, .inr (.inr (by decide))⟩, g, by decide⟩, by decide, rfl⟩, by decide, by decide, by decide,
    ⟨.inl (by decide), ⟨rfl, by decide, .inr (.inl rfl)⟩, fun g h => by cases h; decide, by decide⟩,
    ⟨.inl (by decide), ⟨rfl, by decide, .inr (.inr (by decide))⟩, g, by decide⟩,
    ⟨.inl (by decide), ⟨rfl, by decide, .inr (.inr (by decide))⟩, g, by decide⟩, by decide, 5, by decide, by decide⟩

/-! ### Filing -/

/-- A command header: its UNIT, its CID, and the bits of its fields. -/
def cmdHdr (unit cid fields : Nat) : Header := BitVec.ofNat 256 (1 + unit * 2 ^ 54 + cid * 2 ^ 32 + fields)

/-- A CMD packet of one beat that finds receive space and passes the checks of R89 comes to be filed. -/
theorem reached_host (s : State) (op : Nat) (h : Header)
    (hr : s.prot.ready = true ∧ s.canFile (asPacket 1 0 (withOpcode op h)) = true ∧ s.link.st = 3 ∧ s.link.held = [] ∧
      1 ≤ s.rxSpace 0 ∧ s.packetFault { hdr := asPacket 1 0 (withOpcode op h), lastBytes := 32 } = none) :
    s.Reached .host (withOpcode op h) :=
  ⟨hr.1, hr.2.1, hr.2.2.1, ⟨.inl (by rw [hr.2.2.1]; decide), ⟨rfl, (by decide : (1 : Nat) ≤ 65), .inr (.inr hr.2.2.2.2.1)⟩,
    (fun _ h => by cases h), hr.2.2.2.2.2⟩, hr.2.2.2.1⟩

/-- R103: a FLUSH of every unit is filed and waits; one of a unit that is not enabled completes at filing, status
INVALID_FIELD, reason 4 in byte 6, under stamp 1. -/
theorem test_filing : (after (.flush 1 .host (cmdHdr 15 7 0)) linked).stampNext = linked.stampNext + 1 ∧
    (after (.flush 1 .host (cmdHdr 15 7 0)) linked).link.out0 = [] ∧
    (after (.flush 1 .host (cmdHdr 0 7 0)) linked).link.out0 = [.resp 0 7 16 false 0x604 1] := by decide

/-- Processor 2's bank with a FLUSH of every unit to submit in queue 1, whose SOURCE is local. -/
def submitting : State :=
  let s := up.setObjN Obj.QUEUE_CFG 0x00080019 1
  { s with procs := [(2, { lswHdr := cmdHdr 15 0 (2 ^ 48 + 3 * 2 ^ 64) })] }

theorem witness_CommandsAreFiled :
    ((Instr.flush 1 .host (cmdHdr 15 7 0)).submits = some (3, .host, cmdHdr 15 7 0) ∧
      (linked.elapse 1).Reached .host (withOpcode 3 (cmdHdr 15 7 0)) ∧
      (linked.elapse 1).Stamped .host (asPacket 1 0 (withOpcode 3 (cmdHdr 15 7 0))) ∧
      (linked.elapse 1).filing .host (asPacket 1 0 (withOpcode 3 (cmdHdr 15 7 0))) = none) ∧
    ((submitting.elapse 1).WritePasses (.cfg 2) Obj.LSW_GO 1 ∧ (submitting.elapse 1).Reached (.lsw 2) (submitting.proc 2).lswHdr ∧
      (submitting.elapse 1).Stamped (.lsw 2) (submitting.proc 2).lswHdr ∧
      (submitting.elapse 1).filing (.lsw 2) (submitting.proc 2).lswHdr = none ∧ hbits (submitting.proc 2).lswHdr 64 8 = 3) := by
  refine ⟨⟨rfl, reached_host _ _ _ (by decide), ?_⟩, ?_⟩ <;>
    (unfold State.Stamped; try unfold State.WritePasses State.Reaches State.Reached) <;> ((repeat' apply And.intro) <;> decide)

/-- An image whose one profile region, at word 0, holds 1 in every byte. -/
def flatImage : List Byte := List.replicate 64 0 ++ List.replicate 256 1

/-- Eight channels with one die each: one group of profile 1, unit 0 on it with class 3, queue 0 for RASTER commands. -/
def media : State :=
  let s := (List.range 8).foldl (fun (a : State) ch => a.setDieState (16 * ch) 1) { linked with modes := { current := .record } }
  let s := s.setObjN Obj.UNIT_CTRL (1 + 1 * 2 ^ 15 + 3 * 2 ^ 18)
  let s := (s.setObjN Obj.ORBIT_TPROG_C 100000 3).setObjN Obj.ORBIT_WAIT_MAX_NS 10000000
  let s := s.setObjN Obj.QUEUE_CFG 0x00080010
  { s with
    build := .rlk16
    clusters := [(0, { active := some flatImage })]
    chans := (List.range 8).map fun ch => (ch, { st := 3, rate := 4800 })
    dies := (List.range 8).map fun ch => (16 * ch, { identified := true, planes := 4, blocks := 1000, pages := 1000,
                                                     pageBytes := 18592, cellBits := 3, profile := some 0 })
    streams := List.replicate 8 {} }

/-- A STREAM_OPEN of stream 0: one sector for each frame of 1 ms. -/
def openHdr : Header := cmdHdr 0 1 (4096 * 2 ^ 128 + 1000000 * 2 ^ 160)

/-- `media` with stream 0 open for queue 0. -/
def streaming : State :=
  { media with streams := { isOpen := true, completed := true, queue := 0, unit := 0, bytes := 4096, period := 1000000, admitted := 4096, rows := 1,
                            order := 1 } :: List.replicate 7 {} }

theorem witness_ActsAtFiling :
    (∀ x ∈ [(linked, (7 : Nat), cmdHdr 15 1 0), (linked, 0xA, cmdHdr 0 1 0), (linked, 0xB, cmdHdr 0 1 (5 * 2 ^ 96)), (media, 8, openHdr),
        (streaming, 9, cmdHdr 0 1 0)],
      (x.1.elapse 1).Reached .host (withOpcode x.2.1 x.2.2) ∧ (x.1.elapse 1).Stamped .host (asPacket 1 0 (withOpcode x.2.1 x.2.2)) ∧
        (x.1.elapse 1).filing .host (asPacket 1 0 (withOpcode x.2.1 x.2.2)) = none) ∧
    linked.cmds = [] ∧ linked.deferred = [] ∧ linked.modes.current = .openMode ∧ linked.prot.pfail = false ∧
    media.activation = none ∧ media.streams.length = 8 := by
  refine ⟨fun x h => ⟨reached_host _ _ _ ?_, ?_⟩, by decide, by decide, by decide, by decide, by decide, by decide⟩
  · revert x; decide
  · unfold State.Stamped; revert x; decide

/-- R55, R56: the plan admits that stream. -/
theorem witness_ActsAtFiling_plan : ((media.elapse 1).plan media.modes.current ((media.elapse 1).planStreams ++
    [{ s := 0, unit := 0, bytes := 4096, period := 1000000 }])).isRight = true := by decide +kernel

/-- `linked` with a FLUSH outstanding. -/
def outstanding : State := { linked with cmds := [{ hdr := withOpcode 3 (cmdHdr 15 7 0), path := .host, stamp := 5, phase := .started }] }

theorem witness_RefusedAtFiling :
    ((linked.elapse 1).Reached .host (withOpcode 3 (cmdHdr 0 7 0)) ∧
      (linked.elapse 1).Stamped .host (asPacket 1 0 (withOpcode 3 (cmdHdr 0 7 0))) ∧
      (linked.elapse 1).filing .host (asPacket 1 0 (withOpcode 3 (cmdHdr 0 7 0))) = some (16, 0x604)) ∧
    ((outstanding.elapse 1).Reached .host (withOpcode 3 (cmdHdr 15 7 0)) ∧ ∃ c ∈ outstanding.cmds,
      c.queue = hbits (withOpcode 3 (cmdHdr 15 7 0)) 48 6 ∧ c.cid = hbits (withOpcode 3 (cmdHdr 15 7 0)) 32 16) ∧
    (∃ h : Header, hbits h 16 16 ≠ 0) ∧
    (let s : State := { linked with link := { linked.link with held := [0], rx0 := 255 } }
     s.prot.ready = true ∧ s.link.st = 3 ∧ (s.elapse 1).Takes 1 0 none (CmdVia.packet (withOpcode 3 (cmdHdr 0 7 0)) .host) ∧
       s.link.held ≠ []) ∧
    (linkAt 0).link.st = 0 ∧ (linkAt 0).link.heard = false ∧ (linkAt 2).link.st ≠ 3 ∧
    ((linkAt 2).elapse 1).Listens 1 ∧ ((linkAt 2).elapse 1).Framed 1 (CmdVia.packet (withOpcode 3 (cmdHdr 0 7 0)) .host) ∧
    ({ (linkAt 2).elapse 1 with link := { ((linkAt 2).elapse 1).link with st := 3 } } : State).packetFault
      { hdr := asPacket 1 0 (withOpcode 3 (cmdHdr 0 7 0)), lastBytes := 32 } = none := by
  refine ⟨⟨reached_host _ _ _ (by decide), ?_⟩, ⟨reached_host _ _ _ (by decide), by decide⟩, ⟨cmdHdr 0 0 (2 ^ 16), by decide⟩,
    ⟨rfl, rfl, ⟨.inl (by decide), ⟨rfl, by decide, .inr (.inr (by decide))⟩, (fun _ h => by cases h), by decide⟩, by decide⟩, rfl, rfl,
    by decide, .inl (by decide), ⟨rfl, by decide, .inr (.inr (by decide))⟩, by decide⟩
  unfold State.Stamped; decide

/-- Commands that the frame of filing and the link speak of. -/
theorem witness_LinkAndFilingFrame : linked.Inv ∧
    exec (.linkReady 1) linked = .next (after (.linkReady 1) linked) ∧
    exec (.flush 1 .host (cmdHdr 15 7 0)) linked = .next (after (.flush 1 .host (cmdHdr 15 7 0)) linked) ∧
    linked.link.st = 3 ∧ linked.link.rx0 < 256 := ⟨⟨rfl, rfl, rfl, rfl, by decide⟩, rfl, rfl, rfl, by decide⟩

/-! ### Starts and media work -/

/-- A command with an opcode, for unit 0. -/
def cmdOf (op stamp fields : Nat) (phase : CmdPhase := .started) : Cmd :=
  { hdr := withOpcode op (cmdHdr 0 stamp fields), path := .host, stamp, phase }

/-- A FLUSH, an ACTIVATE_MICROCODE, and a WRITE of one sector whose data has come. -/
def flushCmd : Cmd := cmdOf 3 1 0 .waiting
def activateCmd : Cmd := cmdOf 0x2A 2 0 .waiting
def wroteCmd : Cmd := { cmdOf 2 3 (2 ^ 144) with ranges := [0] }

/-- The link up and those commands outstanding. -/
def holding (l : List Cmd) : State := { linked with cmds := l }

/-- R130, R137: a FLUSH with nothing before it starts and, with nothing to flush, completes with OK. -/
theorem test_commandStart : (after (.commandStart 1 1) (holding [flushCmd])).link.out0.length = 1 := by decide +kernel

/-- A WRITE none of whose data has come. -/
def readyless : Cmd := cmdOf 2 3 (2 ^ 144)

/-- A command of each opcode that has the state of a started one stated for it, a READ of a buffer whose COUNT is 255, a RAW_PROGRAM of
page 5 and a FUA WRITE of one sector whose data has come. -/
def waitingCmd (op : Nat) : Cmd := { cmdOf op 1 (2 ^ 144) .waiting with locked := true }
def mapped : State :=
  let s := (media.setObjN Obj.UNIT_CAPACITY 64).setObjN Obj.UNIT_MAP_BASE 0x40000
  s.setObjN Obj.UNIT_WCACHE_LIMIT 65536
def fullCount : State :=
  let s := (mapped.setObjN Obj.POOL_COUNT 2 0).setObjN Obj.POOL_DESC_BASE 0x10000 0
  { s with mem := [(0x10000, 255), (0x10001, 0x98), (0x40004, 9), (0x40007, 0x20)], cmds := [waitingCmd 1]
           versions := [{ id := 0, stamp := 9, unit := 0, granule := 0, handle := 0, wseqs := [], lbas := [] }] }
def rawCmd : Cmd := cmdOf 0x23 1 (5 * 2 ^ 115) .waiting
def fuaCmd : Cmd := { cmdOf 2 3 (2 ^ 144 + 2 ^ 73) with ranges := [0], bufs := [(0, 0)] }

theorem witness_StartRowsComplete :
    (∀ op ∈ [1, 2, 3, 4, 0x20, 0x21, 0x22, 0x23, 0x24, 0x25, 0x26, 0x27, 0x28, 0x29, 0x2A],
      let s := { mapped with cmds := [waitingCmd op] }
      (s.elapse 1).cmd? 1 = some (waitingCmd op) ∧ (s.elapse 1).startable (waitingCmd op) = true) ∧
    (holding [activateCmd]).streamOpen = false ∧ (holding []).Inv ∧
    exec (.commandStart 1 1) (holding []) = .next (after (.commandStart 1 1) (holding [])) ∧
    (((holding [wroteCmd]).elapse 1).cmd? 3 = some wroteCmd ∧ ((holding [wroteCmd]).elapse 1).mayAccept wroteCmd = true) ∧
    (((holding [fuaCmd]).elapse 1).mayAccept fuaCmd = true ∧ fuaCmd.fua = true ∧
      ((holding [fuaCmd]).elapse 1).granules fuaCmd = (0, 0) ∧ (holding []).deferred = []) ∧
    exec (.writeAccept 1 3) (holding []) = .next (after (.writeAccept 1 3) (holding [])) := by
  refine ⟨by decide, by decide, ⟨rfl, rfl, rfl, rfl, by decide⟩, rfl, by decide, by decide, rfl⟩

/-- The further premises of a WRITE, a RAW_PROGRAM below, at and above its block's next page, and a READ. -/
theorem witness_StartRowsComplete_opcodes :
    (let s : State := { mapped with cmds := [waitingCmd 2] }
     let a := s.elapse 1
     let c := waitingCmd 2
     c.drawn = 0 ∧ 0 < a.dataLen c ∧ a.windowsAhead c < a.objN Obj.XRDY_AHEAD ∧
       (∀ w ∈ a.windowKeys c 0 (a.windowLen c 0), a.drawnKey c w = false) ∧
       a.cacheFits c (a.windowKeys c 0 (a.windowLen c 0)).length = true ∧ c.path = .host) ∧
    (mapped.link.st = 3 ∧ ppaPage rawCmd.ppa = 5 ∧ mapped.rawNextOf (ppaBlk rawCmd.ppa) = none ∧
      (mapped.setRawNext (ppaBlk rawCmd.ppa) (some 4)).rawNextOf (ppaBlk rawCmd.ppa) = some 4 ∧
      (mapped.setRawNext (ppaBlk rawCmd.ppa) (some 6)).rawNextOf (ppaBlk rawCmd.ppa) = some 6) ∧
    ((fullCount.elapse 1).startable (waitingCmd 1) = true ∧ (waitingCmd 1).counted = 0 ∧
      ∃ h ∈ (fullCount.elapse 1).readHandles (waitingCmd 1) ((fullCount.elapse 1).resolve (waitingCmd 1)),
        ((fullCount.elapse 1).bufDesc h.2).count = 255) := by
  refine ⟨by decide, by decide, by decide, by decide, (0, 0), by decide, by decide⟩

/-- A command that may not start, for each reason that is stated. -/
theorem witness_StartRowsComplete_not :
    (cmdOf 1 1 0).phase ≠ .waiting ∧ (cmdOf 0xB 1 0 .waiting).opcode ∈ [7, 8, 9, 0xA, 0xB] ∧
    (inMode .park).modes.current = .park ∧ (inMode .park).needsMedia (waitingCmd 0x20) = true ∧ (waitingCmd 1).opcode ≠ 3 ∧
    (({ up with prot := { up.prot with pfail := true } } : State).prot.pfail = true) ∧ activateCmd.opcode = 0x2A ∧
    (holding [readyless]).cmd? 3 = some readyless ∧ ((holding [readyless]).elapse 1).dataWhole readyless = false := by decide

/-- A READ that waits for a reorder slot, and a WRITE that waits for a buffer. -/
def readCmd : Cmd := { cmdOf 1 4 (2 ^ 144) with work := [(0, 0, 0)] }
def bufWaiter (u : BufUser) : BufReq := { requester := 1, user := u, since := 0, limit := some 10 }
def waitingBuf : State := { holding [wroteCmd] with pools := [(1, { waits := [bufWaiter (.write 3 0)] })] }

/-- Pool 1 ready with 4,096 buffers, with the request of a command for one of them. -/
def grantable (c : Cmd) (u : BufUser) : State :=
  let s := (linked.setObjN Obj.POOL_COUNT 4096 1).setObjN Obj.POOL_DESC_BASE 0x10000 1
  { s with cmds := [c], pools := [(1, { ready := true, waits := [{ bufWaiter u with limit := none }] })] }

/-- An open superblock with an accumulator of one plane. -/
def openRow : Row := { wl := 0, present := [0], accP := [(0, [1])] }
def rowOpen : State :=
  let s := media.setObjN Obj.POOL_COUNT 8 4
  { s with sbs := [{ sb := 3, unit := 0, maint := false, group := 0, profile := 1, cls := 3, members := [0],
                      zero := [], row := some openRow, planes := 1 }]
           pools := [(4, { ready := true })] }

theorem witness_WaitRowsComplete :
    ((1, { waits := [bufWaiter (.write 3 0)] }) ∈ waitingBuf.pools ∧ bufWaiter (.write 3 0) ∈ [bufWaiter (.write 3 0)] ∧
      (waitingBuf.elapse 1).userCmd (.write 3 0) = some 3 ∧ (waitingBuf.elapse 1).waitOver (bufWaiter (.write 3 0)) = true ∧
      (waitingBuf.elapse 1).cmd? 3 = some wroteCmd ∧ wroteCmd.isEnded = false) ∧
    (waitingBuf.elapse 0).waitOver (bufWaiter (.write 3 0)) = false ∧
    (∀ x ∈ [(wroteCmd, BufUser.write 3 0), (cmdOf 0x23 3 0, .raw 3 0), (cmdOf 1 3 0, .stage 3 0)],
      let s := grantable x.1 x.2
      let live := (s.pool 1).waits.filter fun v => !((s.elapse 1).waitOver v)
      (s.elapse 1).bufWinner 1 (distinct (live.map fun v => v.requester)) = some 1 ∧
        (live.find? fun v => v.requester == 1) = some { bufWaiter x.2 with limit := none } ∧ s.cmd? 3 = some x.1 ∧
        x.1.isEnded = false ∧ x.1.aborted = false) ∧ 4 < 5 ∧
    ((holding [readCmd]).elapse 1000000).cmd? 4 = some readCmd ∧ readCmd.opcode = 1 ∧ readCmd.isEnded = false ∧ (0, 0, 0) ∈ readCmd.work ∧
    0 + ((holding [readCmd]).elapse 1000000).objN Obj.RO_WAIT_NS ≤ ((holding [readCmd]).elapse 1000000).now ∧
    (holding []).cmd? 4 = none := by
  refine ⟨by decide, by decide, by decide, by decide, by decide, by decide, by decide, by decide, by decide, by decide⟩

theorem witness_WaitRowsComplete_spill :
    (rowOpen.elapse 100000000).openSb? 3 = rowOpen.sbs[0]? ∧ openRow.spilled = [] ∧
    openRow.accAt + (rowOpen.elapse 100000000).objN Obj.PAR_SPILL_NS ≤ (rowOpen.elapse 100000000).now ∧
    (rowOpen.elapse 1).now < openRow.accAt + (rowOpen.elapse 1).objN Obj.PAR_SPILL_NS ∧
    ((rowOpen.elapse 100000000).spillRow 3).2 = true ∧
    (let s : State := { rowOpen with pools := [] }
     ((s.elapse 100000000).spillRow 3).2 = false ∧ (rowOpen.sbs.all fun b => (s.elapse 100000000).accBytes b != 0) = true ∧
       (s.pool 4).waits = []) ∧
    (let s : State := { rowOpen with pools := [(4, { ready := true, waits := [{ requester := 18, user := .spill 3, since := 0, limit := none }] })] }
     (s.elapse 1).bufWinner 4 [18] = some 18 ∧ ((s.elapse 1).spillRow 3).2 = true) := by decide

/-- `media` with a program, an erase and a read of one codeword on dies 0, 16 and 32; the program's status shows it good, the erase's
failed, and the read's codeword has come. -/
def readJob : Job := { id := 7, purpose := .read 4 0, ppa := 0, unit := 0, lba := 0, cls := 3, stamp := 4, arrived := true }
def working : State :=
  { media with
    ops := [{ id := 1, die := 0, kind := .program 3 0 0, started := true, confirmed := true, shownReady := true, status := 0x40 },
            { id := 2, die := 16, kind := .erase [] none, started := true, confirmed := true, shownReady := true, status := 0x41 },
            { id := 3, die := 32, kind := .read [7], started := true }]
    jobs := [readJob], nextOp := 4
    ctxs := [{ seq := 0, ctx := 0, run := 3, op := some 1 },
             { seq := 1, ctx := 0, run := 3, op := some 2
               token := some { pc := 0, stack := [], gp := [], lc0 := 0, lc1 := 0, sts := 0, plane := 0, page := 0, col := 0, kind := 5,
                               rpt := 0 } }] }

/-- A RAW_PROGRAM's page at work on die 0. -/
def rawWorking : State :=
  { media with
    cmds := [cmdOf 0x23 9 0]
    ops := [{ id := 1, die := 0, kind := .rawProgram 9, started := true, confirmed := true, shownReady := true, status := 0x40 }] }

/-- A comet stream that runs ahead in REVIEW, over a unit of 64 sectors whose granule 1 has no entry, and one whose granule 1 is in an
OPEN block of die 0. -/
def cometStream : CometStream := { id := 2, unit := 0, next := 0, hits := 1, lastUse := 0, queue := 0, ahead := 1, running := true }
def cometOn : State :=
  let s := mapped.setObjN Obj.COMET_CTRL 0x11
  { s with modes := { current := .review }, comet := [cometStream] }
def cometMedia : State :=
  let s := (cometOn.setObjN Obj.LEDGER_PLANES 1).setObjN Obj.LEDGER_BLOCKS 4
  { s with mem := [(0, 3), (0x4000F, 0x10)] }

theorem witness_MediaStatusCompletes :
    (let ends (die : DieNo) (good : Bool) (o : DieOp) : Bool := o.die == die && o.started && !o.suspended && !o.resetting && o.confirmed
       && o.shownReady && tbit o.status.toNat 0 == !good
     (working.ops.find? fun o => ends 0 true o && o.kind.programs) = working.ops[0]? ∧
     (working.ops.find? fun o => ends 16 false o && o.kind.erases) = working.ops[1]? ∧
     (working.ctxOf 0).map (fun c => (c.op, c.token.isNone)) = some (some 1, true) ∧
     (working.ctxOf 16).map (fun c => (c.op, c.token.isSome)) = some (some 2, true) ∧
     (rawWorking.ops.find? fun o => ends 0 true o && o.kind.programs) = rawWorking.ops[0]?) ∧
    (∀ o ∈ working.ops, o.die = 32 → o.confirmed = false) ∧
    (working.job? 7 = some readJob ∧ readJob.softStep = 0 ∧ working.givenUp readJob = true ∧ working.job? 8 = none ∧
      ({ readJob with purpose := .raw 4 0 } : Job).isPage = true) ∧
    ((cometOn.elapse 1).comet.find? (fun y => y.id == 2) = some cometStream ∧ tbit (cometOn.elapse 1).cometCtrl 0 = true ∧
      (cometOn.elapse 1).unitEnabled 0 = true ∧ cometOn.prot.pfail = false ∧ (cometOn.elapse 1).exclusiveAtWork = false ∧
      1 * (cometOn.elapse 1).unitSectors 0 < (cometOn.elapse 1).objN Obj.UNIT_CAPACITY 0 0 ∧
      (cometOn.elapse 1).cometBytes 2 + 4096 * (cometOn.elapse 1).unitSectors 0 ≤ (cometOn.elapse 1).cometDepth ∧
      entryState ((cometOn.elapse 1).mapEntry 0 1) ≠ 1) ∧
    (let e := (cometMedia.elapse 1).mapEntry 0 1
     entryState e = 1 ∧ (cometMedia.elapse 1).mediaGood 0 e = true ∧ (cometMedia.elapse 1).diePresent (ppaDie (entryLoc e)) = true ∧
       cometMedia.cometHeld = [] ∧
       ((cometMedia.elapse 1).cometSpace 0 ((cometMedia.elapse 1).unitSectors 0) (dieCluster (ppaDie (entryLoc e)))).isSome = true) ∧
    tbit ((cometOn.setObjN Obj.COMET_CTRL 0).elapse 1).cometCtrl 0 = false := by
  decide

/-- Of any payload, one of two places randomizes the pad bit of its metadata to 0. -/
theorem pad_clear (x : List Byte) (hx : x.length = 4112) : ∃ ppa ∈ [0, 2 ^ 19], metaPadBit (payloadMeta (randomize ppa x)) = false := by
  have h : ∀ ppa, metaPadBit (payloadMeta (randomize ppa x))
      = tbit (byteAt x 4101 ^^^ BitVec.ofNat 8 (lfsrByte (Laws.lfsrAt 4101 (seedOf ppa))).1).toNat 5 := fun ppa => by
    rw [metaPadBit, payloadMeta, Laws.tbit_leAt _ _ _ _ (by decide), randomize, Laws.byteAt_whiten _ _ _ (by omega)]
  have h0 : BitVec.ofNat 8 (lfsrByte (Laws.lfsrAt 4101 (seedOf 0))).1 = 0x1C := by decide +kernel
  have h1 : BitVec.ofNat 8 (lfsrByte (Laws.lfsrAt 4101 (seedOf (2 ^ 19)))).1 = 0xF8 := by decide +kernel
  have hk : ∀ b : Byte, tbit (b ^^^ 0x1C).toNat 5 = false ∨ tbit (b ^^^ 0xF8).toNat 5 = false := by decide
  rcases hk (byteAt x 4101) with hb | hb
  · exact ⟨0, by simp, by rw [h, h0, hb]⟩
  · exact ⟨2 ^ 19, by simp, by rw [h, h1, hb]⟩

/-- A codeword that decodes, whatever the decoder answers: of a code without rows, for a job whose metadata are those of its payload. -/
theorem witness_MediaStatusCompletes_decoded :
    ∃ j : Job, let s : State := { media with jobs := [j], codes := [(0, [])] }
      let p := padTo 4112 (randomize j.ppa (padTo 4112 ((s.elapse 1).decodeJob j).payload))
      s.job? 7 = some j ∧ j.arrived = true ∧ j.softStep = 0 ∧ ((s.elapse 1).decodeJob j).satisfied = true ∧
        (s.elapse 1).metaOk j p = true ∧ ∃ st rel, j.purpose = .read st rel := by
  let x := padTo 4112 (decodeData [] ((media.elapse 1).objN Obj.LLR_MAG 0) 0 []).payload
  have hx : x.length = 4112 := by simp only [x, padTo, List.length_append, List.length_take, List.length_replicate]; omega
  obtain ⟨ppa, hp, hc⟩ := pad_clear x hx
  let m := payloadMeta (randomize ppa x)
  let j : Job := { readJob with ppa, unit := metaUnit m, lba := metaLba m }
  have hj : ({ media with jobs := [j], codes := [(0, [])] }.elapse 1 : State).decodeJob j
      = decodeData [] ((media.elapse 1).objN Obj.LLR_MAG 0) 0 [] := by
    have hc : ppaCode ppa = 0 := by
      have : ppa = 0 ∨ ppa = 2 ^ 19 := by simpa using hp
      rcases this with rfl | rfl <;> decide
    show decodeData (State.codeDesc _ (ppaCode ppa)) (State.objN _ Obj.LLR_MAG (ppaCode ppa)) j.softStep [] = _
    rw [hc]
    have e : ∀ (d : List Byte) (n k : Nat), d = [] → n = (media.elapse 1).objN Obj.LLR_MAG 0 → k = 0 → decodeData d n k [] =
        decodeData [] ((media.elapse 1).objN Obj.LLR_MAG 0) 0 [] := fun _ _ _ h1 h2 h3 => by rw [h1, h2, h3]
    have g : ∀ s t : State, s.dict = t.dict → s.objN Obj.LLR_MAG 0 = t.objN Obj.LLR_MAG 0 := fun s t h => by
      simp only [State.objN, State.obj, h]
    have k : ∀ (s : State) l c, (State.elapse { s with jobs := l, codes := c } 1).dict = (s.elapse 1).dict := fun _ _ _ => rfl
    exact e _ _ _ rfl (g _ _ (k ..)) rfl
  have hr : padTo 4112 (randomize ppa x) = randomize ppa x := by
    have := Laws.padTo_length (randomize ppa x)
    rwa [randomize, Laws.length_whiten, hx] at this
  refine ⟨j, rfl, rfl, rfl, ?_, ?_, 4, 0, rfl⟩
  · rw [hj]
    have hz : ∀ w, syndromeWeight [] w = 0 := fun _ => rfl
    show (syndromeWeight [] _ == 0) = true
    rw [hz]; rfl
  show State.metaOk _ j (padTo 4112 (randomize ppa (padTo 4112 (State.decodeJob _ j).payload))) = true
  rw [hj, hr]
  simp [State.metaOk, j, readJob, m, hc]

/-- R246 to R249: the stream stops at the granule whose entry is not MEDIA. -/
theorem test_cometRead : (after (.cometRead 1 2) cometOn).comet.map (fun x => x.stopped) = [some 1] := by decide +kernel

/-! ### Placement -/

/-- A ledger of one plane of four blocks for each die, block 0 of die 0 FREE_UNCHECKED, and superblock 1 RELEASED. -/
def ledgered : State :=
  let s := (media.setObjN Obj.LEDGER_PLANES 1).setObjN Obj.LEDGER_BLOCKS 4
  let s := (s.setObjN Obj.SB_BASE 0x10000).setObjN Obj.SB_COUNT 4
  let s := (s.setObjN Obj.ALLOC_CTRL 7).setObjN Obj.MAP_PERSISTED_SEQ 1
  { s with mem := [(0, 1), (0x10000 + 576, 4)], modes := {}, running := true }

theorem witness_PlacementRegistersComplete : ledgered.Inv ∧
    (ledgered.elapse 1).WritePasses (.cfg 0) Obj.BLOCK_RETIRE 0 ∧ (ledgered.elapse 1).mayChange 0 = true ∧
    (up.elapse 1).WritePasses (.cfg 0) Obj.BLOCK_RETIRE 0 ∧ (up.elapse 1).mayChange 0 = false ∧
    (ledgered.elapse 1).WritePasses (.cfg 0) Obj.BLOCK_CLASS_SET 0 ∧ (ledgered.elapse 1).dieRuns 0 (ppaClass 0) = true ∧
    ((ledgered.elapse 1).ledger (ppaBlk 0)).cls = 0 ∧
    (ledgered.elapse 1).WritePasses (.cfg 0) Obj.MAP_UNDERLAY 5 ∧ (ledgered.elapse 1).ReadPasses (.cfg 0) Obj.MAP_SAFE_SEQ := by
  unfold State.WritePasses State.ReadPasses State.Reaches
  refine ⟨⟨rfl, rfl, rfl, rfl, by decide⟩, ?_⟩
  (repeat' apply And.intro) <;> decide

/-- R195: BLOCK_RETIRE leaves the block RETIRED, and is refused for one that is not free. -/
theorem test_blockRetire : ((after (.blockRetire 1 (.cfg 0) 0) ledgered).ledger { die := 0, plane := 0, block := 0 }).state = lsRetired ∧
    (after (.blockRetire 1 (.cfg 0) 0) up).cfg.code = rcRange := by decide +kernel

/-- `ledgered` with block 2 of die 0 CLOSED as the member of RELEASED superblock 1. -/
def released : State :=
  { ledgered with mem := [(0, 1), (64, 4), (92, 1), (0x10000 + 576, 4), (0x10000 + 578, 1), (0x10000 + 640, 2)] }

/-- A ledger of one block of class 3 on each plane, FREE_READY, and the request of a slot, or of a rescue unit. -/
def slotReq : AllocReq := { prio := 1, unit := 0, maint := false, group := some 0 }
def rescueReq : AllocReq := { prio := 0, unit := 0, maint := false, die := 0 }
def freeLedger (r : AllocReq) : State :=
  let s := (media.setObjN Obj.LEDGER_PLANES 4).setObjN Obj.LEDGER_BLOCKS 1
  let s := (s.setObjN Obj.SB_BASE 0x100000).setObjN Obj.SB_COUNT 4
  { s with mem := ((List.range 8).map fun d => (List.range 4).map fun p => [(32 * (64 * d + p), 2), (32 * (64 * d + p) + 1, 3)]).flatten.flatten
           running := true, allocReqs := [r] }

theorem witness_AllocatorRowsComplete_requests :
    (freeLedger slotReq).prot.pfail = false ∧ ((freeLedger slotReq).elapse 1).exclusiveAtWork = false ∧ media.allocReqs = [] ∧
    minBy (fun r => r.prio) (freeLedger slotReq).allocReqs = some slotReq ∧
    minBy (fun r => r.prio) (freeLedger rescueReq).allocReqs = some rescueReq ∧
    (let b : State := { (freeLedger slotReq).elapse 1 with allocReqs := [] }
     b.allocAnswer slotReq = some (3, 0, [0, 16, 32, 48, 64, 80, 96, 112], List.replicate 8 (some [0, 0, 0, 0])) ∧
       b.sbFirstFree = some 0) := by decide +kernel

theorem witness_AllocatorRowsComplete : (up.elapse 1).WritePasses (.cfg 0) Obj.ALLOC_CTRL 1 ∧
    tbit ((up.elapse 1).objN Obj.ALLOC_CTRL) 0 = false ∧
    (ledgered.elapse 1).WritePasses (.cfg 0) Obj.ALLOC_CTRL 0 ∧ tbit ((ledgered.elapse 1).objN Obj.ALLOC_CTRL) 0 = true ∧
    ledgered.running = true ∧ ledgered.prot.pfail = false ∧
    (ledgered.elapse 1).mayBgCheck { die := 0, plane := 0, block := 0 } = true ∧
    (ledgered.modes.current ≠ .recordBurst ∧ ledgered.exclusiveRuns = false ∧ 1 < (ledgered.elapse 1).objN Obj.SB_COUNT ∧
      tbit ((ledgered.elapse 1).objN Obj.ALLOC_CTRL) 1 = true ∧ (ledgered.elapse 1).sbState 1 = sbReleased ∧
      (ledgered.elapse 1).sbReleaseSeq 1 < (ledgered.elapse 1).objN Obj.MAP_PERSISTED_SEQ) ∧
    ((ledgered.elapse 1).sbState 2 ≠ sbReleased ∧ (ledgered.elapse 1).objN Obj.SB_COUNT ≤ 4) ∧
    ({ up with walking := true } : State).walking = true ∧
    up.walking = false ∧ up.running = false ∧ (media.elapse 1).diePresent 0 = true ∧ (media.elapse 1).diePresent 1 = false ∧
    ({ up with stallFrom := some 0, lostDies := [(3, 0, 0)] } : State).stallFrom = some 0 ∧ up.stallFrom = none := by
  unfold State.WritePasses State.Reaches; (repeat' apply And.intro) <;> decide

/-- A block of the RELEASED superblock that is to be erased, on a die whose token is free; and both sides of the blank limit. -/
theorem witness_AllocatorRowsComplete_erase :
    ({ die := 0, plane := 0, block := 2 } : BlockAddr) ∈ (released.elapse 1).sbBlocks 1 ∧ (released.elapse 1).sbState 1 = sbReleased ∧
    ((released.elapse 1).ledger { die := 0, plane := 0, block := 2 }).state = lsClosed ∧
    (released.elapse 1).blockLocked { die := 0, plane := 0, block := 2 } = false ∧ (released.elapse 1).mayBgErase 0 = true ∧
    (ledgered.elapse 1).objN Obj.BLANK_ZERO_LIMIT < 2 ^ 32 - 1 := by decide

/-- R196: ADMISSION_RESUME ends a stall. -/
theorem test_admissionResume : (after (.admissionResume 1) { up with stallFrom := some 0, lostDies := [(3, 0, 0)] }).stallFrom = none := by
  decide +kernel

/-! ### Images -/

/-- The number that values at byte offsets spell. -/
def placesNum (l : List (Nat × Nat)) : Nat := l.foldl (fun n x => n + x.2 * 256 ^ x.1) 0

/-- A code of three rows over 43 information columns each, and each row's own parity column (R278, R279): Z = 256, MB = 3, NB = 132,
128 shortened and no punctured bits, 4,208 stored bytes; its CRC at byte 60. -/
def smallEntries : List Nat :=
  ((List.range 3).map fun r => ((List.range 43).map fun c => r + (43 * r + c) * 2 ^ 9) ++ [r + (129 + r) * 2 ^ 9]).flatten
def smallNum : Nat := placesNum
  ([(0, 0x43444C52), (4, 1), (8, 256), (10, 3), (12, 132), (14, 132), (16, 128), (24, 4208), (26, 4), (28, 10), (29, 10), (60, 2907606681)]
    ++ smallEntries.zipIdx.map fun x => (64 + 4 * x.2, x.1))
def smallDesc : List Byte := leBytes 592 smallNum

theorem smallDesc_at : leAt smallDesc = fun o k => smallNum % 256 ^ 592 / 256 ^ o % 256 ^ k := by
  funext o k; exact Laws.leAt_leBytes ..

/-- R281: that descriptor passes every check. -/
theorem smallDesc_passes : descCheck smallDesc false = 0 := by
  have hs : crc32c (smallDesc.take 60 ++ (smallDesc.drop 64).take (4 * 132)) = 2907606681 := by
    have : smallDesc.take 60 ++ (smallDesc.drop 64).take (4 * 132) = leBytes 588 (smallNum % 256 ^ 60 + smallNum / 256 ^ 64 * 256 ^ 60) := by
      rw [smallDesc, Laws.take_leBytes _ _ _ (by decide), Laws.drop_leBytes _ _ _ (by decide), Laws.take_leBytes _ _ _ (by decide)]
      decide +kernel
    rw [this, Laws.crc_leBytes]
    decide +kernel
  have he : descEntries smallDesc = 132 := by rw [descEntries, smallDesc_at]; decide +kernel
  unfold descCheck
  rw [he, hs]
  unfold descZ descMB descNB descWords descShorten descPuncture descPerPage descHardIter descSoftIter descStored
  rw [he, smallDesc_at, smallDesc, Laws.length_leBytes]
  decide +kernel

/-- A microcode image of one profile, which the generic dispatch shares, and one code word, that of zeros (R395 to R400). -/
def codeNum : Nat := placesNum
  ([(0, 0x54535246), (4, 1), (8, 1), (12, 1120), (16, 65), (18, 1), (24, 0x10000), (60, 3773677371)]
    ++ [(2, 1), (4, 100), (16, 8), (32, 1), (36, 1), (80, 1), (84, 1), (103, 1), (132, 1), (133, 1), (134, 8)].map (fun x => (80 + x.1, x.2))
    ++ (List.range 5).map (fun c => (80 + 40 + 4 * c, 1)) ++ (List.range 5).map (fun c => (80 + 60 + 4 * c, 1))
    ++ (List.range 32).map (fun k => (80 + 136 + 2 * k,
        if [0, 1, 2, 3, 4, 5, 6, 7, 8, 9, 10, 14, 16, 21, 23, 24, 26, 27].contains k then 64 else 0xFFFF))
    ++ (List.range 16).map (fun i => (80 + 200 + 4 * i, 0xFF)))
def codeImage : List Byte := leBytes 1120 codeNum

theorem codeImage_at : leAt codeImage = fun o k => codeNum % 256 ^ 1120 / 256 ^ o % 256 ^ k := by
  funext o k; exact Laws.leAt_leBytes ..


/-- R400: that image passes every check. -/
theorem codeImage_passes : imageCheck 0x10300 codeImage = (1, 0) := by
  have hs : crc32c (codeImage.take 60 ++ codeImage.drop 64) = 3773677371 := by
    have : codeImage.take 60 ++ codeImage.drop 64 = leBytes 1116 (codeNum % 256 ^ 60 + codeNum / 256 ^ 64 * 256 ^ 60) := by
      rw [codeImage, Laws.take_leBytes _ _ _ (by decide), Laws.drop_leBytes _ _ _ (by decide)]
      decide +kernel
    rw [this, Laws.crc_leBytes]
    decide +kernel
  have hw : ((List.range 65).find? fun i => imgIsCode codeImage i && !(codeWordOk codeImage i)) = none := by
    unfold codeWordOk imgIsCode imgRegions imgWord imgWords imgProfiles imgGeneric imageCode
    rw [codeImage_at]
    decide +kernel
  have hp : profOk codeImage 0 = true := by
    unfold profOk profFields timeOk zerosAt profAddrsOk profHas profDispatch imgIsCode imgRegions imgWords imgProfiles imgGeneric profileField
      imageCode
    rw [codeImage_at]
    decide +kernel
  have hg : genericOk codeImage = true := by
    unfold genericOk profFields timeOk zerosAt profAddrsOk profHas profDispatch imgIsCode imgRegions imgWords imgProfiles imgGeneric profileField imageCode
    rw [codeImage_at]
    decide +kernel
  have hr : imgRegionsOk codeImage = true := by
    unfold imgRegionsOk imgRegions imgWords imgProfiles imgGeneric
    rw [codeImage_at]
    decide +kernel
  have hn : imgProfiles codeImage = 1 ∧ imgWords codeImage = 65 ∧ imageVer codeImage = 1 ∧ leAt codeImage 76 2 = 0 := by
    unfold imgProfiles imgWords imageVer
    rw [codeImage_at]
    decide +kernel
  have hb : ((List.range 1).find? fun i => !(profOk codeImage (leAt codeImage (64 + 16 * i + 12) 2))) = none := by
    rw [List.find?_eq_none]
    intro i hi
    rw [List.mem_range, Nat.lt_one_iff] at hi
    rw [hi, hn.2.2.2, hp]
    decide
  unfold imageCheck
  rw [hs, hr, hg, hn.1, hn.2.1, hn.2.2.1, hw, hb, codeImage_at, codeImage, Laws.length_leBytes]
  decide +kernel

/-! ### Channels -/

/-- Microcode in cluster 0 and no unit enabled. -/
def bare : State := { up with clusters := [(0, { active := some flatImage })] }

/-- Channel 0 in its enumeration. -/
def enumerating : State := { bare with chans := [(0, { st := 1 })] }

/-- Channel 0 in its enumeration, under an image with one profile for any die, which declares NV-DDR2. -/
def matched : State :=
  { enumerating with
    clusters := [(0, { active := some (List.replicate 18 0 ++ [1] ++ List.replicate 61 0 ++ List.replicate 256 2) })] }

/-- What slot `k` reports of a sound die that is trained, and of one that is not yet. -/
def soundDie (k : Nat) : DieReport := { slot := k, idBytes := 5, uid := 5 }
def untrained (k : Nat) : DieReport := { soundDie k with trained := none }

/-- R232, R233: a sound die passes every check, and makes the channel TRAINING while it is not trained; a slot that reports nothing fails
check 1, and the channel is then EMPTY where all do; two of one unique ID fail check 7. -/
theorem test_enumDone : (matched.judge 0 ((List.range 16).map (reportOf [soundDie 0]))).map (fun x => x.2.1) = 0 :: List.replicate 15 1 ∧
    ((after (.enumDone 1 0 [untrained 0]) matched).chan 0).st = 2 ∧ ((after (.enumDone 1 0 []) matched).chan 0).st = 6 ∧
    (matched.checkDie 0 [soundDie 0, soundDie 1] (soundDie 1)).1 = 7 ∧ (matched.checkDie 0 [] (reportOf [] 3)).1 = 1 := by
  decide +kernel

theorem witness_EnumerationRowsComplete :
    ((bare.elapse 1).WritePasses (.cfg 0) Obj.CH_CTRL 1 0 0 ∧ (bare.chan 0).st = 0 ∧ (bare.elapse 1).activeImage 0 ≠ [] ∧
      (bare.elapse 1).enabledUnits = []) ∧
    ((up.elapse 1).WritePasses (.cfg 0) Obj.CH_CTRL 1 0 63 ∧ (up.elapse 1).activeImage (63 / 8) = []) ∧
    ((matched.chan 0).st = 1 ∧ (∀ o ∈ matched.ops, dieChannel o.die = 0 → o.started = false) ∧
      (∃ x ∈ (matched.elapse 1).judge 0 ((List.range 16).map (reportOf [untrained 0])), x.2.1 = 0 ∧ x.1.trained = none) ∧
      (∃ x ∈ (matched.elapse 1).judge 0 ((List.range 16).map (reportOf [soundDie 0])), x.2.1 = 0) ∧
      (∀ x ∈ (matched.elapse 1).judge 0 ((List.range 16).map (reportOf [soundDie 0])), x.2.1 = 0 → x.1.trained ≠ none) ∧
      (∀ x ∈ (matched.elapse 1).judge 0 ((List.range 16).map (reportOf [])), x.2.1 ≠ 0)) ∧
    ((bare.chan 0).st ≠ 1 ∧ (bare.chan 0).st ≠ 2) ∧ (media.elapse 1).diePresent (16 * 0 + 0) = true ∧
    ((List.range 16).filter fun k => tbit (Obj.CH_DIE_FAIL.keep 0x8000) k) = [15] ∧
    (bare.elapse 1).WritePasses (.cfg 0) Obj.CH_CTRL 2 0 0 ∧ (bare.elapse 1).WritePasses (.cfg 0) Obj.CH_DIE_FAIL 0xFFFF 0 63 ∧
    ((soundDie 0).slot ≠ (soundDie 15).slot ∧ goodUid (soundDie 0) = goodUid (soundDie 15) ∧ earlyCheck (soundDie 0) = 0 ∧
      earlyCheck (soundDie 15) = 0) ∧
    bare.duplicateUid 0 [soundDie 0] (soundDie 0) = false ∧ imageProfile (up.activeImage 0) 5 = none := by
  unfold State.WritePasses State.Reaches; (repeat' apply And.intro) <;> decide

/-- The dies of `working` in OPEN: a program and an erase due for their polls, after two and one bad status reads, an erase that is
suspended, a die being reset with nothing cut off, and one that a reset has cut off a read of. -/
def polling : State :=
  { working with
    modes := {}
    ops := [{ id := 1, die := 0, kind := .program 3 0 0, started := true, confirmed := true, pollDue := true, badReads := 2 },
            { id := 2, die := 16, kind := .erase [] none, started := true, confirmed := true, suspended := true, suspendedAt := 0 },
            { id := 3, die := 48, kind := .read [7], started := true, resetting := true },
            { id := 4, die := 64, kind := .erase [] none, started := true, confirmed := true, pollDue := true, badReads := 1 }]
    dies := mapPut (mapPut working.dies 32 { working.die 32 with resetting := true }) 48 { working.die 48 with resetting := true } }

theorem witness_OperationRowsComplete :
    ((polling.elapse 1).busyOp 0 = polling.ops[0]? ∧ (polling.ops[0]?.map fun o => (polling.elapse 1).pollIsDue o) = some true) ∧
    ((working.elapse 1).busyOp 0 = working.ops[0]? ∧ (working.ops[0]?.map fun o => (working.elapse 1).pollIsDue o) = some false) ∧
    (polling.ops[0]?.map fun o => (o.shownReady || o.resetting, o.confirmed, o.badReads,
        (polling.elapse 1).badStatus o 0x40, (polling.elapse 1).badStatus o 0xC0, (polling.elapse 1).badStatus o 0))
      = some (false, true, 2, false, false, true) ∧
    ((polling.elapse 1).busyOp 64 = polling.ops[3]? ∧
      (polling.ops[3]?.map fun o => (o.resetting, (polling.elapse 1).pollIsDue o, o.badReads, (polling.elapse 1).badStatus o 0))
        = some (false, true, 1, true)) ∧
    (polling.busyOp 48).map (fun o => o.resetting) = some true ∧ polling.busyOp 80 = none ∧
    (polling.ops[0]?.map fun o => decide ((polling.elapse 1).now < o.startedAt + (polling.elapse 1).opLimit o)) = some true ∧
    ((polling.ops[0]?.map fun o => decide (o.startedAt + (polling.elapse 100000000).opLimit o ≤ (polling.elapse 100000000).now)) = some true) ∧
    ((polling.die 32).resetting = true ∧ (polling.elapse 1).diePresent 32 = true ∧
      (((polling.die 32).resetTimes ++ [(polling.elapse 1).now]).filter fun t =>
        decide ((polling.elapse 1).now < t + 10000000000)).length < 3 ∧
      polling.obj Obj.DIE_ID (dieSlot 32) (dieChannel 32) = 0 ∧ (polling.die 32).uid = 0 ∧
      (∀ o ∈ polling.ops, o.die = 32 → o.resetting = false)) ∧
    ((polling.die 48).resetting = true ∧ (polling.ops.filter fun x => x.die == 48 && x.resetting) = (polling.ops.drop 2).take 1 ∧
      ((polling.ops.drop 2).take 1).map (fun o => (o.kind.reads, o.retried)) = [(true, false)]) ∧ (polling.die 0).resetting = false ∧
    ((polling.ops.find? fun o => o.die == 16 && o.suspended) = polling.ops[1]? ∧
      (polling.ops[1]?.map fun o => (polling.elapse 100000000).suspOver o) = some true ∧ (polling.elapse 100000000).busyOp 16 = none) := by
  (repeat' apply And.intro) <;> decide

/-- Channels 0 and 9, which has no dies, recovering from a PHY fault, and channel 8, which was never enumerated. -/
def recovering : State :=
  { media with chans := [(0, { st := 4, rate := 4800, enumerated := true }), (8, { st := 4 }), (9, { st := 4, enumerated := true })] }

/-- `media` with an ID check each second. -/
def checking : State := media.setObjN Obj.CH_ID_CHECK_S 1

theorem witness_ChannelFaultRowsComplete :
    (let taken (s : State) (cause : Nat) : Bool :=
        (cause == 1 && (s.chan 0).st == 3) || (2 ≤ cause && cause ≤ 5 && (s.chan 0).st != 4 && (s.chan 0).st != 5)
     taken media 1 = true ∧ taken up 2 = true ∧ taken up 5 = true ∧ taken up 1 = false ∧ taken recovering 2 = false ∧
       taken media 6 = false) ∧
    (up.chan 0).st ≠ 4 ∧ (recovering.chan 0).st = 4 ∧ (recovering.chan 8).enumerated = false ∧ (recovering.chan 9).enumerated = true ∧
    (recovering.elapse 1).channelDies 9 = [] ∧ (∀ d ∈ (recovering.elapse 1).channelDies 0, (recovering.die d).resetting = false) ∧
    (recovering.elapse 1).now < (recovering.chan 0).recoverAt + (recovering.elapse 1).objN Obj.CH_RECOVER_NS 0 0 ∧
    (recovering.chan 0).recoverAt + (recovering.elapse 100000000).objN Obj.CH_RECOVER_NS 0 0 ≤ (recovering.elapse 100000000).now ∧
    ((checking.elapse 100000000).dieFree 0 = true ∧ (checking.elapse 100000000).objN Obj.CH_ID_CHECK_S = 1 ∧
      (checking.die 0).idCheckAt + 1000000000 * 1 ≤ (checking.elapse 100000000).now) ∧
    (checking.elapse 99999999).now < (checking.die 0).idCheckAt + 1000000000 * 1 ∧
    ¬(media.obj Obj.DIE_ID 0 0 = 1 ∧ (media.die 0).uid = 0) ∧ (media.obj Obj.DIE_ID 0 0 = 0 ∧ (media.die 0).uid = 0) := by
  (repeat' apply And.intro) <;> decide

/-- R263: LOCKED falling takes an UP channel into RECOVERING, and no other. -/
theorem test_phyFault : ((after (.phyFault 1 0 1 4) media).chan 0).st = 4 ∧ ((after (.phyFault 1 0 1 4) up).chan 0).st = 0 := by
  decide +kernel

/-- Channel 63 with its bank armed. -/
def armedBank : State := up.setObjN Obj.MB_CTRL 1 0 63

theorem witness_MoonBankRowsComplete :
    (up.elapse 1).WritePasses (.cfg 0) Obj.MB_CTRL 1 0 63 ∧ (up.elapse 1).WritePasses (.cfg 0) Obj.MB_CTRL 4 0 0 ∧
    (∀ x ∈ up.cal, x.2.hold = none) ∧ (∀ x ∈ up.chans, x.2.trimHold = none) ∧
    (up.elapse 1).WritePasses (.cfg 0) Obj.MB_DQ_TRIM 9 15 63 ∧ (up.elapse 1).WritePasses (.cfg 0) Obj.MB_STROBE_TRIM 9 0 0 ∧
    (up.elapse 1).WritePasses (.cfg 0) Obj.MB_RL_GEN 0 15 63 ∧ (up.elapse 1).objN Obj.MB_RL_GEN 15 63 = 0 ∧
    (up.elapse 1).WritePasses (.cfg 0) Obj.MB_RL_GEN 1 15 63 ∧
    (63 < armedBank.build.channels ∧ (armedBank.elapse 1).mayHandOver 63 = true) ∧ tbit ((up.elapse 1).objN Obj.MB_CTRL 0 0) 0 = false ∧
    ({ armedBank with chans := [(63, { shadowLate := true })] } : State).chan 63 = { shadowLate := true } ∧
    (let c : Chan := { st := 3, busOwner := some 0 }; c.st ∉ [0, 4, 5, 6] ∧ c.busOwner ≠ none) ∧
    (∀ x ∈ armedBank.cal, x.2.hold = none ∧ x.2.switchPending = false) ∧
    (∀ x ∈ armedBank.chans, x.2.trimHold = none ∧ x.2.trimPending = false) := by
  unfold State.WritePasses State.Reaches; (repeat' apply And.intro) <;> decide

/-- R256: the hand-over clears ARM and counts. -/
theorem test_handover : (after (.mbHandover 1 63) armedBank).objN Obj.MB_CTRL 0 63 = 0 ∧
    (after (.mbHandover 1 63) armedBank).objN Obj.MB_GENERATION 0 63 = 1 := by decide +kernel

/-! ### Calibration -/

/-- Die 0 triggered for read levels and channel 0 for trims, with every trigger enabled and a period of one second. -/
def triggered : State :=
  let s := (media.setObjN Obj.CAL_CTRL 0xF).setObjN Obj.CAL_PERIOD_S 1
  { s with cal := [(0, { trigRl := true })], chans := mapPut s.chans 0 { s.chan 0 with trigTrim := true }, modes := {} }

/-- Results of die 0, and of channel 1's trims, that wait from time 0. -/
def heldResults : State :=
  { media with cal := [(0, { hold := some 0 })], chans := mapPut media.chans 1 { media.chan 1 with trimHold := some 0 } }

/-- Ten lanes of slot 0 with an eye of 30 steps and no errors. -/
def goodEyes : List EyeWord := (List.range 10).map fun l => { slot := 0, lane := l, left := -10, right := 19, errors := 0, samples := 1 }

/-- `triggered` with a calibration table and a bucket of 64 codewords of die 0, and what a run measures that moves its level and verifies. -/
def measured : State :=
  { triggered.setObjN Obj.CAL_TABLE_BASE 0x200000 with
    cal := [(0, { trigRl := true, stats := [{ group := 0, type := 0, n := 64, ones := 64 * 16448, sw := 0, block := 0 }] })] }
def movedLevel : List BucketMeas :=
  [{ group := 0, type := 0, sMinus := 3, sZero := 2, sPlus := 1, verifySum := 0, verifyOnes := 8 * 16448 }]

theorem witness_CalibrationRunsComplete :
    ((media.elapse 100000000).dieFree 0 = true ∧ (media.elapse 100000000).tempDue 0 = true ∧ media.modes.poweredDown = false) ∧
    (media.elapse 1).dieFree 1 = false ∧ (media.elapse 1).tempDue 0 = false ∧ (media.elapse 99999999).tempDue 0 = false ∧
    (media.elapse 1).diePresent 1 = false ∧
    ((triggered.elapse 100000000).diePresent 0 = true ∧ (triggered.elapse 100000000).calCtrl 0 = true ∧
      (triggered.elapse 100000000).calCtrl 3 = true ∧ (triggered.elapse 100000000).objN Obj.CAL_PERIOD_S = 1 ∧
      (triggered.calDie 0).timeLast + 1000000000 * 1 ≤ (triggered.elapse 100000000).now ∧
      (triggered.elapse 99999999).now < (triggered.calDie 0).timeLast + 1000000000 * 1) ∧
    ((triggered.elapse 1).levelsDue 0 = some none ∧ ((triggered.elapse 1).judgeLevels 0 ((triggered.elapse 1).runMoved 0 []) []).1 ≠ 0) ∧
    ((measured.elapse 1).levelsDue 0 = some none ∧
      ((measured.elapse 1).judgeLevels 0 ((measured.elapse 1).runMoved 0 []) movedLevel).1 = 0) ∧
    ((triggered.elapse 1).trimsDue 0 = some none ∧ (triggered.elapse 1).channelDies 0 ≠ [] ∧ (triggered.chan 0).st = 3 ∧
      (∀ d ∈ (triggered.elapse 1).channelDies 0,
        (triggered.elapse 1).runMoved d [] = false ∧ (triggered.elapse 1).slotEyes goodEyes (dieSlot d) ≠ none) ∧
      ∃ d ∈ (triggered.elapse 1).channelDies 0, (triggered.elapse 1).slotEyes [] (dieSlot d) = none) ∧
    (media.elapse 1).levelsDue 0 = none ∧ (media.elapse 1).trimsDue 0 = none ∧
    (heldResults.calSnapFrom = none ∧ (heldResults.calDie 0).hold = some 0 ∧ (heldResults.chan 0).trimHold = none ∧
      0 + 1000000 * (heldResults.elapse 1000000000000).objN Obj.CAL_HOLD_MS ≤ (heldResults.elapse 1000000000000).now ∧
      (heldResults.chan 1).trimHold = some 0 ∧ (heldResults.calDie 16).hold = none) := by
  (repeat' apply And.intro) <;> decide +kernel

/-- R315: a poll takes the temperature. -/
theorem test_tempPoll : ((after (.tempPoll 1 0 40) { media with dies := mapPut media.dies 0 { media.die 0 with mustPoll := true } }).die 0).mustPoll
    = false := by decide +kernel

/-- R325: with every lane passing there are new trims; with lane 9 one step too narrow there are none. -/
theorem test_lanes : (up.slotEyes goodEyes 0).isSome = true ∧
    ((up.setObjN Obj.CAL_EYE_MIN 31).slotEyes goodEyes 0).isSome = false := by decide

/-- A snapshot of no die and no channel for RLK-64, its CRC at byte 60 (R331). -/
def emptySnapshot : List Byte := leBytes 64 (placesNum [(0, 0x534C4143), (4, 1), (6, 64), (12, 64), (60, 1882650751)])

theorem emptySnapshot_passes : (up.setObjN Obj.CAL_TABLE_BASE 4096).restoreCheck emptySnapshot = 1 := by decide +kernel

theorem witness_CalibrationImagesComplete :
    (up.elapse 1).TransferPasses (.cfg 0) Obj.CAL_SNAPSHOT false 1 ∧
    (up.elapse 1).TransferPasses (.cfg 0) Obj.CAL_SNAPSHOT true 1 ∧ (up.elapse 1).restoreCheck [0] ≠ 1 ∧
    ((up.setObjN Obj.CAL_TABLE_BASE 4096).elapse 1).TransferPasses (.cfg 0) Obj.CAL_SNAPSHOT true 64 ∧
    (up.elapse 1).TransferPasses (.cfg 0) Obj.CODE_DESC true 592 3 ∧ tbit ((up.elapse 1).objN Obj.ALLOC_CTRL) 0 = false ∧
    descCheck [0] false ≠ 0 := by
  unfold State.TransferPasses State.Reaches; (repeat' apply And.intro) <;> decide

/-! ### Protection, saves, sanitize and power failure -/

/-- S0 usable, with 64 pages a block in SLC mode, one pool block, level 1, a raw area of blocks 40 to 49 and a boot region of two
blocks in it. -/
def pooled : State :=
  { up with prot := { up.prot with usable0 := true, slc0 := 64, level := 1, rawFirst := 40, rawCount := 10, bootFirst := 42, bootCount := 2,
                                   pool := [{ at_ := { die := 0, plane := 0, block := 1 }, erases := 1, used := 1 }] } }

/-- The block in its pool scan. -/
def scanning : State := { up with phase := .scanning, prot := {} }

/-- A system die that does not answer; and pages of block 1 of S0's pool: page 0 with the block's header, page 1 with a protection record
of level 1, a boot region of blocks 42 and 43 and a raw area of blocks 40 to 49 (R341, R342, R344). -/
def silentDie : DieReport := { slot := 0, responds := false }
def recPage (page kind seq : Nat) (payload : List Byte) : PoolPage :=
  let head := leBytes 4 0x56535052 ++ leBytes 2 1 ++ leBytes 1 kind ++ leBytes 1 0 ++ leBytes 8 seq ++ leBytes 4 payload.length
    ++ List.replicate 40 0
  { sysDie := 0, plane := 0, block := 1, page, bytes := head ++ leBytes 4 (crc32c (head ++ payload)) ++ payload }
def headerPage : PoolPage := recPage 0 0 0 (leBytes 4 1)
def protPage : PoolPage := recPage 1 1 7 ([1, 0, 0, 0] ++ leBytes 2 42 ++ leBytes 2 2 ++ leBytes 2 40 ++ leBytes 2 10 ++ leBytes 4 3)

/-- R344: with no usable die the level is 2; with a usable die and an empty pool it is 0; with headers alone it is 2; a record gives it. -/
theorem test_protReady : (after (.protReady 1 silentDie silentDie [] []) scanning).prot.level = 2 ∧
    (after (.protReady 1 (soundDie 0) silentDie [] []) scanning).prot.level = 0 ∧
    (after (.protReady 1 (soundDie 0) silentDie [] [headerPage]) scanning).prot.level = 2 ∧
    (let p := (after (.protReady 1 (soundDie 0) silentDie [] [headerPage, protPage]) scanning).prot
     (p.level, p.bootFirst, p.rawCount, p.levelChanges, p.recordLost) = (1, 42, 10, 3, false)) := by decide +kernel

theorem witness_PoolScanCompletes : scanning.testMode = false ∧ scanning.phase = .scanning ∧ up.Up ∧
    earlyCheck silentDie ≠ 0 ∧ earlyCheck (soundDie 0) = 0 ∧ scanBlocks (scanPages true false []) = [] ∧
    (let ps := scanPages true false [headerPage]
     scanBlocks ps ≠ [] ∧ ∀ r ∈ scanRecords ps (scanBlocks ps), r.kind ≠ 1) ∧
    (let ps := scanPages true false [headerPage, protPage]
     scanBlocks ps ≠ [] ∧ ((scanRecords ps (scanBlocks ps)).find? fun r => r.kind == 1).isSome = true) := by
  unfold State.Up; (repeat' apply And.intro) <;> decide +kernel

/-- R348, R353: the level rises from 1 to 2; it does not fall; the seal takes 0x5EA1 once. -/
theorem test_protection : (after (.protLevelRaise 1 (.cfg 0) 2) pooled).prot.level = 2 ∧
    (after (.protLevelRaise 1 (.cfg 0) 0) pooled).cfg.code = rcRange ∧ (after (.seal 1 (.cfg 0) 0x5EA1) up).prot.sealed = true ∧
    (after (.seal 1 (.cfg 0) 0x5EA0) up).cfg.code = rcRange := by decide +kernel

/-- The pool takes the records of those writes, and of a save. -/
theorem witness_records : ((pooled.elapse 1).writeProt 2 1 (42, 2) (40, 10)).2 = true ∧
    ((pooled.elapse 1).writeProt 1 0 (40, 10) (40, 10)).2 = true ∧ ((pooled.elapse 1).writeProt 1 0 (42, 2) (33, 11)).2 = true ∧
    ((pooled.elapse 1).writeRecord 2 ((pooled.elapse 1).objN Obj.PSAVE_SLOT) [1]).2 = true := by decide +kernel

theorem witness_ProtectionRowsComplete :
    ((pooled.elapse 1).WritePasses (.cfg 0) Obj.PROT_LEVEL_RAISE 0 ∧ (pooled.elapse 1).WritePasses (.cfg 0) Obj.PROT_LEVEL_RAISE 1 ∧
      (pooled.elapse 1).WritePasses (.cfg 0) Obj.PROT_LEVEL_RAISE 2) ∧ pooled.prot.level = 1 ∧
    pooled.prot.sanRunning = false ∧ pooled.prot.pfail = false ∧
    (let s : State := { pooled with prot := { pooled.prot with pfail := true } }; (s.elapse 1).WritePasses (.cfg 0) Obj.PROT_LEVEL_RAISE 2) ∧
    (up.elapse 1).WritePasses (.cfg 0) Obj.SEAL 0x5EA1 ∧ (up.elapse 1).WritePasses (.cfg 0) Obj.SEAL 0 ∧ up.prot.sealed = false ∧
    (pooled.elapse 1).WritePasses (.cfg 0) Obj.BOOT_REGION (40 * 65536 + 10) ∧
    (pooled.elapse 1).WritePasses (.cfg 0) Obj.BOOT_REGION (41 * 65536 + 10) ∧
    (pooled.elapse 1).WritePasses (.cfg 0) Obj.RAW_AREA (33 * 65536 + 11) ∧
    (pooled.elapse 1).WritePasses (.cfg 0) Obj.RAW_AREA (32 * 65536 + 12) ∧
    tbit ((pooled.elapse 1).objN Obj.ALLOC_CTRL) 0 = false := by
  unfold State.WritePasses State.Reaches; (repeat' apply And.intro) <;> decide

/-- A boot region of two blocks, S0 busy with an operation that no suspension ends, and a fetch that waits for it. -/
def bootOpen : State := { pooled with prot := { pooled.prot with usable1 := true, slc1 := 64 } }
def bootWaits : State :=
  { bootOpen with
    ops := [{ id := 1, die := 0, kind := .erase [] none, started := true }]
    prot := { bootOpen.prot with bwPending := some { addr := 64, page0 := some [], page1 := some [7], which := 0, since := 0 } } }
def bootSecond : State := { bootOpen with prot := { bootOpen.prot with usable0 := false } }
def bootHeld : State := { bootOpen with prot := { bootOpen.prot with bwHeld := [(0, 1, [9])] } }

/-- R358, R359: a fetch in the region comes from S0, and from S1 with FALLBACK when S0's page does not decode; beyond it reads zeros. -/
theorem test_bwFetch : (after (.bwFetch 1 0 (some [5]) none []) bootOpen).prot.bwBeats.head? = some 5 ∧
    (after (.bwFetch 1 0 none (some [6]) []) bootOpen).prot.bwFallback = true ∧
    (after (.bwFetch 1 0 (some [5]) none []) bootHeld).prot.bwBeats.head? = some 9 ∧
    (after (.bwFetch 1 (2 * 64 * 16384) (some [5]) none []) bootOpen).prot.bwBeats.head? = some 0 := by decide +kernel

/-- R529: a fetch taken before PROT_READY waits, and is served when it rises. -/
theorem test_bwFetchEarly : (after (.bwFetch 1 0 (some [5]) none []) State.reset).prot.bwPending.isSome = true ∧
    (after (.protReady 1 (soundDie 0) silentDie [] []) (after (.bwFetch 1 0 (some [5]) none []) scanning)).prot.bwPending = none := by
  decide +kernel

theorem witness_BootWindowRowsComplete :
    (up.elapse 1).WritePasses (.cfg 0) Obj.BW_CTRL 1 ∧ (up.elapse 1).WritePasses (.cfg 0) Obj.BW_CTRL 0 ∧ up.prot.sealed = false ∧
    (({ up with prot := { up.prot with sealed := true } } : State).elapse 1).WritePasses (.cfg 0) Obj.BW_CTRL 1 ∧
    (scanning.testMode = false ∧ scanning.phase = .scanning ∧ scanning.prot.ready = false ∧ scanning.prot.bwOpen = true ∧
      scanning.prot.pfail = false ∧ scanning.prot.bwPending = none) ∧ (64 < (bootWaits.elapse 1).bootBytes) ∧
    (bootOpen.prot.ready = true ∧ bootOpen.prot.bwOpen = true ∧ bootOpen.prot.pfail = false ∧ bootOpen.prot.bwPending = none) ∧
    (2097152 - 64 < (bootOpen.elapse 1).bootBytes ∧ (bootOpen.elapse 1).bootBytes ≤ 2097152) ∧
    ((bootOpen.elapse 1).bootDie 0 = true ∧ (bootOpen.elapse 1).bootBusy 0 = none) ∧
    ((bootOpen.elapse 1).bootDie 1 = true ∧ (bootOpen.elapse 1).bootBusy 1 = none ∧ bootOpen.prot.bwHeld = []) ∧
    ((bootSecond.elapse 1).bootDie 0 = false ∧ (bootSecond.elapse 1).bootDie 1 = true ∧ (bootSecond.elapse 1).bootBusy 1 = none ∧
      0 < (bootSecond.elapse 1).bootBytes) ∧
    ((bootHeld.prot.bwHeld.find? fun x => x.1 == 16383 / 16384) = some (0, 1, [9]) ∧ 16383 / 16384 = 0 ∧
      16383 < (bootHeld.elapse 1).bootBytes) ∧
    (let s : State := { bootWaits with prot := { bootWaits.prot with bwPending := none } }
     (s.elapse 1).bootDie 0 = true ∧ (s.elapse 1).bootBusy 0 ≠ none ∧ s.prot.bwPending = none) ∧ State.reset.phase = .clearing ∧
    ((bootWaits.prot.bwPending.map fun f => (f.which, f.page1)) = some (0, some [7]) ∧ (bootWaits.elapse 1).bootBusy 0 ≠ none ∧
      (bootWaits.elapse 1).bootDie 1 = true ∧ (bootWaits.elapse 1).bootBusy 1 = none ∧
      0 + (bootWaits.elapse 1).profile 0 84 4 ≤ (bootWaits.elapse 1).now) ∧ (64 : Nat) % 64 = 0 ∧ (32 : Nat) % 64 ≠ 0 := by
  unfold State.WritePasses State.Reaches; (repeat' apply And.intro) <;> decide

/-- R345: a save is the latest record of its slot; R354: KEY2 in time arms the path. -/
theorem test_saves : (after (.psaveDataWrite 1 (.cfg 0) [1, 2] true) pooled).prot.psaveResult = 1 ∧
    ((after (.rmpKey2 1 (.cfg 0) 0xB4B3) (after (.rmpKey1 1 (.cfg 0) 0x4B4C) up)).armOf (pathArm (.cfg 0))).armed = some 20 ∧
    (after (.rmpKey2 1 (.cfg 0) 0xB4B3) up).prot.rmpLastErr = 3 := by decide +kernel

/-- KEY1 staged at time 0 by processor 0. -/
def stagedKey : State := { up with prot := { up.prot with arms := [{ path := pathArm (.cfg 0), staged := some 0 }] } }

theorem witness_SavesAndUnlockComplete :
    ((pooled.elapse 1).TransferPasses (.cfg 0) Obj.PSAVE_DATA true 16320 ∧
      (pooled.elapse 1).TransferPasses (.cfg 0) Obj.PSAVE_DATA true 16321) ∧ pooled.prot.noSystemDie = false ∧
    (up.elapse 1).WritePasses (.cfg 0) Obj.RMP_KEY1 0x4B4C ∧ (up.elapse 1).WritePasses (.cfg 0) Obj.RMP_KEY1 0 ∧
    (up.elapse 1).WritePasses (.cfg 0) Obj.RMP_KEY2 0xB4B3 ∧ (up.elapse 1).WritePasses (.cfg 0) Obj.RMP_KEY2 0 ∧ (up.armOf (pathArm (.cfg 0))).staged = none ∧
    (stagedKey.armOf (pathArm (.cfg 0))).staged = some 0 ∧ (stagedKey.elapse 1).WritePasses (.cfg 0) Obj.RMP_KEY2 0xB4B3 ∧
    0 + (stagedKey.elapse 1000000000).objN Obj.RMP_ARM_NS < (stagedKey.elapse 1000000000).now ∧
    (stagedKey.elapse 1).now ≤ 0 + (stagedKey.elapse 1).objN Obj.RMP_ARM_NS := by
  unfold State.TransferPasses State.WritePasses State.Reaches; (repeat' apply And.intro) <;> decide

/-- In SANITIZE at level 1, with one die of one plane of two blocks, PRESENT or lost; a sequence that has begun, with one block left to
clear, and with one that could not be cleared. -/
def cleaning : State :=
  { (inMode .sanitize).setDieState 0 1 with
    prot := { up.prot with level := 1 }
    dies := [(0, { identified := true, planes := 1, blocks := 2, pages := 4, pageBytes := 18592, cellBits := 3 })] }
def cleaningLost : State := cleaning.setDieState 0 3
def cleaningRuns : State :=
  { cleaning with prot := { up.prot with level := 1, sanRunning := true, sanBegun := true, sanOp := 1,
                                         sanBlocks := [{ die := 0, plane := 0, block := 1 }] } }
def cleaned (bad : List BlockAddr) : State :=
  { cleaning with prot := { up.prot with level := 1, usable0 := true, slc0 := 4, sanRunning := true, sanBegun := true, sanOp := 3, sanBad := bad
                                         pool := [{ at_ := { die := 0, plane := 0, block := 1 }, erases := 1, used := 1 }] } }

/-- R370, R371: LOWER to the level in force is refused; a sequence erases what its operation selects; one with an uncleared block ends
with result 3, and LOWER with every block cleared with result 2 and its level in force; one with blocks left does not end. -/
theorem test_sanitize : (after (.lower 1 (.cfg 0) 0x103) cleaning).cfg.code = rcRange ∧
    (after (.eraseAll 1 (.cfg 0) 2) cleaning).ops.map (fun o => (o.die, o.kind))
      = [(0, .erase [{ die := 0, plane := 0, block := 0 }] (some 0))] ∧
    (let p := (after (.sanitizeDone 1) (cleaned [{ die := 0, plane := 0, block := 1 }])).prot; (p.sanResult, p.level) = (3, 1)) ∧
    (let p := (after (.sanitizeDone 1) (cleaned [])).prot; (p.sanResult, p.level) = (2, 0)) ∧
    (after (.sanitizeDone 1) cleaningRuns).prot.sanBegun = true := by decide +kernel

theorem witness_SanitizeRowsComplete :
    (fld 1 0 2 = 1 ∧ (cleaning.elapse 1).WritePasses (.cfg 0) Obj.SAN_CTRL 1) ∧
    (fld 2 0 2 = 2 ∧ (cleaning.elapse 1).WritePasses (.cfg 0) Obj.SAN_CTRL 2) ∧
    (fld 3 0 2 = 3 ∧ (cleaning.elapse 1).WritePasses (.cfg 0) Obj.SAN_CTRL 3 ∧ fld (3 : W64) 8 2 < cleaning.prot.level) ∧
    (cleaning.elapse 1).WritePasses (.cfg 0) Obj.SAN_CTRL 0x103 ∧ cleaning.prot.level ≤ fld (0x103 : W64) 8 2 ∧
    ((cleaning.elapse 1).sanSelect 1 ≠ [] ∧ (∀ d, d < cleaning.build.dies → (cleaning.elapse 1).dieState d ≠ 2 ∧ (cleaning.elapse 1).dieState d ≠ 3)) ∧
    ((cleaningLost.elapse 1).WritePasses (.cfg 0) Obj.SAN_CTRL 3 ∧ cleaningLost.mediaBusy = false ∧ 0 < cleaningLost.build.dies ∧
      (cleaningLost.elapse 1).dieState 0 = 3) ∧ up.modes.current ≠ .sanitize ∧ cleaningRuns.prot.sanRunning = true ∧
    cleaning.modes.current = .sanitize ∧ cleaning.prot.sanRunning = false ∧ cleaning.prot.pfail = false ∧ cleaning.mediaBusy = false ∧
    cleaning.prot.sanInterrupted = false ∧
    (let s : State := { cleaning with tokens := [(0, [1])] }; s.mediaBusy = true) ∧
    ((cleaned []).prot.sanBegun = true ∧ (cleaned []).ops = [] ∧ (cleaned []).prot.sanBlocks = [] ∧ (cleaned []).prot.pfail = false) ∧
    (cleaned [{ die := 0, plane := 0, block := 1 }]).prot.sanBad ≠ [] ∧ cleaningRuns.prot.sanBlocks ≠ [] ∧
    (OpKind.erase [] (some 0)).ofSanitize = true ∧ cleaning.prot.sanBegun = false := by
  unfold State.WritePasses State.Reaches; (repeat' apply And.intro) <;> decide +kernel

/-- The drain running. -/
def drainRuns : State := { up with prot := { up.prot with pfail := true, draining := true } }

/-- R362, R365: PFAIL starts the drain once; DRAIN_DONE ends it with WP_N low. -/
theorem test_pfail : (after (.pfail 3) up).prot.drainT0 = 30 ∧ (after (.pfail 3) drainRuns).prot.drainT0 = 0 ∧
    (after (.drainDone 1) drainRuns).prot.pfailDone = true := by decide +kernel

theorem witness_PowerFailureRowsComplete : up.prot.pfail = false ∧ parking.modes.pending ≠ none ∧ drainRuns.prot.pfail = true ∧
    drainRuns.prot.draining = true ∧ drainRuns.prot.pfailDone = false ∧ drainRuns.ops = [] ∧ up.prot.draining = false := by decide

/-! ### Microcode -/

/-- Channels 1 to 4 in OPEN, each with something to start: a context that yielded, the routine of a read that has begun, an erase that
waits, and a suspended one to be resumed; a context runs on channel 0. -/
def sequencing : State :=
  { working with
    modes := {}
    clusters := [(0, { active := some codeImage, standby := some codeImage })]
    ops := [{ id := 3, die := 32, kind := .read [7], started := true },
            { id := 4, die := 48, kind := .erase [{ die := 48, plane := 0, block := 1 }] (some 9) },
            { id := 5, die := 64, kind := .erase [] none, started := true, confirmed := true, suspended := true }]
    ctxs := [{ seq := 0, ctx := 0, run := 1, pc := 64 }, { seq := 1, ctx := 0, run := 2, pc := 64 }, { seq := 4, ctx := 0, run := 4 }] }

/-- What a start is of, and the number of its operation or sequencer. -/
def Start.tag (x : Start) : Nat × Nat := match x with
  | .ready c => (0, c.seq)
  | .resume o => (1, o.id)
  | .routine o => (2, o.id)
  | .fresh o => (3, o.id)

/-- Each of those channels starts the one thing that waits there; its sequencer runs no context. -/
theorem witness_SequencerRowsComplete_start :
    ([1, 2, 3, 4].map fun k => (minBy (fun y => y.1) ((sequencing.elapse 1).starts k)).map fun x => Start.tag x.2)
      = [some (0, 1), some (2, 3), some (3, 4), some (1, 5)] ∧
    (∀ k ∈ [1, 2, 3, 4], (∀ c ∈ sequencing.ctxs, c.seq = k → c.run ≠ 1) ∧ (sequencing.chan k).st = 3 ∧
      (sequencing.chan k).busOwner ≠ some 16) ∧
    (sequencing.elapse 1).op? 3 = sequencing.ops[0]? ∧
    (sequencing.ops[0]?.bind fun o => ((sequencing.elapse 1).routineOf o).map fun r => r.kind != 13) = some true ∧
    (sequencing.elapse 1).op? 4 = sequencing.ops[1]? ∧ (sequencing.ops[1]?.map fun o => o.routine) = some 0 := by
  refine ⟨by decide +kernel, by decide, by decide, by decide +kernel, by decide, by decide⟩

/-- Channel 63 in enumeration, and a housekeeping sequencer with a context. -/
def resettingAll : State := { up with chans := [(63, { st := 1 })], ctxs := [{ seq := 64, ctx := 0, run := 1 }] }

theorem witness_SequencerRowsComplete :
    ((∀ c ∈ resettingAll.ctxs, c.seq ≠ 67) ∧ 4 * 15 + 3 < resettingAll.build.channels ∧ (resettingAll.chan 63).st = 1 ∧
      (resettingAll.chan 63).busOwner = none ∧ resettingAll.ops = [] ∧
      (∀ j, j < 15 → (resettingAll.chan (4 * j + 3)).st ≠ 1 ∧ (resettingAll.chan (4 * j + 3)).st ≠ 3)) ∧
    ((∃ c ∈ resettingAll.ctxs, c.seq = 64 + 0 ∧ c.run = 1) ∧ resettingAll.modes.parkEntry = false) ∧
    ((∃ c ∈ sequencing.ctxs, c.seq = 0 ∧ c.run = 1) ∧ ((up.chan 63).st ≠ 1 ∧ (up.chan 63).st ≠ 3) ∧
      (({ st := 3, busOwner := some 16 } : Chan)).busOwner = some 16 ∧ (sequencing.elapse 1).starts 5 = []) ∧
    sequencing.ctxAt 5 5 = none := by
  (repeat' apply And.intro) <;> decide +kernel

/-- An image of one code word, with its generic profile behind it (R397); and a context of channel 0 at that word, in the program
routine of die 0, with more operations and contexts. -/
def wordImage (w : Nat) : List Byte :=
  List.replicate 16 0 ++ [65, 0, 0, 0, 1, 0] ++ List.replicate 42 0 ++ leBytes 16 w ++ [1, 1, 1, 255] ++ List.replicate 88 1
    ++ List.replicate 8 0 ++ List.replicate 160 1
def atWord (w : Nat) (more : List DieOp := []) (run : Nat := 1) (others : List Ctx := []) : State :=
  { working with
    clusters := [(0, { active := some (wordImage w) })]
    dies := mapPut working.dies 0 { working.die 0 with profile := some 1 }
    ctxs := { seq := 0, ctx := 0, run, kind := 14, op := some 1 } :: others
    ops := working.ops ++ more }
def wordCtx : Ctx := { seq := 0, ctx := 0, run := 1, kind := 14, op := some 1 }

/-- Words of each kind at that place: one that works, jumps, one with a reserved bit, one with all CEs, one that waits for R/B, and
yields with and without a wait. -/
def uwWaitRb : Nat := 5 * 2 ^ 95
def uwJump : Nat := 2 ^ 119
def uwJumpNot : Nat := 2 ^ 119 + 2 ^ 100
def uwYieldPoll : Nat := 2 ^ 126 + 4 * 2 ^ 95

/-- A word is legal at that place. -/
def legalWord (w : Nat) : Bool :=
  imgIsCode (wordImage w) 0 && imgWord (wordImage w) 0 == w && !(uwReserved w) && uwCeop w != 3

/-- A RASTER read that waits for die 0; and the phase of a word at which `b` is. -/
def rasterWaits : DieOp := { id := 9, die := 0, kind := .read [7], cls := 0 }
def atPhy (s : State) (env : UcodeEnv) : State := (s.elapse 1).phyIn wordCtx env

theorem witness_SequencerRowsComplete_words :
    ((atWord 0).ctxAt 0 0 = some wordCtx ∧ ((atWord 0).elapse 1).mayRun wordCtx = true ∧ wordCtx.housekeeping = false ∧
      wordCtx.stage = [] ∧ wordCtx.txOpen = false) ∧
    (legalWord 0 = true ∧ legalWord uwJump = true ∧ legalWord uwJumpNot = true ∧ legalWord uwWaitRb = true ∧
      legalWord (2 ^ 126) = true ∧ legalWord uwYieldPoll = true) ∧
    (uwReserved 1 = true ∧ uwCeop (3 * 2 ^ 85) = 3 ∧ imgIsCode (wordImage 0) 1 = false) ∧
    (uwYield 0 = false ∧ uwYield uwJump = false ∧ uwYield uwWaitRb = false ∧ uwYield (2 ^ 126) = true ∧ uwCommit (2 ^ 126) = false ∧
      uwYield uwYieldPoll = true ∧ uwCommit uwYieldPoll = false) ∧
    (uwNext 0 = 0 ∧ uwNext uwJump = 1 ∧ uwCond uwJump = 0 ∧ uwCneg uwJump = false ∧ uwNext uwJumpNot = 1 ∧ uwCneg uwJumpNot = true) ∧
    (∀ w ∈ [0, uwJump, uwJumpNot], uwBkind w = 0 ∧ uwCeop w = 0 ∧ uwEff w = 0 ∧ uwCommit w = false ∧ uwAgop w = 0 ∧
      (atPhy (atWord w) {}).waitHolds wordCtx (wordImage w) w {} = true ∧ (atPhy (atWord w) {}).beatsHeld wordCtx w {} = false) ∧
    (atPhy (atWord uwWaitRb) { rbHigh := false }).waitHolds wordCtx (wordImage uwWaitRb) uwWaitRb { rbHigh := false } = false := by
  (repeat' apply And.intro) <;> decide +kernel

/-- At a yield: a suspend is wanted, what waits ranks higher, and a due poll is waited for. -/
theorem witness_SequencerRowsComplete_yields :
    ((atPhy (atWord uwYieldPoll [rasterWaits]) {}).suspendAt wordCtx uwYieldPoll).isSome = true ∧
    (let b := atPhy (atWord (2 ^ 126) [rasterWaits] 1 [{ seq := 0, ctx := 1, run := 2, kind := 10, op := some 9 }]) {}
     b.suspendAt wordCtx (2 ^ 126) = none ∧ b.parkAddr wordCtx (uwRpt (2 ^ 126)) = none ∧ b.outranked wordCtx = true) ∧
    ((atPhy (atWord uwYieldPoll) {}).suspendAt wordCtx uwYieldPoll = none ∧
      (atPhy (atWord uwYieldPoll) {}).parkAddr wordCtx (uwRpt uwYieldPoll) = none ∧
      (atPhy (atWord uwYieldPoll) {}).outranked wordCtx = false ∧
      (atPhy (atWord uwYieldPoll) {}).waitHolds wordCtx (wordImage uwYieldPoll) uwYieldPoll {} = false) := by
  (repeat' apply And.intro) <;> decide +kernel

/-- The watchdog: a context that runs since time 0, over its limit and before it; one that does not run. -/
theorem witness_SequencerRowsComplete_watchdog :
    (let past (dt : Nat) : Bool := 0 + ceilDiv (5 * ((atWord 0).elapse dt).objN Obj.UCODE_WATCHDOG) 6 ≤ ((atWord 0).elapse dt).now
     past 100000000 = true ∧ past 1 = false) ∧ wordCtx.run = 1 ∧ ((atWord 0 [] 2).ctxAt 0 0).map (fun c => c.run) = some 2 := by
  (repeat' apply And.intro) <;> decide +kernel

theorem witness_MicrocodeImagesComplete :
    (up.elapse 1).TransferPasses (.cfg 0) Obj.UCODE_IMAGE true 1120 ∧ imageCheck 0x10300 codeImage = (1, 0) ∧
    (imageCheck 0x10300 [0]).1 ≠ 1 ∧ up.prot.pfail = false ∧ (∀ k ∈ (up.elapse 1).loadMask, (mapGetD up.clusters k {}).quiescing = false) ∧
    (let s : State := { up with clusters := [(7, { quiescing := true })] }
     ∃ k ∈ (s.elapse 1).loadMask, (mapGetD s.clusters k {}).quiescing = true) ∧
    (let s : State := { up with activation := some { stamp := 1, mask := [0, 7], dropped := [], startedAt := 0 } }
     [0, 7].Nodup ∧ ∀ k ∈ [0, 7], s.quiesced k = true) ∧
    up.activation = none := by
  unfold State.TransferPasses State.Reaches
  refine ⟨by decide, codeImage_passes, by decide, by decide, by decide, ⟨7, by decide, by decide⟩, by decide, by decide⟩

/-! ### Buffers, the copy engine and the memory ports -/

/-- Pool 0 ready at 0x200000 with two buffers, buffer 0 out to processor 0 (requester 24) with one reference. -/
def buffers : State :=
  let s := ((up.setObjN Obj.POOL_COUNT 2 0).setObjN Obj.POOL_BASE 0x200000 0).setObjN Obj.POOL_DESC_BASE 0x10000 0
  { s with mem := [(0x10000, 1), (0x10001, 0x98)], pools := [(0, { ready := true })] }

/-- R409: a pool with buffers becomes READY; one without has its enable refused. -/
theorem test_poolEnable : ((after (.poolEnable 1 (.cfg 0) 1) (up.setObjN Obj.POOL_COUNT 2 0)).pool 0).ready = true ∧
    (after (.poolEnable 1 (.cfg 0) 1) up).cfg.code = rcRange := by decide +kernel

/-- R417: a BUF_FREE of the last reference frees the buffer, and one of a buffer that is not out is refused. -/
theorem test_bufFree : ((after (.bufFree 1 0 0) buffers).bufDesc 0).alloc = false ∧
    (after (.bufFree 1 0 1) buffers).cfg.code = rcRange ∧ ((after (.bufRef 1 0 0) buffers).bufDesc 0).count = 2 := by decide +kernel

theorem witness_BufferRowsComplete :
    ((up.setObjN Obj.POOL_COUNT 2 0).elapse 1).WritePasses (.cfg 0) Obj.POOL_CTRL 1 ∧
    ((up.setObjN Obj.POOL_COUNT 2 0).elapse 1).objN Obj.POOL_COUNT 0 ≠ 0 ∧
    ((up.setObjN Obj.POOL_COUNT 2 0).elapse 1).reserveSum 0 ≤ ((up.setObjN Obj.POOL_COUNT 2 0).elapse 1).objN Obj.POOL_COUNT 0 ∧
    (up.elapse 1).WritePasses (.cfg 0) Obj.POOL_CTRL 31 ∧ (up.elapse 1).objN Obj.POOL_COUNT 4 = 0 ∧
    (buffers.elapse 1).ReadPasses (.cfg 7) Obj.BUF_ALLOC 0 ∧ (buffers.elapse 1).ReadPasses (.cfg 7) Obj.BUF_ALLOC 4 ∧
    (buffers.elapse 1).winsNow 0 (procRequester 7) = true ∧ (buffers.elapse 1).winsNow 4 (procRequester 7) = false ∧ buffers.Inv ∧
    (buffers.elapse 1).WritePasses (.cfg 0) Obj.BUF_FREE 0 ∧ (buffers.elapse 1).bufCheck (procRequester 0) 0 true = none ∧
    (buffers.elapse 1).WritePasses (.cfg 0) Obj.BUF_FREE 1 ∧ (buffers.elapse 1).bufCheck (procRequester 0) 1 true ≠ none ∧
    (buffers.elapse 1).WritePasses (.cfg 0) Obj.BUF_FREE_ADDR 0x200000 ∧ (buffers.elapse 1).bufAtAddr 0x200000 = some 0 ∧
    (buffers.elapse 1).WritePasses (.cfg 0) Obj.BUF_FREE_ADDR 1 ∧ (buffers.elapse 1).bufAtAddr 1 = none ∧
    (buffers.elapse 1).WritePasses (.cfg 0) Obj.BUF_REF 0 ∧ (buffers.elapse 1).bufCheck (procRequester 0) 0 false = none ∧
    ((buffers.elapse 1).bufDesc 0).count ≠ 255 ∧ (buffers.elapse 1).WritePasses (.cfg 0) Obj.BUF_REF 1 ∧
    (buffers.elapse 1).bufCheck (procRequester 0) 1 false ≠ none := by
  unfold State.WritePasses State.ReadPasses State.Reaches State.Inv; (repeat' apply And.intro) <;> decide

/-- Channel 15 busy with a list, and channel 0 with an end to be reported. -/
def copying : State := { up with ce := [(15, { busy := true, list := some 64 }), (0, { busy := true, ending := some (0, 0) })] }

/-- Channel 7 with a paired element at work: its first burst not yet begun, or waiting for its slot. -/
def pairing (begun : Bool) (ask : Option Nat) : State :=
  { up with ce := [(7, { busy := true, ask, cur := some { src := 0, dst := 64, len := 4096, swap := 0, fill := false, paired := true, begun } })] }

/-- R430: a register transfer of length 0 is done at once; a list off its alignment ends with cause 4. -/
theorem test_ceStart : ((after (.ceStart 1 (.cfg 0) 3 1) up).ceChan 3).done = true ∧
    ((after (.ceDone 1 0) copying).ceChan 0).done = true ∧
    ((after (.ceStart 1 (.cfg 0) 3 3) (up.setObjN Obj.CE_LIST 8 0 3)).ceChan 3).ending = some (4, 8) := by decide +kernel

theorem witness_CopyEngineRowsComplete :
    ((copying.elapse 1).WritePasses (.cfg 0) Obj.CE_CTRL (w64 (setBits 0 0 1 1)) 0 15 ∧ (copying.ceChan 15).busy = true) ∧
    ((up.elapse 1).WritePasses (.cfg 0) Obj.CE_CTRL (w64 (setBits 0 0 1 1)) 0 3 ∧ (up.elapse 1).objN Obj.CE_LEN 0 3 = 0) ∧
    ((up.elapse 1).WritePasses (.cfg 0) Obj.CE_CTRL (w64 (setBits 2 0 1 1)) 0 3 ∧ (up.elapse 1).objN Obj.CE_LIST 0 3 % 16 = 0 ∧
      ((up.setObjN Obj.CE_LIST 8 0 3).elapse 1).objN Obj.CE_LIST 0 3 % 16 ≠ 0) ∧
    ((copying.elapse 1).WritePasses (.cfg 0) Obj.CE_CTRL (w64 (setBits (copying.ceChan 15).ctrl 2 1 1)) 0 15 ∧
      tbit (copying.ceChan 15).ctrl 0 = false ∧ (copying.ceChan 15).cur = none) ∧
    (((up.setObjN Obj.CE_LEN 4 0 3).elapse 1).WritePasses (.cfg 0) Obj.CE_CTRL (w64 (setBits 0 0 1 1)) 0 3 ∧
      ((up.setObjN Obj.CE_LEN 4 0 3).elapse 1).objN Obj.CE_LEN 0 3 = 4 ∧ 4 % swapGroup (bits 0 6 2) = 0) ∧
    (let s := pairing false none
     (s.elapse 1).WritePasses (.cfg 0) Obj.CE_CTRL (w64 (setBits (s.ceChan 7).ctrl 2 1 1)) 0 7 ∧ tbit (s.ceChan 7).ctrl 0 = false ∧
       (s.ceChan 7).cur.map (fun e => (e.paired, e.begun)) = some (true, false)) ∧
    (((pairing true (some 0)).ceChan 7).cur.map (fun e => (e.paired, e.begun)) = some (true, true) ∧
      ((pairing true (some 0)).ceChan 7).ask ≠ none ∧ ((pairing true none).ceChan 7).ask = none) ∧
    ((up.elapse 1).WritePasses (.cfg 0) Obj.CE_CTRL (w64 (setBits (up.ceChan 15).ctrl 2 1 1)) 0 15 ∧ (up.ceChan 15).busy = false) ∧
    (copying.ceChan 0).ending = some (0, 0) ∧ (up.ceChan 15).ending = none := by
  unfold State.WritePasses State.Reaches; (repeat' apply And.intro) <;> decide

/-- Port 0 with a read and a write outstanding, and a request that waits for a command credit. -/
def mpRead : MpReq := { tag := 3, write := false, addr := 64, beats := 1, use := .ceRead 0 }
def mpWrite : MpReq := { tag := 3, write := true, addr := 64, beats := 1, data := [], sent := 1, mask := [], use := .ceRead 0 }
def porting : State := { up with ports := [(0, { out := [mpRead, mpWrite], wait := [{ mpRead with tag := 4 }] })] }

theorem witness_MemoryPortRowsComplete : 7 < up.build.clusters ∧ (up.port 7).wait = [] ∧
    ((porting.port 0).wait = [{ mpRead with tag := 4 }] ∧ (porting.port 0).cmdCr = 0 ∧ (porting.port 0).outstanding false < 256) ∧
    up.build.clusters ≤ 8 ∧ porting.Inv ∧
    ((porting.port 0).out.find? fun r => !r.write && r.tag == 3) = some mpRead ∧
    ((porting.port 0).out.find? fun r => r.write && r.tag == 3 && r.sent == r.beats) = some mpWrite ∧
    (∀ r ∈ (porting.port 0).out, r.tag ≠ 4) := by
  refine ⟨by decide, by decide, by decide, by decide, ⟨rfl, rfl, rfl, rfl, by decide⟩, by decide, by decide, by decide⟩

/-- R512: a command credit puts the request that waits. -/
theorem test_cmdCredit : ((after (.mpCmdCredit 1 0) porting).port 0).out.length = 3 := by decide +kernel

/-! ### Notice queues -/

/-- A notice of two words for queue 3, read by processor 2, with one offered and words in its tail and head stages; processor 5 with a
pop of queue 5 that waits; and queue 3 switched off. -/
def aNotice : Notice := { kind := 0x24, queue := 3, time := 0, pos := {}, body := List.replicate 8 0, cls := 1, held := false, source := 0 }
def noticing : State :=
  let s := up.setObjN Obj.NQ_CFG (16 + 2 ^ 14 + 2 * 2 ^ 17) 3
  { s with offers := [aNotice], nqs := [(3, { tail := [7], head := [8] })] }
def popping : State := { up with procs := [(5, { popWait := some (5, 0) })] }
def queueOff : State := up.setObjN Obj.NQ_CFG 16 3

/-- R424: processor 2 reads the first word of the tail stage; processor 0 is no reader of the queue. -/
theorem test_nqPop : (after (.nqPop 1 2 3) noticing).cfg.rdata = 7 ∧ (after (.nqPop 1 0 3) noticing).cfg.code = rcPath ∧
    (after (.nqTry 1 0 0) up).cfg.rdata = 0 ∧ (after (.nqPop 1 0 0) up).cfg.ready = false := by decide +kernel

theorem witness_NoticeEntryCompletes : noticing.offers = [aNotice] ∧ up.offers = [] ∧ (noticing.nq 3).pennant = none ∧
    noticing.nqFits 3 aNotice.words = true ∧ (queueOff.nq 3).pennant = none ∧ queueOff.nqFits 3 aNotice.words = false ∧
    aNotice.held = false ∧ ({ aNotice with held := true } : Notice).held = true := by decide

theorem witness_NoticePopsComplete :
    (noticing.portHeld (.cfg 2) = false ∧ (noticing.elapse 1).nqReader 3 = 2 ∧ (noticing.nq 3).tail = [7] ∧
      (noticing.elapse 1).nqReader 3 ≠ 7) ∧
    (up.portHeld (.cfg 7) = false ∧ (up.elapse 1).nqReader 7 = 7 ∧ (up.nq 7).tail = []) ∧
    ((popping.proc 5).popWait = some (5, 0) ∧ popping.flushing = false ∧ 0 + (popping.elapse 1000000000).objN Obj.NQ_BLOCK_NS ≤ (popping.elapse 1000000000).now ∧
      (popping.elapse 1).now < 0 + (popping.elapse 1).objN Obj.NQ_BLOCK_NS) ∧
    ((noticing.nq 3).ring ++ (noticing.nq 3).head ≠ [] ∧ (up.nq 3).ring ++ (up.nq 3).head = [] ∧
      (up.elapse 1).WritePasses (.cfg 7) Obj.NQ_CFG (w64 (setBits ((up.elapse 1).nqCfg 3) 15 1 1)) 3 ∧
      bits ((up.elapse 1).nqCfg 3) 0 8 ≠ 0 ∧ bits ((up.elapse 1).nqCfg 3) 20 4 = 0) ∧
    (bits ((noticing.elapse 1).nqCfg 3) 0 8 ≠ 0 ∧ bits ((noticing.elapse 1).nqCfg 3) 20 4 = 0 ∧
      (noticing.elapse 1).WritePasses (.cfg 0) Obj.NQ_CFG (w64 (setBits ((noticing.elapse 1).nqCfg 3) 16 1 1)) 3 ∧
      (noticing.elapse 1).WritePasses (.cfg 0) Obj.NQ_CFG (w64 (setBits ((noticing.elapse 1).nqCfg 3) 15 1 1)) 3) ∧
    ((noticing.nq 3).lastWord + (noticing.elapse 100000000).objN Obj.NQ_FLUSH_NS ≤ (noticing.elapse 100000000).now ∧
      (noticing.elapse 0).now ≤ (noticing.nq 3).lastWord) ∧ 0 < (noticing.elapse 0).objN Obj.NQ_FLUSH_NS := by
  unfold State.WritePasses State.Reaches; (repeat' apply And.intro) <;> decide

/-! ### Interrupts -/

/-- Source 100 enabled at priority 5 for processor 0 with its latch set, and a private source of processor 7 active. -/
def interrupting : State :=
  { up with ints := { up.ints with cfg := [(100, 1 + 5 * 2 ^ 8), (101, 1 + 2 ^ 23 + 2 * 2 ^ 18)], latches := [100, 101],
                                   handlers := [[], [], [], [], [], [], [], [(481, 3)]],
                                   coal := [(2, { timer := some (0, 0) })] } }

/-- R447: INT_SOFT 1 for processors 0 and 7 sets the latches of private source 481 in their banks. -/
theorem test_intSoft : (after (.intSoft 1 0 0x8101) up).ints.latches = [513, 737] := by decide +kernel

theorem witness_InterruptClaimsComplete : interrupting.ints.handlers.length = 8 ∧
    (interrupting.elapse 1).ReadPasses (.cfg 0) Obj.INT_CLAIM ∧ (interrupting.elapse 1).intBest 0 = some 100 ∧
    (interrupting.elapse 1).ReadPasses (.cfg 7) Obj.INT_CLAIM ∧ (interrupting.elapse 1).intBest 7 = none ∧
    (interrupting.elapse 1).WritePasses (.cfg 7) Obj.INT_EOI 481 ∧ interrupting.activeFor 7 (intKey 7 481) = true ∧
    (interrupting.elapse 1).WritePasses (.cfg 0) Obj.INT_EOI 0 ∧ interrupting.activeFor 0 (intKey 0 0) = false ∧
    interrupting.intBest 0 = some 100 := by
  unfold State.WritePasses State.ReadPasses State.Reaches; (repeat' apply And.intro) <;> decide

theorem witness_InterruptRowsComplete : (up.elapse 1).WritePasses (.cfg 0) Obj.INT_SOFT 0x8101 ∧ 7 < up.ints.sleep.length ∧
    (interrupting.elapse 100).coalExpired 2 = true ∧ (interrupting.elapse 100).groupItems 2 = 1 ∧ (up.elapse 1).coalExpired 31 = false := by
  unfold State.WritePasses State.Reaches; (repeat' apply And.intro) <;> decide

/-! ### The dictionary and Closa -/

/-- Processor 1 after its latch write of TLOG_MARK at +0, and with the units' protection sealed. -/
def latched : State := { up with procs := [(1, { wrLatch := 5, prev := some (Obj.TLOG_MARK.at 0 0, true, 0) })] }

/-- R470: a write at +4 without its latch write answers SEQUENCE; at +8 ALIGN; of an object that does not exist NO_OBJECT. -/
theorem test_objectWrite :
    (after (.objectWrite 1 1 (Obj.TLOG_MARK.key / 256) (Obj.TLOG_MARK.key % 256) 4 0) up).cfg.code = rcSequence ∧
    (after (.objectWrite 1 1 0 0 8 0) up).cfg.code = rcAlign ∧ (after (.objectWrite 1 1 0xFFFF 0xFF 0 0) up).cfg.code = rcNoObject := by
  decide +kernel

theorem witness_ObjectWritesComplete :
    ((up.elapse 1).Reaches (.cfg 7) Obj.RAS_LOSS_FRAMES 0 0 ∧ Obj.RAS_LOSS_FRAMES.ty ≠ .domain ∧ Obj.RAS_LOSS_FRAMES.ty.bytes ≤ 4 ∧
      (up.elapse 1).writeCheck (.cfg 7) Obj.RAS_LOSS_FRAMES 0 0 32 5 = rcOk ∧
      ((ruleA (.cfg 7) Obj.RAS_LOSS_FRAMES 0 0).or (ruleB Obj.RAS_LOSS_FRAMES 0 0)).or (ruleC (.cfg 7) Obj.RAS_LOSS_FRAMES 0 0) = none) ∧
    ((up.elapse 1).writeCheck (.cfg 7) Obj.RAS_LOSS_FRAMES 0 0 32 0xFFFFFFFF ≠ rcOk ∧ Obj.RAS_LOSS_FRAMES.key ≠ Obj.RMP_KEY1.key) ∧
    ((latched.elapse 1).Reaches (.cfg 1) Obj.TLOG_MARK 0 0 ∧ Obj.TLOG_MARK.ty.bytes = 8 ∧
      (latched.elapse 1).pathAllows (.cfg 1) Obj.TLOG_MARK 0 0 true = true ∧ (latched.elapse 1).attrCheck Obj.TLOG_MARK true = rcOk ∧
      (latched.proc 1).prev = some (Obj.TLOG_MARK.at 0 0, true, 0) ∧
      (latched.elapse 1).writeCheck (.cfg 1) Obj.TLOG_MARK 0 0 64 (5 + 0 * 2 ^ 32) = rcOk) ∧
    (up.proc 1).prev ≠ some (Obj.TLOG_MARK.at 0 0, true, 0) ∧ up.portHeld (.cfg 0) = false ∧ (up.elapse 1).objAt 0xFFFFFF = none := by
  unfold State.Reaches; (repeat' apply And.intro) <;> decide

theorem witness_ObjectWritesComplete_sealed :
    ({ up with prot := { up.prot with sealed := true } } : State).prot.sealed = true ∧ (15 : Nat) < 16 ∧ 2 ^ 64 - 1 < 2 ^ 64 := by
  decide

theorem witness_RefusedWritesChangeNothing : up.Inv ∧ up.portHeld (.cfg 0) = false ∧ up.portHeld .fn = false ∧
    (Instr.tlogMark 1 (.cfg 0) 0).writes = some (.cfg 0, Obj.TLOG_MARK, 0, 0, 0) ∧
    (Instr.modeRequest 1 .fn 8).writes = some (.fn, Obj.MODE_REQUEST, 0, 0, 8) ∧
    ((up.elapse 1).objAt (Obj.MODE_REQUEST.at 0 0)).isSome = true ∧ Obj.MODE_REQUEST.inRange (Obj.MODE_REQUEST.keep 8) = false ∧
    (up.elapse 1).pathAllows .mreq Obj.INT_SOFT 0 0 true = false ∧
    (({ up with build := .rlk16 } : State).elapse 1).objAt (Obj.CH_CTRL.at 0 16) = none := by
  refine ⟨⟨rfl, rfl, rfl, rfl, by decide⟩, by decide, by decide, by decide, by decide, by decide, by decide, by decide, by decide⟩

/-- Processor 7 with a download of PSAVE_DATA open for 6 bytes, and processor 0 with an upload of the trouble log's image. -/
def psaveKey : Nat := Obj.PSAVE_DATA.at 0 0
def tlogKey : Nat := Obj.TLOG_IMAGE.at 0 0
def loading : State :=
  { up with xfers := [{ ctx := 7, key := psaveKey, upload := false, total := 6, bytes := [1], lastAt := 0 },
                      { ctx := 0, key := tlogKey, upload := true, total := 5, bytes := [1, 2, 3, 4, 5], lastAt := 0 }] }
def lapsed : State :=
  { up with xfers := [{ ctx := 7, key := psaveKey, upload := false, total := 6, bytes := [], lastAt := 0, timedOut := true }] }

/-- R471: four bytes join the download; the upload's first word is returned, and its last word is padded. -/
theorem test_transfers :
    ((after (.cfgDownloadAppend 1 7 (psaveKey / 256) (psaveKey % 256) 0x05040302) loading).xfer? 7).map (fun x => x.bytes)
      = some [1, 2, 3, 4, 5] ∧
    (after (.cfgUploadRead 1 0 (tlogKey / 256) (tlogKey % 256)) loading).cfg.rdata = 0x04030201 ∧
    (after (.cfgDownloadAppend 1 7 (psaveKey / 256) (psaveKey % 256) 0) lapsed).cfg.code = rcTimeout := by decide +kernel

theorem witness_ConfigPortTransfersComplete :
    ((up.elapse 1).Reaches (.cfg 7) Obj.PSAVE_DATA 0 0 ∧ Obj.PSAVE_DATA.ty = .domain ∧ up.xfer? 7 = none ∧
      (up.elapse 1).attrCheck Obj.PSAVE_DATA true = rcOk ∧ (up.elapse 1).domainBusy psaveKey 7 = false) ∧
    ((up.elapse 1).Reaches (.cfg 0) Obj.TLOG_IMAGE 0 0 ∧ (up.elapse 1).attrCheck Obj.TLOG_IMAGE false = rcOk ∧
      (up.elapse 1).domainBusy tlogKey 0 = false ∧ ((up.elapse 1).uploadContents Obj.TLOG_IMAGE 0).2.isRight = true) ∧
    ((loading.elapse 1).Reaches (.cfg 7) Obj.PSAVE_DATA 0 0 ∧ (loading.xfer? 7).isSome = true ∧
      (loading.elapse 1).Reaches (.cfg 0) Obj.TLOG_IMAGE 0 0 ∧ (loading.xfer? 0).isSome = true) ∧
    ((up.elapse 1).Reaches (.cfg 7) Obj.PSAVE_DATA 0 0 ∧ (up.elapse 1).attrCheck Obj.PSAVE_DATA false = rcOk ∧
      (up.elapse 1).domainBusy psaveKey 7 = false ∧ ((up.elapse 1).uploadContents Obj.PSAVE_DATA 0).2 = .inl 6 ∧ 6 ≠ rcOk) ∧
    ((loading.elapse 1).attrCheck Obj.PSAVE_DATA true = rcOk ∧ (loading.elapse 1).domainBusy psaveKey 7 = false ∧
      (loading.xfer? 7).map (fun x => (x.key == psaveKey, x.timedOut, x.upload, decide (x.bytes.length + 4 < x.total)))
        = some (true, false, false, true) ∧
      (({ loading with xfers := [{ ctx := 7, key := psaveKey, upload := false, total := 5, bytes := [1], lastAt := 0 }] } : State).xfer? 7).map
        (fun x => decide (x.total ≤ x.bytes.length + 4)) = some true ∧
      (loading.elapse 1).attrCheck Obj.TLOG_IMAGE false = rcOk ∧
      (loading.xfer? 0).map (fun x => (x.key == tlogKey, x.timedOut, x.upload)) = some (true, false, true)) ∧
    ((lapsed.elapse 1).Reaches (.cfg 7) Obj.PSAVE_DATA 0 0 ∧ (lapsed.xfer? 7).map (fun x => x.timedOut) = some true) ∧
    0 + (loading.elapse 1000000000).objN Obj.DICT_SEG_TIMEOUT_NS ≤ (loading.elapse 1000000000).now ∧
    (loading.elapse 1).now < 0 + (loading.elapse 1).objN Obj.DICT_SEG_TIMEOUT_NS := by
  unfold State.Reaches; (repeat' apply And.intro) <;> decide +kernel

/-- The field port on, error-active, with node ID 5, status frames on and three tokens. -/
def fielding : State :=
  let s := (up.setObjN Obj.FN_NODE_ID 5).setObjN Obj.FN_CTRL 7
  { s with fn := { st := 1, tokens := 3 } }

/-- A READ of MODE_CURRENT as a REQUEST frame (R472). -/
def readFrame : List Byte := padTo 8 ([1, 0] ++ leBytes 2 (Obj.MODE_CURRENT.key / 256) ++ [BitVec.ofNat 8 Obj.MODE_CURRENT.key])

/-- A WRITE of 1 to NEW_TAKE, which the field network may write (R41, R483). -/
def takeFrame : List Byte :=
  padTo 12 ([2, 0] ++ leBytes 2 (Obj.NEW_TAKE.key / 256) ++ [BitVec.ofNat 8 Obj.NEW_TAKE.key, 0, 0, 1, 1])

/-- R472, R482, R485: the value comes back in the smallest frame; a STATUS frame goes out when it is due. -/
theorem test_field : (after (.closaRead 1 (.fn (4 * 128 + 5) .fd readFrame)) fielding).fn.tx
      = some (5 * 128 + 5, [0x81, 0, 0, 0x11, 1, 0, 0, 1, 1, 0, 0, 0]) ∧
    (after (.fnStatusFrame 1000000000) fielding).fn.statusCount = 1 ∧ (after (.fnBusoff 1) fielding).fn.st = 3 := by decide +kernel

/-- An MREQ packet with that READ: its service, index and subindex from byte 8 (R478). -/
def readPacket : Packet := ctl 6 ((1 + 0x1100 * 2 ^ 16 + 1 * 2 ^ 32) * 2 ^ 64)

/-- R478: the MRSP carries the value, padded to 24 bytes. -/
theorem test_mreq : (after (.closaRead 1 (.mreq readPacket)) linked).link.out0
    = [.mrsp 0 ([0x81, 0, 0, 0x11, 1, 0, 0, 1, 1] ++ List.replicate 15 0)] := by decide +kernel

theorem witness_ClosaRequestsComplete_mreq : (Instr.closaRead 1 (.mreq readPacket)).closa = some (1, .mreq readPacket) ∧
    (linked.elapse 1).Takes 6 0 none readPacket ∧ (linked.link.mreqs = [] ∧ linked.mreqsAtWork < 16) ∧
    (let b : State := { linked with link := { linked.link with out0 := List.replicate 16 (.mrsp 0 []) } }
     (b.elapse 1).Takes 6 0 none readPacket ∧ b.mreqsAtWork = 16) :=
  ⟨rfl, ⟨.inl (by decide), ⟨rfl, by decide, .inr (.inr (by decide))⟩, fun _ h => (by cases h), by decide⟩, by decide,
    ⟨.inl (by decide), ⟨rfl, by decide, .inr (.inr (by decide))⟩, fun _ h => (by cases h), by decide⟩, by decide⟩

theorem witness_ClosaRequestsComplete :
    (Instr.closaRead 1 (.fn (4 * 128 + 5) .fd readFrame)).closa = some (1, .fn (4 * 128 + 5) .fd readFrame) ∧
    fielding.fn.st = 1 ∧ (fielding.elapse 1).objN Obj.FN_NODE_ID = 5 ∧ ((fielding.elapse 1).bump Obj.FN_RX_FRAMES).fnRefill.fn.tokens ≠ 0 ∧
    (({ fielding with fn := { st := 1 } } : State).elapse 0 |>.bump Obj.FN_RX_FRAMES).fnRefill.fn.tokens = 0 ∧ up.fn.st = 0 ∧
    (4 * 128 + 5) / 128 = 4 ∧ (4 * 128) % 128 = 0 ∧ (5 * 128 + 5) / 128 ≠ 4 ∧ (4 * 128 + 6) % 128 ≠ 0 ∧ (4 * 128 + 6) % 128 ≠ 5 ∧
    CanKind.classic ≠ CanKind.fd ∧ ((fielding.elapse 1).objAt Obj.NEW_TAKE.key).any (fun x => x.1.fnw) = true ∧
    (let q := closaParse (asService 2 takeFrame); q.svc = 2 ∧ q.idx * 256 + q.sub = Obj.NEW_TAKE.key ∧ q.dlen = 1 ∧ 1 ≤ q.data.length) ∧
    (closaParse (asService 1 readFrame)).svc ≠ 2 := by decide

/-- Requests that meet each check of R540 in turn: a bad service, no object, a segment service on a value, a field write, and a
READ that passes. -/
def closaReq (svc idx sub dlen : Nat) : ClosaReq := { svc, idx, sub, seq := 0, tag := 0, dlen, data := List.replicate dlen 0 }

theorem witness_ClosaServicesFollowTheirChecks :
    (up.closaCheck .fn 264 56 true (closaReq 0 0 0 0)).code = rcService ∧ (up.closaCheck .fn 264 56 true (closaReq 1 0xFFFF 0 0)).code = rcNoObject ∧
    (up.closaCheck .fn 264 56 true (closaReq 3 0x1100 1 0)).code = rcService ∧ (up.closaCheck .fn 264 56 true (closaReq 2 0x1100 2 1)).code = rcPath ∧
    (up.closaCheck .mreq 8 208 true (closaReq 2 0x1100 1 1)).code = rcReadOnly ∧ (up.closaCheck .mreq 8 208 true (closaReq 1 0x1100 1 1)).code = rcLength ∧
    (up.closaCheck .mreq 8 208 true (closaReq 1 0x1100 1 0)).data = [1] ∧
    (up.closaCheck .mreq 8 208 true (closaReq 7 (Obj.TLOG_IMAGE.key / 256) (Obj.TLOG_IMAGE.key % 256) 0)).code = rcOk ∧
    loading.ctxFree .mreq 8 = true ∧ loading.ctxFree (.cfg 0) 0 = false ∧ (loading.xfer? 0).map (fun x => x.upload && !x.timedOut) = some true := by decide +kernel

theorem witness_FieldPortAndFreezeComplete :
    (fielding.fn.st = 1 ∧ tbit ((fielding.elapse 100000000).objN Obj.FN_CTRL) 2 = true ∧
      fielding.fn.statusAt + 1000000 * (fielding.elapse 1000000000).objN Obj.FN_STATUS_MS ≤ (fielding.elapse 1000000000).now) ∧
    (({ fielding with fn := { st := 3 } } : State).fn.busoffAt + 1000000 * (fielding.elapse 1000000000).objN Obj.FN_BUSOFF_HOLD_MS
      ≤ (fielding.elapse 1000000000).now) ∧
    (up.elapse 1).WritePasses (.cfg 0) Obj.STAT_CTRL 1 ∧ (up.elapse 1).WritePasses (.cfg 0) Obj.STAT_CTRL 0 := by
  unfold State.WritePasses State.Reaches; (repeat' apply And.intro) <;> decide

/-! ### The trouble log -/

/-- One event queued, with one record's room in the first area, with none, and with the last area full. -/
def anEvent : TlEvent := { kind := 2, cls := 0, source := 0, detail := 9, time := 0, pos := {} }
def logging : State := { up with tlog := { queue := [anEvent] } }
def fullQueue : State := { up with tlog := { queue := List.replicate 32 anEvent } }

/-- R491, R493: the event becomes record 1 of the first area; a full queue loses the mark. -/
theorem test_tlog : ((after (.tlogRecord 1) logging).tlog.first.map fun r => (r.lseq, r.detail)) = [(1, 9)] ∧
    (after (.tlogMark 1 (.cfg 0) 5) up).tlog.queue.length = 1 ∧ (after (.tlogMark 1 (.cfg 0) 5) fullQueue).tlog.lost = 1 ∧
    ((after (.tlogClear 1 (.cfg 0) 0) logging).tlog.first.map fun r => r.kind) = [3] := by decide +kernel

theorem witness_TroubleLogRowsComplete : logging.Inv ∧ logging.tlog.queue = [anEvent] ∧ logging.tlog.first.length < logging.tlog.size ∧
    ({ logging with tlog := { queue := [anEvent], size := 0 } } : State).tlog.size ≤ 0 ∧ fullQueue.tlog.queue.length = 32 ∧
    (up.elapse 1).WritePasses (.cfg 0) Obj.TLOG_MARK 5 ∧ (up.elapse 1).WritePasses (.cfg 0) Obj.TLOG_CTRL (w64 (setBits 0 0 1 1)) ∧
    (up.elapse 1).TransferPasses (.cfg 0) Obj.TLOG_IMAGE false 1 := by
  unfold State.WritePasses State.TransferPasses State.Reaches
  refine ⟨⟨rfl, rfl, rfl, rfl, by decide⟩, ?_⟩
  (repeat' apply And.intro) <;> decide

/-! ### Frames -/

theorem witness_MediaRowsFrame : media.Inv ∧ (Instr.parSpill 1 3).isMedia = true ∧
    exec (.parSpill 1 3) media = .next (after (.parSpill 1 3) media) := ⟨⟨rfl, rfl, rfl, rfl, by decide⟩, rfl, rfl⟩

theorem witness_OtherRowsFrame : up.Inv ∧ exec (.seal 1 (.cfg 0) 0x5EA1) up = .next (after (.seal 1 (.cfg 0) 0x5EA1) up) ∧
    exec (.rmpArmLapse 1 .mreq) up = .next (after (.rmpArmLapse 1 .mreq) up) ∧
    exec (.intSoft 1 0 0x100) up = .next (after (.intSoft 1 0 0x100) up) ∧ exec (.coalTimer 1 31) up = .next (after (.coalTimer 1 31) up) ∧
    exec (.bufAlloc 1 7 4) up = .next (after (.bufAlloc 1 7 4) up) ∧ exec (.nqPop 1 7 7) up = .next (after (.nqPop 1 7 7) up) ∧
    exec (.statFreeze 1 .fn 1) up = .next (after (.statFreeze 1 .fn 1) up) ∧ exec (.fnBusoffRecover 1) up = .next (after (.fnBusoffRecover 1) up) ∧
    exec (.tlogMark 1 .mreq 1) up = .next (after (.tlogMark 1 .mreq 1) up) :=
  ⟨⟨rfl, rfl, rfl, rfl, by decide⟩, rfl, rfl, rfl, rfl, rfl, rfl, rfl, rfl, rfl⟩

theorem witness_RemainingRowsFrame : up.Inv ∧ exec (.allocEnable 1 (.cfg 0) 1) up = .next (after (.allocEnable 1 (.cfg 0) 1) up) ∧
    exec (.mbFieldWrite 1 (.cfg 0) 63 0x10 1) up = .next (after (.mbFieldWrite 1 (.cfg 0) 63 0x10 1) up) ∧
    exec (.bwFetchWaitExpired 1) up = .next (after (.bwFetchWaitExpired 1) up) ∧
    exec (.calSnapshotRead 1 (.cfg 0)) up = .next (after (.calSnapshotRead 1 (.cfg 0)) up) ∧
    exec (.frameBoundary 20 7) camera = .next (after (.frameBoundary 20 7) camera) ∧
    exec (.readyDrop 1) linked = .next (after (.readyDrop 1) linked) ∧ exec (.pfail 1) up = .next (after (.pfail 1) up) ∧
    exec (.cfgAbandon 1 7 0 0) up = .next (after (.cfgAbandon 1 7 0 0) up) := ⟨⟨rfl, rfl, rfl, rfl, by decide⟩, rfl, rfl, rfl, rfl, rfl, rfl, rfl, rfl⟩

end Sys2Proof.Tests
end

section
/-!
PROOF. The modes after a reset (R36): MODE_BEFORE_PARK is the mode record's own field, every held state has the modes of the
reset state, and the release of a reset leaves the modes as they are.
-/

namespace Sys2Proof.Machine

open Sys2Proof

/-- MODE_BEFORE_PARK is a view of the mode record, and no FREEZE holds it (R26, R489). -/
@[simp] theorem State.readObj_modeBeforePark (s : State) (p : Nat) :
    s.readObj p Obj.MODE_BEFORE_PARK 0 0 = s.modes.before.num := by
  have hlive : freezeKey (Obj.MODE_BEFORE_PARK.at 0 0) = false := rfl
  have hview : s.viewTime Obj.MODE_BEFORE_PARK 0 = some s.modes.before.num := rfl
  simp [State.readObj, State.live, hlive, hview]

/-! ### The states while a reset is 0 -/

@[simp] theorem State.porHeld_modes (s : State) : s.porHeld.modes = {} := rfl

@[simp] theorem State.blkHeld_modes (s : State) : s.blkHeld.modes = {} := by
  simp [State.blkHeld]

@[simp] theorem State.reset_modes : State.reset.modes = {} := rfl

/-! ### The reset rows -/

/-- A fall of PORST_N holds the block cleared (R523). -/
theorem exec_porst_fall (s : State) (dt khz : Nat) (f m : Bool) (h : s.porLow = false) :
    exec (.porst dt true khz f m) s = .next { s.porHeld with porLow := true } := by
  simp [exec, execPorst, h]

/-- A fall of BLKRST_N holds a block that no reset held yet cleared (R527). -/
theorem exec_blkrst_fall (s : State) (dt : Nat) (h : s.phase ≠ .held) :
    exec (.blkrst dt true) s = .next { s.blkHeld with blkLow := true } := by
  simp [exec, execBlkrst, h]

/-- A rise of PORST_N, one that finds it 1 already included, leaves the modes as they are (R523). -/
theorem exec_porst_rise_keeps_modes (s : State) (dt khz : Nat) (f m : Bool) :
    Completes (.porst dt false khz f m) s fun t => t.modes = s.modes := by
  simp only [Completes, exec, execPorst, Bool.false_eq_true, if_false]
  split
  · exact ⟨_, rfl, rfl⟩
  · exact ⟨s, rfl, rfl⟩

/-- A rise of BLKRST_N, whether or not it ends the reset, leaves the modes as they are (R523). -/
theorem exec_blkrst_rise_keeps_modes (s : State) (dt : Nat) :
    Completes (.blkrst dt false) s fun t => t.modes = s.modes := by
  simp only [Completes, exec, execBlkrst, Bool.false_eq_true, if_false]
  split
  · exact ⟨_, rfl, rfl⟩
  · exact ⟨_, rfl, rfl⟩

/-- A block whose modes are those of reset shows what R36 asks for. -/
theorem State.open_of_modes_eq_reset (t : State) (h : t.modes = {}) :
    t.modes.current = .openMode ∧ t.modes.pending = none ∧ ∀ p, t.readObj p Obj.MODE_BEFORE_PARK 0 0 = 1 := by
  simp [h, Mode.num]

/-- Settles O6: both falls and the reset state give the modes of reset, and neither rise changes the modes. -/
theorem modeAfterReset : Obligations.ModeAfterReset := by
  unfold Obligations.ModeAfterReset
  refine ⟨fun s dt khz f m h => ?_, fun s dt h => ?_, exec_porst_rise_keeps_modes, exec_blkrst_rise_keeps_modes,
    State.open_of_modes_eq_reset _ State.reset_modes⟩
  · exact ⟨_, exec_porst_fall s dt khz f m h, State.open_of_modes_eq_reset _ s.porHeld_modes⟩
  · exact ⟨_, exec_blkrst_fall s dt h, State.open_of_modes_eq_reset _ s.blkHeld_modes⟩

end Sys2Proof.Machine
end

section
/-!
PROOF. The lanes of an eye scan (R325): what a passing lane is, and that a slot has eye words only where all ten lanes pass.
-/

namespace Sys2Proof.Machine

open Sys2Proof

/-- The two bounds of R325 on a returned word. -/
@[simp] theorem State.laneOk_iff (s : State) (w : EyeWord) :
    s.laneOk w = true ↔ (s.objN Obj.CAL_EYE_MIN : Int) ≤ w.right - w.left + 1 ∧
      w.errors * 1000000 ≤ s.objN Obj.CAL_EYE_BER_PPM * w.samples := by
  simp [State.laneOk, Nat.mul_comm 1000000]

/-- No lane is dropped from a slot's words: ten words are left exactly where every lane has a word that passes. -/
theorem State.slotEyes_isSome_iff (s : State) (eyes : List EyeWord) (k : Nat) :
    (s.slotEyes eyes k).isSome = true ↔
      ∀ l < 10, ((eyes.find? fun w => w.slot == k && w.lane == l).filter s.laneOk).isSome = true := by
  have hall := List.filterMap_length_eq_length (l := List.range 10)
    (f := fun l => (eyes.find? fun w => w.slot == k && w.lane == l).filter s.laneOk)
  simpa only [State.slotEyes, List.length_range, List.mem_range, Option.isSome_ite] using hall

/-- Settles O34: all ten lanes are kept, and a lane is kept where its word is found and meets both bounds. -/
theorem lanesPass : Obligations.LanesPass := by
  unfold Obligations.LanesPass
  intro s eyes k
  rw [State.slotEyes_isSome_iff]
  refine forall₂_congr fun l _ => ?_
  simp only [Option.isSome_filter, Option.any_eq_true, State.laneOk_iff]

end Sys2Proof.Machine
end

section
/-!
PROOF. Software interrupts, SLEEP_IND and coalescing (R447, R456, R458): which latches a write of INT_SOFT sets, and what the end
of a core cycle makes of a coalescing group.
-/

namespace Sys2Proof.Machine

open Sys2Proof

/-! ### Bits of a written value -/

theorem tbit_eq_testBit (x i : Nat) : tbit x i = x.testBit i := by
  rw [Nat.testBit_eq_decide_div_mod_eq]; rfl

theorem testBit_bits (x lo w j : Nat) : (bits x lo w).testBit j = (decide (j < w) && x.testBit (lo + j)) := by
  rw [bits, Nat.testBit_mod_two_pow, Nat.testBit_div_two_pow, Nat.add_comm]

/-- A write keeps the bits of the object's type that are not reserved (R12). -/
theorem Obj.testBit_keep (o : Obj) (v j : Nat) :
    (o.keep v).testBit j = (decide (j < 8 * o.ty.bytes) && v.testBit j && o.mask.toNat.testBit j) := by
  rw [Obj.keep, ← Nat.testBit_mod_two_pow]
  exact Nat.testBit_and ..

/-- The processors named by INT_SOFT, bits 15:8, are not reserved (R447). -/
theorem tbit_keep_intSoft (v q : Nat) (hq : q < 8) : tbit (Obj.INT_SOFT.keep v) (8 + q) = tbit v (8 + q) := by
  have hmask : ∀ q < 8, 8 + q < 8 * Obj.INT_SOFT.ty.bytes ∧ Obj.INT_SOFT.mask.toNat.testBit (8 + q) = true := by decide
  obtain ⟨hty, hm⟩ := hmask q hq
  simp [tbit_eq_testBit, Obj.testBit_keep, hty, hm]

/-- The source number N of INT_SOFT, bits 3:0, is not reserved (R447). -/
theorem bits_keep_intSoft (v : Nat) : bits (Obj.INT_SOFT.keep v) 0 4 = bits v 0 4 := by
  have hmask : ∀ j < 4, j < 8 * Obj.INT_SOFT.ty.bytes ∧ Obj.INT_SOFT.mask.toNat.testBit j = true := by decide
  refine Nat.eq_of_testBit_eq fun j => ?_
  simp only [testBit_bits, Obj.testBit_keep, Nat.zero_add]
  by_cases hj : j < 4
  · obtain ⟨hty, hm⟩ := hmask j hj
    simp [hty, hm]
  · simp [hj]

/-! ### Latches -/

theorem State.mem_latches_setLatch (s : State) (k j : Nat) :
    j ∈ (s.setLatch k).ints.latches ↔ j ∈ s.ints.latches ∨ j = k := by
  unfold State.setLatch
  split
  · rename_i h
    have hk : k ∈ s.ints.latches := by simpa using h
    exact ⟨Or.inl, fun hj => hj.elim id fun e => e ▸ hk⟩
  · simp

theorem mem_latches_foldl_setLatch (key : Nat → Nat) (l : List Nat) (s : State) (j : Nat) :
    j ∈ (l.foldl (fun a p => a.setLatch (key p)) s).ints.latches ↔ j ∈ s.ints.latches ∨ ∃ p ∈ l, j = key p := by
  induction l generalizing s with
  | nil => simp
  | cons p ps ih => rw [List.foldl_cons, ih, State.mem_latches_setLatch]; simp [or_assoc]

/-- The key of software source N of a processor (R445). -/
theorem intKey_software (q n : Nat) : intKey q (480 + n) = 512 + 32 * q + n := by
  rw [intKey, if_neg (by omega), Nat.add_sub_cancel_left]

/-- The rule of INT_SOFT on the value a write keeps (R447). -/
theorem mem_latches_writeIntSoft_keep (s : State) (v k : Nat) :
    k ∈ (writeIntSoft s (Obj.INT_SOFT.keep v)).1.ints.latches ↔ k ∈ s.ints.latches ∨
      ∃ q, q < 8 ∧ tbit v (8 + q) = true ∧ k = intKey q (480 + bits v 0 4) := by
  rw [writeIntSoft, bits_keep_intSoft, mem_latches_foldl_setLatch fun p => 512 + 32 * p + bits v 0 4]
  simp only [List.mem_filter, List.mem_range, intKey_software, and_assoc]
  refine or_congr_right (exists_congr fun q => and_congr_right fun hq => ?_)
  rw [tbit_keep_intSoft v q hq]

theorem writeIntSoft_nqs (s : State) (v : Nat) : (writeIntSoft s v).1.nqs = s.nqs :=
  foldl_keeps State.nqs _ (fun a _ => a.setLatch_nqs _) _ s

/-! ### The answer of an access -/

/-- While no FLUSH of a notice queue waits, an access recorded is answered (R427, R469). -/
theorem State.account_answers (s : State) (path : DictPath) (key : Nat) (write : Bool) (code value : Nat)
    (h : s.flushing = false) : (s.account path key write code value).Answers path code value := by
  rintro p rfl
  simp [State.account, h]

/-- The configuration port reaches no object while a FLUSH waits (R427). -/
theorem State.Reaches.not_flushing {s : State} {p : Nat} {o : Obj} {i r : Nat} (h : s.Reaches (.cfg p) o i r) :
    s.flushing = false := by
  have hport : s.portHeld (.cfg p) = false := h.1
  exact (Bool.or_eq_false_iff.mp hport).1

/-! ### The end of a core cycle -/

@[simp] theorem State.settle_ints (b a : State) : (b.settle a).ints = { a.ints with coal := (b.watch a).coalAll } := by
  rw [State.settle, State.enterCycle_ints, State.watch_ints]

/-- What a table lists, where entries equal to the default are left out. -/
theorem mapGetD_filterMap_nondefault {α : Type} [DecidableEq α] (c : Nat → α) (d : α) (l : List Nat) (k : Nat) :
    mapGetD (l.filterMap fun i => if c i == d then none else some (i, c i)) k d = if k ∈ l then c k else d := by
  induction l with
  | nil => rfl
  | cons i is ih =>
    by_cases hd : c i = d
    · rw [List.filterMap_cons_none (by simp [hd]), ih]
      by_cases hk : k = i <;> simp [hk, hd]
    · rw [List.filterMap_cons_some (b := (i, c i)) (by simp [hd])]
      by_cases hk : k = i
      · simp [mapGetD, mapGet, hk]
      · simpa [mapGetD, mapGet, hk, Ne.symm hk] using ih

/-- A group without members has no items, so it is closed with its timer stopped (R455, R456). -/
theorem State.coalStep_of_no_sources (s : State) (g : Nat) (h : s.groupSources g = []) : s.coalStep g = {} := by
  have hitems : s.groupItems g = 0 := by rw [State.groupItems, h]; rfl
  simp [State.coalStep, hitems]

/-- Every group is brought up to date, a group that is not listed included. -/
theorem State.mapGetD_coalAll (s : State) (g : Nat) (hg : g < 32) : mapGetD s.coalAll g {} = s.coalStep g := by
  refine (mapGetD_filterMap_nondefault s.coalStep {} s.liveGroups g).trans ?_
  split
  · rfl
  · rename_i hlive
    have hnone : s.groupSources g = [] ∧ mapGet s.ints.coal g = none := by simpa [State.liveGroups, hg] using hlive
    exact (s.coalStep_of_no_sources g hnone.1).symm

/-- The watchers see nothing of a group. -/
theorem State.watch_coalStep (b a : State) (g : Nat) : (b.watch a).coalStep g = a.coalStep g :=
  watch_keeps (fun s => s.coalStep g) (fun _ _ _ => rfl) (fun _ _ _ _ _ => rfl)
    (fun s k u fs h c => by unfold State.unitNotice; split <;> rfl) (fun _ _ => rfl) b a

/-- After a core cycle a group is what `State.coalStep` says of the state that the command's meaning left. -/
theorem State.settle_coal (b a : State) (g : Nat) (hg : g < 32) : (b.settle a).coal g = a.coalStep g := by
  rw [State.coal, State.settle_ints, State.mapGetD_coalAll _ g hg, State.watch_coalStep]

/-! ### Groups that open -/

/-- A group with items is open where it was open, where its items reach COUNT, and while its target sleeps (R456, R458). -/
theorem State.coalStep_isOpen (s : State) (g : Nat) (h : 1 ≤ s.groupItems g) :
    (s.coalStep g).isOpen = ((s.coal g).isOpen || decide (bits (s.coalCfg g) 0 8 ≤ s.groupItems g)
      || s.ints.sleep.getD (s.coalTarget g) false) := by
  have hitems : s.groupItems g ≠ 0 := by omega
  simp [State.coalStep, hitems]

/-- A group opened by its timer is open. -/
theorem State.coalOpen_coal_isOpen (s : State) (g : Nat) (flushed : Bool) : ((s.coalOpen g flushed).coal g).isOpen = true := by
  simp [State.coalOpen, State.coal, mapUpd, mapGetD, mapGet_put_same]

theorem State.setSleep_sleep (s : State) (p : Nat) (level : Bool) :
    (s.setSleep p level).ints.sleep = s.ints.sleep.set p level := by
  show listUpd s.ints.sleep p (fun _ => level) = _
  unfold listUpd
  split
  · rfl
  · rename_i h
    exact (List.set_eq_of_length_le (List.getElem?_eq_none_iff.mp h)).symm

/-! ### The rows -/

theorem exec_sleepInd_up (s : State) (dt p : Nat) (level : Bool) (hu : s.Up) :
    exec (.sleepInd dt p level) s = s.functional dt (State.setSleep p level) := by
  obtain ⟨-, hrun⟩ := hu
  exact onPin_up s dt _ _ (by simp [hrun]) (by simp [hrun])

/-- INT_SOFT is answered and sets the latches it names (R447). -/
theorem intSoft_completes (s : State) (dt p : Nat) (v : W64) (hu : s.Up)
    (hw : (s.elapse dt).WritePasses (.cfg p) Obj.INT_SOFT v) :
    Completes (.intSoft dt p v) s fun t => t.Answers (.cfg p) rcOk ∧
      ∀ k, k ∈ t.ints.latches ↔ k ∈ s.ints.latches ∨ ∃ q, q < 8 ∧ tbit v.toNat (8 + q) = true ∧
        k = intKey q (480 + bits v.toNat 0 4) := by
  have hexec : exec (.intSoft dt p v) s = s.functional dt fun s => s.writeCmd (.cfg p) Obj.INT_SOFT v writeIntSoft := rfl
  refine completes_up hexec hu ?_
  rw [writeCmd_passes writeIntSoft hw]
  have hflush : (writeIntSoft (s.elapse dt) (Obj.INT_SOFT.keep v.toNat)).1.flushing = false := by
    rw [State.flushing, writeIntSoft_nqs]
    exact hw.1.not_flushing
  refine ⟨fun q hq => ?_, fun k => ?_⟩
  · rw [State.settle_cfg, State.notePrev_cfg]
    exact State.account_answers _ _ _ _ _ _ hflush q hq
  · rw [State.settle_ints, State.notePrev_ints, State.account_ints]
    exact mem_latches_writeIntSoft_keep (s.elapse dt) v.toNat k

/-- SLEEP_IND keeps the level and opens the groups of a processor that sleeps (R458). -/
theorem sleepInd_completes (s : State) (dt p : Nat) (level : Bool) (hu : s.Up) (hp : p < s.ints.sleep.length) :
    Completes (.sleepInd dt p level) s fun t =>
      t.ints.sleep = s.ints.sleep.set p level ∧ t.ints.handlers = s.ints.handlers ∧ t.ints.latches = s.ints.latches ∧
      (level = true → ∀ g, g < 32 → (s.elapse dt).coalTarget g = p → 1 ≤ (s.elapse dt).groupItems g →
        (t.coal g).isOpen = true) := by
  refine completes_up (exec_sleepInd_up s dt p level hu) hu ⟨?_, ?_, ?_, ?_⟩
  · rw [State.settle_ints]
    exact (s.elapse dt).setSleep_sleep p level
  · rw [State.settle_ints]; rfl
  · rw [State.settle_ints]; rfl
  · rintro rfl g hg htarget hitems
    have htarget' : ((s.elapse dt).setSleep p true).coalTarget g = p := htarget
    have hitems' : 1 ≤ ((s.elapse dt).setSleep p true).groupItems g := hitems
    have hasleep : ((s.elapse dt).setSleep p true).ints.sleep.getD p false = true := by
      rw [State.setSleep_sleep, State.elapse_ints]
      simp [hp]
    rw [State.settle_coal _ _ g hg, State.coalStep_isOpen _ g hitems', htarget', hasleep, Bool.or_true]

/-- COAL_TIMER opens a group with items whose time has passed (R456). -/
theorem coalTimer_opens (s : State) (dt g : Nat) (hu : s.Up) (hg : g < 32) (hx : (s.elapse dt).coalExpired g = true)
    (hitems : 1 ≤ (s.elapse dt).groupItems g) : Completes (.coalTimer dt g) s fun t => (t.coal g).isOpen = true := by
  have hexec : exec (.coalTimer dt g) s = s.functional dt fun s => if s.coalExpired g then s.coalOpen g false else s := rfl
  refine completes_up hexec hu ?_
  have hitems' : 1 ≤ ((s.elapse dt).coalOpen g false).groupItems g := hitems
  rw [if_pos hx, State.settle_coal _ _ g hg, State.coalStep_isOpen _ g hitems', State.coalOpen_coal_isOpen,
    Bool.true_or, Bool.true_or]

/-- A meaning that leaves the state as it is has no effect. -/
theorem noEffect_of_unchanged {i : Instr} {s : State} {dt : Nat} {f : State → State} (h : exec i s = s.functional dt f)
    (hu : s.Up) (hf : f (s.elapse dt) = s.elapse dt) : NoEffect i s := by
  have hkept : ∀ x : Field, x.kept (s.elapse dt) (f (s.elapse dt)) := by
    intro x; rw [hf]; cases x <;> simp [Field.kept]
  rw [functional_up _ _ _ hu] at h
  exact ⟨_, h, fun hs x _ => settle_same s dt _ x hs (hkept x)⟩

/-- COAL_TIMER before the group's time has no effect (R456). -/
theorem coalTimer_noEffect (s : State) (dt g : Nat) (hu : s.Up) (hx : (s.elapse dt).coalExpired g = false) :
    NoEffect (.coalTimer dt g) s :=
  noEffect_of_unchanged (f := fun s => if s.coalExpired g then s.coalOpen g false else s) rfl hu (by simp [hx])

/-- Settles O50, row by row: INT_SOFT, SLEEP_IND, and COAL_TIMER on both sides of the group's time. -/
theorem interruptRowsComplete : Obligations.InterruptRowsComplete := by
  unfold Obligations.InterruptRowsComplete
  exact ⟨intSoft_completes, sleepInd_completes,
    fun s dt g hu hg => ⟨coalTimer_opens s dt g hu hg, coalTimer_noEffect s dt g hu⟩⟩

end Sys2Proof.Machine
end
